-- ==== Sys2Proof/Word.lean ====
section
/-! DEFINITION. The data word of the Karsum (R8) and its plainest arithmetic, and the sparse table that State is made of. -/

namespace Sys2Proof

/-- A word is 32 bits (R8). -/
abbrev Word := BitVec 32
/-- A doubleword is 64 bits (R8). -/
abbrev Dword := BitVec 64
abbrev Byte := BitVec 8

/-- A table keyed by number: sorted by key, one entry a key; a key with no entry holds a default. -/
abbrev Tab (α : Type) := List (Nat × α)

/-- The entry of key `k`, or `d` where the table lists none. -/
def Tab.get {α : Type} (d : α) : Tab α → Nat → α
  | [], _ => d
  | (j, x) :: r, k => if j = k then x else Tab.get d r k

/-- The table with `k` holding `x`; the order by key is kept. -/
def Tab.put {α : Type} : Tab α → Nat → α → Tab α
  | [], k, x => [(k, x)]
  | (j, y) :: r, k, x =>
    if k < j then (k, x) :: (j, y) :: r
    else if j = k then (k, x) :: r
    else (j, y) :: Tab.put r k x

/-- The table without the entry of `k`. -/
def Tab.del {α : Type} : Tab α → Nat → Tab α
  | [], _ => []
  | (j, y) :: r, k => if j = k then Tab.del r k else (j, y) :: Tab.del r k

/-- Sorted by key with one entry a key. -/
def Tab.wf {α : Type} : Tab α → Bool
  | [] => true
  | [_] => true
  | (i, _) :: (j, y) :: r => decide (i < j) && Tab.wf ((j, y) :: r)

end Sys2Proof
end

