-- ==== Sys2Proof/Syntax.lean ====
section
/-! DEFINITION. The instructions and events of the Karsum: one constructor per row of spec/opcode_table.json.
Instruction forms carry their decoded operands (R40 to R48, R60); events of hardware, host and management carry the
cluster, warp and request they concern, and the choices that the manual leaves to the hardware (log 1). -/

namespace Sys2Proof

/-- What a full word is guarded by (R46): EM, EM and CM, EM and not CM. On the control core `cf` stands for CM. -/
inductive Guard where
  | em | cm | ncm
  deriving DecidableEq, Repr, Inhabited

/-- The two parts every full word has (R39, R46): the switch marker S and the guard G. -/
structure Hdr where
  sw : Bool
  g : Guard
  deriving DecidableEq, Repr, Inhabited

/-- An operand as its field and its kind bits name it (R41 to R44): a v register, a v register plus XI,
a k register, a g register of the control core, or the 16-bit immediate with its SX bit. -/
inductive Opd where
  | v (n : Nat)
  | vx (n : Nat)
  | k (n : Nat)
  | g (n : Nat)
  | imm (x : BitVec 16) (sx : Bool)
  deriving DecidableEq, Repr, Inhabited

/-- The rounding list *rnd* (R61). -/
inductive Rnd where
  | rn | rz | rd | ru
  deriving DecidableEq, Repr, Inhabited

/-- The integer conditions *icond* (R61). -/
inductive ICond where
  | eq | ne | lt | le | gt | ge | ltN | leN | gtN | geN
  deriving DecidableEq, Repr, Inhabited

/-- The floating conditions *fcond* (R61). -/
inductive FCond where
  | eq | ne | lt | le | gt | ge | ord | un | equ | neu | ltu | leu | gtu | geu
  deriving DecidableEq, Repr, Inhabited

/-- The conditions of WAITW (R87). -/
inductive WCond where
  | eq | ne | ge | lt
  deriving DecidableEq, Repr, Inhabited

/-- The six scopes (R187). -/
inductive Scope where
  | wg | cl | die | dev | pod | sys
  deriving DecidableEq, Repr, Inhabited

/-- The special registers of R66. -/
inductive Sr where
  | em | cm | cpm | pt | xi | st | repc | awb | awl | tt | tvec | tpc | tcause | taddr | tlanes | tb
  deriving DecidableEq, Repr, Inhabited

/-- The reduction ops of R151, in FN order. -/
inductive RedOp where
  | addI32 | addF32 | min | max | minN | maxN | fmin | fmax | and | or | xor
  deriving DecidableEq, Repr, Inhabited

/-- How PSWP treats the value received (R126): plain, `.neglo`, `.neghi`. -/
inductive Neg where
  | plain | lo | hi
  deriving DecidableEq, Repr, Inhabited

/-- What the C field of a load names (R102): nothing, a v register or a k register. -/
inductive CRef where
  | none
  | v (n : Nat)
  | k (n : Nat)
  deriving DecidableEq, Repr, Inhabited

/-- A load is weak with limit and predictor codes, or strong at a scope (R96). -/
inductive LdMode where
  | weak (lim : BitVec 4) (pred : BitVec 3)
  | strong (sc : Scope)
  deriving DecidableEq, Repr, Inhabited

/-- The source of XISET (R65). -/
inductive XiSrc where
  | imm (x : BitVec 8)
  | k (n : Nat)
  deriving DecidableEq, Repr, Inhabited

/-- The operation of a pair half (R48). -/
inductive HalfOp where
  | nop | iadd | isub | imul | imin | imax | iminN | imaxN | and | or | xor | andn | shl | shr | sar | rot | mov
  | fadd | fsub | fmul | fmin | fmax | badd2 | bmul2 | bmin2 | bmax2
  deriving DecidableEq, Repr, Inhabited

/-- The second source of a pair half (R47): a v, k or g register, or the signed 7-bit immediate. -/
inductive HalfSrc where
  | v (n : Nat)
  | k (n : Nat)
  | g (n : Nat)
  | imm (x : BitVec 7)
  deriving DecidableEq, Repr, Inhabited

/-- The operands of a pair half: D, which is also the first source, and the second source.
`core` says that D is a g register (R59). -/
structure HalfArgs where
  core : Bool
  d : Nat
  src : HalfSrc
  deriving DecidableEq, Repr, Inhabited

/-- A pair half (R47). -/
structure Half where
  op : HalfOp
  args : HalfArgs
  deriving DecidableEq, Repr, Inhabited

/-- Where a load reply comes from, a choice of the hardware (R167, R170, R189): the L1, a peer cluster's L1 or
the home slice. -/
inductive Via where
  | l1
  | peer (cl : Nat)
  | home
  deriving DecidableEq, Repr, Inhabited

/-- The word of a fabric message (R296): an XRA with its OP, count, TMO code and mask; an XRC with its elements; an XRF. -/
inductive XrBody where
  | xra (op n tmo : Nat) (mask : Dword)
  | xrc (data : List Word)
  | xrf
  deriving DecidableEq, Repr, Inhabited

/-- A message at a hub, from device `dev`, under a slot handle (R295, R297). -/
structure XrMsg where
  dev : Nat
  handle : Word
  body : XrBody
  deriving DecidableEq, Repr, Inhabited

/-- A message that reaches a hub slot: one of this device's own, by its number, with the answer a hub on another
device gives (used only then), or one of another device. -/
inductive XrSrc where
  | own (id : Nat) (answer : Nat)
  | peer (m : XrMsg)
  deriving DecidableEq, Repr, Inhabited

/-- A part that can be retired (R323), or a port (R303). -/
inductive Part where
  | cluster (cl : Nat)
  | pseudoChannel (stack pc : Nat)
  | linkLane (port lane : Nat)
  | port (p : Nat)
  deriving DecidableEq, Repr, Inhabited

/-- What an outside party does to bytes of an object (R304, R306): reads them, writes them, or has an atomic (FN, TY,
operand, and the new value of `.cas`, as of R203). -/
inductive OutAcc where
  | read (size : Nat)
  | write (bytes : List Byte)
  | atom (fn ty : Nat) (x y : Dword)
  deriving DecidableEq, Repr, Inhabited

/-- What a peer's request names (R304): an object of its paired context; a page of this module that one of its own objects names as
a peer page, by address; or its own memory, an object or a page, as this module's objects name it. -/
inductive PeerSpace where
  | paired (ctx : Nat)
  | pages
  | ownObjects
  | ownPages
  deriving DecidableEq, Repr, Inhabited

/-- Where a page can be (R162, R166). -/
inductive Home where
  | hbm
  | tier
  | host
  | peer (dev : Nat)
  deriving DecidableEq, Repr, Inhabited

/-- A tarnish tile of a cluster (R246). -/
structure TileAt where
  cl : Nat
  tile : Nat
  deriving DecidableEq, Repr, Inhabited

/-- Umailo's placement of one workgroup (R340, R281): slot-table entry, bench, warp slots, stash base and SPART. -/
structure Place where
  cl : Nat
  entry : Nat
  bench : Nat
  slots : Dword
  stb : Nat
  spart : Nat
  deriving DecidableEq, Repr, Inhabited

/-- What the management interface reads: the counters (R124, R186, R239, R254, R274, R308, R318), and, of the module, the
health register (R324) and a lifetime record by its key (R325). -/
inductive Ctr where
  | guessesIssued | guessesRedeemed | guessesAccepted | guessesEqual | guessesDiscarded | limitIgnored
  | limitExpiry (bin : Nat)
  | plateAddr | plateEscape | plateControl | platedStores
  | pftIssued | pftDropped | pftUsed | pftTimely
  | peerProbes | forwardsSupplied | forwardsDeclined | gathers | scatters | elementsMoved | elementCauses
  | stashFills | stashWritebacks | l2Pairs | mscHits | mscCleanMisses | mscDirtyVictims | mscCoalesced
  | mma (fmt : Nat) | mmas (fmt : Nat) | mmahKept | mmahFilled | mmahSkipped | assayTiles | hallmarkBits
  | arrayBusy | headWaits | accBusy | accWindow
  | tldExpired | tstDropped | burnRenewed | burnFailed | tinits | tilesExpired
  | fetches | fetchBytes | evictions | revocations | fetchFails | swaps
  | pfxmHits | pfxmMisses | pfxpFails | wqEmpty | larrMerges | kvxNulls
  | xrOpened | xrJoins | xrBusy | xrRefused | xrCounted | xrLate | xrTimeouts | xrNans | xrReclaimed
  | flitReplays | retrains | lanesRetired | fabricRefusals
  | engineCmd (op : Nat) | engineBytes | engineFails | chainHalts | cwgoWaits | shadowHolds
  | health | record (key : Nat)
  deriving DecidableEq, Repr, Inhabited

/-- The instructions and events: one constructor per row of the opcode table, first the
rows that have an encoding in the table's order, then the events. -/
inductive Instr where
  -- control (R54, R84 to R90)
  | nop (h : Hdr)
  | rep (sw : Bool) (sd sa sb sc : BitVec 2) (cnt : BitVec 6)
  | bra (h : Hdr) (w : BitVec 32)
  | brc (h : Hdr) (neg gf : Bool) (w : BitVec 32)
  | jmpi (h : Hdr) (a : Opd)
  | call (h : Hdr) (d : Opd) (w : BitVec 32)
  | ret (h : Hdr) (a : Opd)
  | join (h : Hdr) (tile : Bool)
  | exit (h : Hdr)
  | tail (h : Hdr)
  | yield (h : Hdr)
  | trap (h : Hdr) (code : BitVec 16)
  | tretReplay (h : Hdr)
  | tretResume (h : Hdr)
  | waitw (h : Hdr) (cond : WCond) (d a b c : Opd) (tmo : BitVec 4) (scl : BitVec 2) (sc : Scope)
  | barArriveWait (h : Hdr) (id : BitVec 4)
  | barArrive (h : Hdr) (id : BitVec 4)
  | barWait (h : Hdr) (id : BitVec 4)
  -- special registers, masks, launches (R65, R66, R82, R83, R91 to R93)
  | rdsr (h : Hdr) (d : Opd) (sr : Sr)
  | wrsr (h : Hdr) (sr : Sr) (a : Opd)
  | ems (sw : Bool) (kd : Nat)
  | eml (sw gf : Bool) (ka : Nat)
  | ema (sw gf : Bool)
  | emn (sw gf : Bool)
  | emo (sw gf : Bool)
  | cms (sw p : Bool) (kd : Nat)
  | cml (sw p : Bool) (ka : Nat)
  | cmx (sw : Bool) (op : BitVec 2) (ka : Nat)
  | part (h : Hdr) (size : BitVec 3)
  | xiset (h : Hdr) (src : XiSrc)
  | lnch (h : Hdr) (ka : Nat)
  | wcan (h : Hdr) (lvl : BitVec 2) (ka : Nat)
  | movwWrite (h : Hdr) (w k : Nat)
  | movwRead (h : Hdr) (k w : Nat)
  -- integer (R69 to R81)
  | iadd (h : Hdr) (d a b : Opd)
  | iaddc (h : Hdr) (d a b : Opd)
  | isub (h : Hdr) (d a b : Opd)
  | isubb (h : Hdr) (d a b : Opd)
  | imul (h : Hdr) (d a b : Opd)
  | imulh (h : Hdr) (d a b : Opd)
  | imulhN (h : Hdr) (d a b : Opd)
  | imad (h : Hdr) (d a b c : Opd)
  | imin (h : Hdr) (nat : Bool) (d a b : Opd)
  | imax (h : Hdr) (nat : Bool) (d a b : Opd)
  | iabs (h : Hdr) (d a : Opd)
  | ineg (h : Hdr) (d a : Opd)
  | idiv (h : Hdr) (d a b : Opd)
  | idivN (h : Hdr) (d a b : Opd)
  | irem (h : Hdr) (d a b : Opd)
  | iremN (h : Hdr) (d a b : Opd)
  | and (h : Hdr) (d a b : Opd)
  | or (h : Hdr) (d a b : Opd)
  | xor (h : Hdr) (d a b : Opd)
  | andn (h : Hdr) (d a b : Opd)
  | not (h : Hdr) (d a : Opd)
  | shl (h : Hdr) (d a b : Opd)
  | shr (h : Hdr) (d a b : Opd)
  | sar (h : Hdr) (d a b : Opd)
  | rot (h : Hdr) (d a b : Opd)
  | bfx (h : Hdr) (sg : Bool) (d a b : Opd)
  | bfi (h : Hdr) (d a b c : Opd)
  | popc (h : Hdr) (d a : Opd)
  | clz (h : Hdr) (d a : Opd)
  | brev (h : Hdr) (d a : Opd)
  | sel (h : Hdr) (d a b : Opd)
  | selZ (h : Hdr) (d a b c : Opd)
  | iset (h : Hdr) (c : ICond) (d : Option Opd) (a b : Opd)
  | mov (h : Hdr) (d a : Opd)
  | movi (h : Hdr) (d : Opd) (tag : BitVec 2) (imm : BitVec 32)
  | retag (h : Hdr) (tag : BitVec 2) (d a : Opd)
  | cadd (h : Hdr) (d a b : Opd)
  | cmk (h : Hdr) (d a : Opd)
  | clen (h : Hdr) (d a : Opd)
  | crst (h : Hdr) (d a b : Opd)
  -- floating (R125, R133 to R145)
  | fadd (h : Hdr) (r : Rnd) (d a b : Opd)
  | fsub (h : Hdr) (r : Rnd) (d a b : Opd)
  | fmul (h : Hdr) (r : Rnd) (d a b : Opd)
  | ffma (h : Hdr) (r : Rnd) (d a b c : Opd)
  | fmin (h : Hdr) (d a b : Opd)
  | fmax (h : Hdr) (d a b : Opd)
  | fminm (h : Hdr) (d a b : Opd)
  | fmaxm (h : Hdr) (d a b : Opd)
  | fset (h : Hdr) (c : FCond) (d : Option Opd) (a b : Opd)
  | fclass (h : Hdr) (d a : Opd)
  | frnd (h : Hdr) (r : Rnd) (x : Bool) (d a : Opd)
  | f2i (h : Hdr) (r : Rnd) (n : Bool) (d a : Opd)
  | i2f (h : Hdr) (r : Rnd) (n : Bool) (d a : Opd)
  | fpk (h : Hdr) (r : Rnd) (d a b : Opd)
  | fupk (h : Hdr) (hi : Bool) (d a : Opd)
  | badd2 (h : Hdr) (r : Rnd) (d a b : Opd)
  | bmul2 (h : Hdr) (r : Rnd) (d a b : Opd)
  | bfma2 (h : Hdr) (r : Rnd) (d a b c : Opd)
  | bmin2 (h : Hdr) (d a b : Opd)
  | bmax2 (h : Hdr) (d a b : Opd)
  | ftwos (h : Hdr) (d a b : Opd)
  | ftwop (h : Hdr) (d a b : Opd)
  | frcp (h : Hdr) (d a : Opd)
  | frsq (h : Hdr) (d a : Opd)
  | fsqrt (h : Hdr) (d a : Opd)
  | fexp2 (h : Hdr) (d a : Opd)
  | flog2 (h : Hdr) (d a : Opd)
  | fsint (h : Hdr) (d a : Opd)
  | fcost (h : Hdr) (d a : Opd)
  | ftanh (h : Hdr) (d a : Opd)
  | rota (h : Hdr) (d a b : Opd)
  | fdiv (h : Hdr) (r : Rnd) (d a b : Opd)
  -- cross-lane (R126, R147 to R153)
  | shflIdx (h : Hdr) (d a b : Opd)
  | shflUp (h : Hdr) (d a b : Opd)
  | shflDown (h : Hdr) (d a b : Opd)
  | shflXor (h : Hdr) (d a b : Opd)
  | pswp (h : Hdr) (n : Neg) (d a : Opd)
  | voteAny (h : Hdr) (cmw : Bool) (d a : Opd)
  | voteAll (h : Hdr) (cmw : Bool) (d a : Opd)
  | voteBallot (h : Hdr) (d a : Opd)
  | reduxAddI32 (h : Hdr) (d a : Opd)
  | reduxAddF32 (h : Hdr) (d a : Opd)
  | reduxMin (h : Hdr) (d a : Opd)
  | reduxMax (h : Hdr) (d a : Opd)
  | reduxMinN (h : Hdr) (d a : Opd)
  | reduxMaxN (h : Hdr) (d a : Opd)
  | reduxFmin (h : Hdr) (d a : Opd)
  | reduxFmax (h : Hdr) (d a : Opd)
  | reduxAnd (h : Hdr) (d a : Opd)
  | reduxOr (h : Hdr) (d a : Opd)
  | reduxXor (h : Hdr) (d a : Opd)
  | scan (h : Hdr) (excl : Bool) (op : RedOp) (d a : Opd)
  | rdln (h : Hdr) (tile : Bool) (d : Opd)
  -- loads, stores, plates (R94 to R121, R173 to R183)
  | ld (h : Hdr) (scl : BitVec 2) (lim : BitVec 4) (pred : BitVec 3) (conv : BitVec 5) (d a b : Opd) (c : CRef)
  | ldStrong (h : Hdr) (scl : BitVec 2) (sc : Scope) (conv : BitVec 5) (d a b : Opd)
  | ldk (h : Hdr) (scl : BitVec 2) (mode : LdMode) (conv : BitVec 5) (d a b : Opd) (c : CRef)
  | st (h : Hdr) (scl : BitVec 2) (acc ns : Bool) (conv : BitVec 5) (a b c : Opd)
  | stStrong (h : Hdr) (scl : BitVec 2) (sc : Scope) (acc ns : Bool) (conv : BitVec 5) (a b c : Opd)
  | stk (h : Hdr) (scl : BitVec 2) (mode : Option Scope) (acc ns : Bool) (conv : BitVec 5) (a b c : Opd)
  | ldh (h : Hdr) (scl : BitVec 2) (conv : BitVec 5) (d a b : Opd)
  | ldhWf (h : Hdr) (scl : BitVec 2) (conv : BitVec 5) (d a b : Opd)
  | ldhWfe (h : Hdr) (scl : BitVec 2) (conv : BitVec 5) (d a b : Opd)
  | sth (h : Hdr) (scl : BitVec 2) (acc : Bool) (conv : BitVec 5) (a b c : Opd)
  | sthSf (h : Hdr) (scl : BitVec 2) (acc : Bool) (conv : BitVec 5) (a b c : Opd)
  | sthWesf (h : Hdr) (scl : BitVec 2) (acc : Bool) (conv : BitVec 5) (a b c : Opd)
  | smap (h : Hdr) (id : BitVec 3) (a b c : Nat)
  | sunmap (h : Hdr) (id : BitVec 3)
  | sflush (h : Hdr) (id : BitVec 3)
  | tpl (h : Hdr) (a : Opd)
  | tplT (h : Hdr)
  | acpt (h : Hdr) (d : Opd)
  | redem (h : Hdr) (d : Opd)
  | pft (h : Hdr) (scl : BitVec 2) (lim : BitVec 4) (lvl : BitVec 2) (line : Bool) (a b : Opd)
  | gath (h : Hdr) (esz : BitVec 2) (d a b c : Nat)
  | scatAddF32 (h : Hdr) (d a b c : Nat)
  | scatAddI32 (h : Hdr) (d a b c : Nat)
  | scatMin (h : Hdr) (d a b c : Nat)
  | scatMax (h : Hdr) (d a b c : Nat)
  | scatOr (h : Hdr) (d a b c : Nat)
  | tclr (h : Hdr)
  -- atomics and synchronisation (R193 to R209)
  | atAdd (h : Hdr) (sc : Scope) (scl ty : BitVec 2) (d a b c : Opd)
  | atMin (h : Hdr) (sc : Scope) (scl ty : BitVec 2) (d a b c : Opd)
  | atMax (h : Hdr) (sc : Scope) (scl ty : BitVec 2) (d a b c : Opd)
  | atAnd (h : Hdr) (sc : Scope) (scl ty : BitVec 2) (d a b c : Opd)
  | atOr (h : Hdr) (sc : Scope) (scl ty : BitVec 2) (d a b c : Opd)
  | atXor (h : Hdr) (sc : Scope) (scl ty : BitVec 2) (d a b c : Opd)
  | atExch (h : Hdr) (sc : Scope) (scl ty : BitVec 2) (d a b c : Opd)
  | atCas (h : Hdr) (sc : Scope) (scl ty : BitVec 2) (d a b c : Opd)
  | redAdd (h : Hdr) (sc : Scope) (scl ty : BitVec 2) (a b c : Opd)
  | redMin (h : Hdr) (sc : Scope) (scl ty : BitVec 2) (a b c : Opd)
  | redMax (h : Hdr) (sc : Scope) (scl ty : BitVec 2) (a b c : Opd)
  | redAnd (h : Hdr) (sc : Scope) (scl ty : BitVec 2) (a b c : Opd)
  | redOr (h : Hdr) (sc : Scope) (scl ty : BitVec 2) (a b c : Opd)
  | redXor (h : Hdr) (sc : Scope) (scl ty : BitVec 2) (a b c : Opd)
  | bind (h : Hdr) (d a b c : Nat)
  | bindUn (h : Hdr) (a : Nat)
  | acq (h : Hdr) (tmo : BitVec 4) (sc : Scope) (a b : Nat)
  | rel (h : Hdr) (sc : Scope) (a : Nat)
  | fence (h : Hdr) (sc : Scope)
  | publ (h : Hdr) (a : Nat)
  -- tarnish (R246 to R250)
  | tld (h : Hdr) (scl : BitVec 2) (conv : BitVec 5) (d a b : Opd)
  | tst (h : Hdr) (scl : BitVec 2) (acc : Bool) (conv : BitVec 5) (a b c : Opd)
  | burn (h : Hdr) (scl : BitVec 2) (a b : Opd)
  | life (h : Hdr) (scl : BitVec 2) (d a b : Opd)
  | tinit (h : Hdr) (scl : BitVec 2) (a b : Opd)
  -- the bench side of the Anvil (R220, R221, R234 to R237)
  | ofill (h : Hdr) (rf ns sb : Bool) (conv : BitVec 5) (d : Nat) (a b c : Opd)
  | ofillAssay (h : Hdr) (d a : Nat) (c : Opd)
  | awset (h : Hdr) (w : BitVec 5) (a b : Nat)
  | accrd (h : Hdr) (d a b : Opd)
  | accrdW (h : Hdr) (d a b : Opd)
  | accwr (h : Hdr) (a b c : Opd)
  | accrel (h : Hdr) (a : Opd)
  -- models, KV caches, prefix table, rings (R241, R242, R262 to R272)
  | lwait (h : Hdr) (tmo : BitVec 4) (d a b : Opd)
  | ldone (h : Hdr) (a b : Opd)
  | lqry (h : Hdr) (d a b : Opd)
  | kvx (h : Hdr) (d : Opd) (a : Nat) (b c : Opd)
  | pfxh (h : Hdr) (d a b : Nat)
  | pfxm (h : Hdr) (d a b : Nat)
  | pfxpPin (h : Hdr) (a b : Nat)
  | pfxpUnpin (h : Hdr) (a b : Nat)
  | pfxpInsert (h : Hdr) (a b c : Nat)
  | wqpop (h : Hdr) (d : Nat)
  | larr (h : Hdr) (sc : Scope) (d a b c : Nat)
  | rnext (h : Hdr) (d a b : Nat)
  -- fabric reductions (R295 to R301, R307)
  | xra (h : Hdr) (op : BitVec 3) (tmo : BitVec 4) (n1 : BitVec 6) (d a b c : Nat)
  | xrc (h : Hdr) (a c : Nat)
  | xrw (h : Hdr) (d a : Nat)
  | xrf (h : Hdr) (a : Nat)
  -- the control core and the array (R212 to R233)
  | oclm (h : Hdr) (d : Nat) (n : BitVec 7)
  | orel (h : Hdr) (a : Nat) (n : BitVec 7)
  | orelRe (h : Hdr) (a : Nat) (n : BitVec 7)
  | owait (h : Hdr) (a : Nat) (n : BitVec 7)
  | mma (h : Hdr) (fmt : BitVec 3) (mx : Bool) (d a b : Nat)
  | mmas (h : Hdr) (pat : BitVec 2) (fmt : BitVec 3) (d a b c : Nat)
  | mmah (h : Hdr) (pv : Bool) (cnt1 : BitVec 6) (bit : BitVec 8) (hr : BitVec 3) (fmt : BitVec 3) (fill mx : Bool) (d a b : Nat)
  | assay (h : Hdr) (bit : BitVec 8) (hr : BitVec 3) (sink loc : Bool) (cnt1 : BitVec 3) (d a b c : Nat)
  | hmopAnd (h : Hdr) (d a b : Nat)
  | hmopOr (h : Hdr) (d a b : Nat)
  | hmopAndn (h : Hdr) (d a b : Nat)
  | hmopSet (h : Hdr) (d : Nat) (lo n1 : BitVec 8)
  | hmopClear (h : Hdr) (d : Nat) (lo n1 : BitVec 8)
  | hmopCount (h : Hdr) (d a : Nat) (lo n1 : BitVec 8)
  | accz (h : Hdr) (a b : Nat)
  | accsig (h : Hdr) (a b : Nat)
  -- pair words, named by their half H0 (R47 to R49)
  | pairNop (sw : Bool) (h1 : Half)
  | pairIadd (sw : Bool) (h0 : HalfArgs) (h1 : Half)
  | pairIsub (sw : Bool) (h0 : HalfArgs) (h1 : Half)
  | pairImul (sw : Bool) (h0 : HalfArgs) (h1 : Half)
  | pairImin (sw : Bool) (h0 : HalfArgs) (h1 : Half)
  | pairImax (sw : Bool) (h0 : HalfArgs) (h1 : Half)
  | pairIminN (sw : Bool) (h0 : HalfArgs) (h1 : Half)
  | pairImaxN (sw : Bool) (h0 : HalfArgs) (h1 : Half)
  | pairAnd (sw : Bool) (h0 : HalfArgs) (h1 : Half)
  | pairOr (sw : Bool) (h0 : HalfArgs) (h1 : Half)
  | pairXor (sw : Bool) (h0 : HalfArgs) (h1 : Half)
  | pairAndn (sw : Bool) (h0 : HalfArgs) (h1 : Half)
  | pairShl (sw : Bool) (h0 : HalfArgs) (h1 : Half)
  | pairShr (sw : Bool) (h0 : HalfArgs) (h1 : Half)
  | pairSar (sw : Bool) (h0 : HalfArgs) (h1 : Half)
  | pairRot (sw : Bool) (h0 : HalfArgs) (h1 : Half)
  | pairMov (sw : Bool) (h0 : HalfArgs) (h1 : Half)
  | pairFadd (sw : Bool) (h0 : HalfArgs) (h1 : Half)
  | pairFsub (sw : Bool) (h0 : HalfArgs) (h1 : Half)
  | pairFmul (sw : Bool) (h0 : HalfArgs) (h1 : Half)
  | pairFmin (sw : Bool) (h0 : HalfArgs) (h1 : Half)
  | pairFmax (sw : Bool) (h0 : HalfArgs) (h1 : Half)
  | pairBadd2 (sw : Bool) (h0 : HalfArgs) (h1 : Half)
  | pairBmul2 (sw : Bool) (h0 : HalfArgs) (h1 : Half)
  | pairBmin2 (sw : Bool) (h0 : HalfArgs) (h1 : Half)
  | pairBmax2 (sw : Bool) (h0 : HalfArgs) (h1 : Half)
  -- events of the hardware, the host and management (95_what_each_step_holds)
  | waitwWake (cl slot id : Nat)
  | waitwTimeout (cl slot id : Nat)
  | longResultWrite (cl slot id : Nat)
  | limitExpiry (cl slot id : Nat)
  | loadReply (cl slot id : Nat) (via : Via)
  | storeMemoryCause (cl slot id : Nat)
  | ldhWake (cl slot id : Nat)
  | sthWake (cl slot id : Nat)
  | gathElementReply (cl slot id elem : Nat)
  | acqWake (cl slot id : Nat)
  | acqTimeout (cl slot id : Nat)
  | relComplete (cl slot id : Nat)
  | fenceComplete (cl slot id : Nat)
  | publComplete (cl slot id : Nat)
  | tarnishExpiry (cl tile : Nat)
  | tarnishTileMap (ctx obj part clu tile : Nat)
  | accrdWWake (cl slot id : Nat)
  | lwaitWake (cl slot id : Nat)
  | lwaitTimeout (cl slot id : Nat)
  | xrwWake (cl slot id : Nat)
  | xraAtHub (src : XrSrc)
  | xrcAtHub (src : XrSrc)
  | xrSlotTimeout (slot : Nat)
  | xrRecordWrite (handle : Word) (dev : Nat) (word0 : Word) (missing : Dword) (elems : List Word)
  | xrfAtHub (src : XrSrc)
  | xrSlotReclaim (slot : Nat)
  | oclmResult (cl id : Nat)
  | orelAct (cl id : Nat)
  | owaitWake (cl id : Nat)
  | anvilOpBegin (cl : Nat)
  | anvilOpCommit (cl : Nat)
  | mmahTileCommit (cl : Nat)
  | warpRetire (cl slot : Nat)
  | trackerEntryFree (cl entry : Nat)
  | workgroupComplete (cl entry : Nat)
  | deviceQueueTake (die ctx : Nat) (idx : Option Nat) (place : Option Place)
  | placementReservation (die idx : Nat)
  | bindRecord (cl entry : Nat)
  | clusterGate (cl : Nat)
  | sliceExpiry (cl entry : Nat)
  | watchdog (cl entry : Nat)
  | preemptRequest (cl entry : Nat)
  | preemptSaveComplete (cl entry iobj ioff : Nat)
  | faultRecordResolve (ctx die idx : Nat) (act : BitVec 2)
  | memoryPortTranslate (cl slot id : Nat)
  | tlbSnoop (pa : Nat) (val : Dword)
  | descriptorSnoop (ctx obj dw : Nat) (val : Dword)
  | migrationRequest (ctx obj page : Nat) (to_ : Home)
  | migrationComplete (ctx obj page pa : Nat)
  | pinWindowExpiry (ctx obj page : Nat)
  | homeSliceRequest (ctx obj off : Nat)
  | scatUpdateAtSlice (cl slot id elem : Nat)
  | ownershipRecall (cl ctx obj word : Nat)
  | peerProbe (cl peer ctx obj sector : Nat)
  | tierRead (addr : Nat)
  | tierWriteback (addr : Nat) (data : List Byte)
  | sprueFetchStart (die : Nat)
  | sprueFetchComplete (ctx model layer : Nat)
  | layerLeaveComplete (ctx model layer : Nat)
  | cwgo (cl slot : Nat) (run : List Nat)
  | registerWrite (cl slot word : Nat) (val : Word)
  | chainEntryTake (die eng chain : Nat)
  | engineNop (die eng src : Nat)
  | engineCopy (die eng src : Nat)
  | engineFill (die eng src : Nat)
  | engineStash (die eng src : Nat)
  | engineSlot (die eng src : Nat)
  | engineLaunch (die eng src : Nat)
  | engineWait (die eng src : Nat)
  | engineWaitWake (die eng src : Nat)
  | engineCommandComplete (die eng src : Nat)
  | portTrain (p dev pod : Nat)
  | flitReplay (p : Nat)
  | portRetrain (p : Nat)
  | retrainComplete (p : Nat) (failed : List Nat)
  | portDown (p : Nat)
  | remoteRequest (peer : Nat) (space : PeerSpace) (obj off : Nat) (acc : OutAcc)
  | hostAccess (ctx obj off : Nat) (acc : OutAcc)
  | clockRatioChange (cl m : Nat) (boost : Option Bool)
  | handshakeEnd (cl : Nat)
  | droopDetect (cl : Nat)
  | droopRelease (cl : Nat)
  | throttleSet (die thr tw : Nat)
  | partRetire (p : Part)
  | lifetimeRecordWrite
  | tarnishRetentionMeasure (at_ : TileAt) (ticks : Nat)
  | attestationRequest (nonce : List Byte)
  | counterRead (unit : Nat) (c : Ctr)
  | counterReadClear (unit : Nat) (c : Ctr)
  | poolCapacitySet (pool bytes : Nat)
  | contextCreate (num table models binds kv fault0 fault1 : Nat)
  | contextEnd (num : Nat)
  | reset
  | schedulingCoreFailure (die : Nat)
  | lossOfPower
  | chainAttach (die eng ctx obj off : Nat)
  deriving DecidableEq, Repr, Inhabited

end Sys2Proof
end

