-- ==== Sys2Proof/Config.lean ====
section
/-! DEFINITION. What the machine is made of and the values that the manual leaves open: the free constants below have no
body, so no proof can rest on a value of theirs (logs 1 and 6). -/

namespace Sys2Proof

/-- Which agent moves next (R38, R340; log 1): an issue of a warp or a control-core stream, an event of hardware, host or
management, or the passing of ticks. -/
inductive Turn where
  | issue (cl slot : Nat)
  | event (i : Instr)
  | pass (ticks : Nat)
  deriving DecidableEq, Repr, Inhabited

/-- A firmware image that a boot finds (R328): which code it is, its version, and whether its signature verifies. -/
structure Firmware where
  code : Nat := 0
  version : Nat := 0
  verified : Bool := false
  deriving DecidableEq, Repr, Inhabited

/-- What a boot finds in flash (R328): the firmware images of the management core, Umailo and the link units; whether the
configuration record's signature verifies, and what the record holds. -/
structure BootRecord where
  core : Firmware := {}
  umailo : Firmware := {}
  link : Firmware := {}
  verified : Bool
  version : Nat
  dev : Nat
  pod : Nat
  hostPort : Option Nat
  mscGiB : Nat
  /-- Retirement thresholds (R323; log 77): droop events of a cluster, ECC events of an HBM stack, retrains of a port. -/
  droops : Nat := 0
  ecc : Nat := 0
  retrains : Nat := 0
  /-- It clears the record of retirements (R322). -/
  clear : Bool
  /-- What else the boot meets (R330; log 27): whether its ROM and flash, the training of memory and the scheduling cores succeed, and
  the ports that have a far end. -/
  rom : Bool := true
  memory : Bool := true
  cores : Bool := true
  linked : List Nat := []
  deriving DecidableEq, Repr, Inhabited

namespace Config

/-- The schedule where the agenda is empty: free (log 1). -/
opaque freeTurn : Nat → Turn

/-- Values that the manual leaves open, one for each number of the counter `frees` (log 6). -/
opaque freeWord : Nat → BitVec 64

/-- The successors of a completed launch in Umailo's edges of its graph, as (object, offset) of their work objects (R275;
log 20). -/
opaque freeEdges : Nat → List (Nat × Nat)

/-- Whether, at a tick, a peer device refuses a request for an object of its table, which is not of this module: for a right, at an
offset, of a number of bytes (R304; log 26). -/
opaque peerRefuses (tick dev robj right off size : Nat) : Bool

/-- The record that a boot finds (R328; log 27). -/
opaque freeBoot : Nat → BootRecord

/-- SHAKE256 of a firmware image, of the configuration record, and of the lifetime records with the retirements (R329;
log 34). -/
opaque firmwareDigest : Firmware → List Byte
opaque recordDigest : BootRecord → List Byte
opaque lifetimeDigest : List (Nat × Nat) → List (Part × Nat × Nat) → List Byte

/-- Channels of the capacity tier, of which R325 gives no number (log 77). -/
opaque tierChannels : Nat

/-- What an attestation report signs with: the private key never leaves the part (R329; log 34). -/
opaque signature : List Byte → List Byte

/-- Clusters of a module: 2 dies of 64 (R1, R3). -/
def clusters : Nat := 128
/-- Clusters of a die. -/
def dieClusters : Nat := 64
/-- Number of the control-core stream among the warps of its cluster; a bench's slot s of bench b is 64·b + s (log 8). -/
def coreSlot : Nat := 256
/-- The home slices of the module and of a die (R168). -/
def slices : Nat := 192
def dieSlices : Nat := 96
/-- Tags of a home slice, and its data entries: of 256 bytes each, 3 MiB in all (R3, R167). -/
def sliceTags : Nat := 24576
def sliceEntries : Nat := 12288
/-- The hash of a context, an object and a line of it, which names the line's home slice (R168; log 101). -/
opaque lineHash : Nat → Nat → Nat → Nat
/-- Bytes of HBM (R3). -/
def hbmBytes : Nat := 640 * 2 ^ 30
/-- Bytes of an HBM pseudo-channel: a stack has 32 (R322). -/
def channelBytes : Nat := hbmBytes / 256
/-- Bytes of the capacity tier (R3). -/
def tierBytes : Nat := 2 ^ 41

end Config

end Sys2Proof
end

