-- ==== Sys2Proof/WellFormed.lean ====
section
/-! DEFINITION. Which instructions an encoding can carry (R39 to R48, R58 to R60 and the chapters): operand kinds and
numbers, even pairs, and the field values that raise ILLEGAL. Events have no encoding. -/

namespace Sys2Proof

/-- The two units that decode words (R59, R60). -/
inductive Core where
  | bench | acc
  deriving DecidableEq, Repr, Inhabited

/-- The register number of an operand, 0 for an immediate. -/
def Opd.num : Opd → Nat
  | .v n => n
  | .vx n => n
  | .k n => n
  | .g n => n
  | .imm _ _ => 0

/-- The v numbers an instruction can name: a field holds eight bits, and the steps of REP add up to 252 (R54). A number
at or above the warp's allocation raises REGINDEX when the word issues, not here (R41). -/
def vNames : Nat := 512

/-- A register operand of the unit, with its number in range (R41, R59). -/
def Opd.regOk (u : Core) : Opd → Bool
  | .v n => u == .bench && decide (n < vNames)
  | .vx n => u == .bench && decide (n < vNames)
  | .k n => u == .bench && decide (n < 64)
  | .g n => u == .acc && decide (n < 32)
  | .imm _ _ => false

def Opd.isIdx : Opd → Bool
  | .vx _ => true
  | _ => false

def Opd.isK : Opd → Bool
  | .k _ => true
  | _ => false

def Opd.isV : Opd → Bool
  | .v _ => true
  | _ => false

/-- A register operand without index (majors that have no XIS). -/
def Opd.plainOk (u : Core) (o : Opd) : Bool := o.regOk u && !o.isIdx

/-- A register or the immediate. -/
def Opd.srcOk (u : Core) : Opd → Bool
  | .imm _ _ => true
  | o => o.regOk u

def Opd.even (o : Opd) : Bool := o.num % 2 == 0

/-- At most one operand is indexed (R44). -/
def oneIdx (l : List Opd) : Bool := decide ((l.filter Opd.isIdx).length ≤ 1)

def wf3 (u : Core) (d a b : Opd) : Bool := d.regOk u && a.regOk u && b.srcOk u && oneIdx [d, a, b]
def wf3r (u : Core) (d a b : Opd) : Bool := d.regOk u && a.regOk u && b.regOk u && oneIdx [d, a, b]
def wf2 (u : Core) (d a : Opd) : Bool := d.regOk u && a.regOk u && oneIdx [d, a]
/-- Three sources: C is never indexed (R44). -/
def wf4 (u : Core) (d a b c : Opd) : Bool := wf3r u d a b && c.plainOk u
def kOk (n : Nat) : Bool := decide (n < 64)
def kPair (n : Nat) : Bool := decide (n < 64) && n % 2 == 0
def gOk (n : Nat) : Bool := decide (n < 32)
def hOk (n : Nat) : Bool := decide (n < 8)
/-- A capability pair: even, v, k or g (R41, R94). -/
def capOk (u : Core) (a : Opd) : Bool := a.plainOk u && a.even

def CRef.ok : CRef → Bool
  | .none => true
  | .v n => decide (n < vNames)
  | .k n => decide (n < 64)

/-- The limit, predictor and C field of a weak load agree (R102, R103). -/
def limOk (lim : BitVec 4) (pred : BitVec 3) (conv : BitVec 5) (c : CRef) : Bool :=
  let guess := pred == 4 || pred == 5
  decide (pred.toNat ≤ 5) && (lim != 0 || pred == 0) && (lim == 0 || conv != 3) &&
  (match c with
   | .none => lim == 0 || (lim != 15 && !guess)
   | .v n => lim == 15 && (!guess || decide (n < 64)) && decide (n < vNames)
   | .k n => ((lim == 15 && !guess) || (lim != 0 && lim != 15 && guess)) && decide (n < 64))

def loadConv (conv : BitVec 5) : Bool := decide (conv.toNat ≤ 0x10)
def storeConv (conv : BitVec 5) : Bool := decide (conv.toNat ≤ 0x0F)
def fp8Conv (conv : BitVec 5) : Bool := conv == 0x09 || conv == 0x0A || conv == 0x0E || conv == 0x0F
def stConv (ns : Bool) (conv : BitVec 5) : Bool := storeConv conv && (!ns || fp8Conv conv)
def b64Even (conv : BitVec 5) (o : Opd) : Bool := conv != 3 || o.even
def tmoOk (t : BitVec 4) : Bool := t != 15

/-- The type of an atomic admits its function, given by FN (R201, R202). -/
def atTyOk (u : Core) (fn : Nat) (ty : BitVec 2) : Bool :=
  (ty != 2 || (u == .bench && (decide (fn ≤ 2) || fn == 6))) && (ty != 3 || !(fn == 1 || fn == 2))

def wfAt (u : Core) (fn : Nat) (ty : BitVec 2) (d a b c : Opd) : Bool :=
  d.plainOk u && capOk u a && b.plainOk u && c.plainOk u && atTyOk u fn ty &&
  (ty != 3 || d.even) && ((ty != 3 && fn != 7) || c.even) && (!(ty == 3 && fn == 7) || c.num % 4 == 0)

def wfRed (fn : Nat) (ty : BitVec 2) (a b c : Opd) : Bool :=
  capOk .bench a && b.plainOk .bench && c.plainOk .bench && atTyOk .bench fn ty && (ty != 3 || c.even)

/-- A k destination of a tarnish word requires a k capability and offset (R249). -/
def tarnDest (d a b : Opd) : Bool := d.plainOk .bench && (!d.isK || (a.isK && b.isK))
def tarnAddr (a b : Opd) : Bool := capOk .bench a && b.plainOk .bench

/-- Special registers of a thread (R66). -/
def Sr.thread : Sr → Bool
  | .repc | .tt | .tpc | .tcause | .taddr | .tlanes => true
  | _ => false
/-- The 64-bit special registers. -/
def Sr.wide : Sr → Bool
  | .tpc | .taddr | .tb => true
  | _ => false
/-- WRSR reaches the register (R66). -/
def Sr.writable : Sr → Bool
  | .awb | .awl | .tt | .tcause | .tlanes | .tb => false
  | _ => true
/-- Marked A in R66. -/
def Sr.onAcc : Sr → Bool
  | .st | .repc | .tvec | .tpc | .tcause | .taddr | .tb => true
  | _ => false

def wfRdsr (u : Core) (d : Opd) (sr : Sr) : Bool :=
  d.plainOk u && (u == .bench || sr.onAcc) && (!d.isK || !sr.thread) && (!sr.wide || d.even)
def wfWrsr (u : Core) (sr : Sr) (a : Opd) : Bool :=
  a.plainOk u && (u == .bench || sr.onAcc) && sr.writable && (sr.thread || !a.isV) && (!sr.wide || a.even)

/-- The halves that act on raw integers, and run on the control core too (R59). -/
def HalfOp.float : HalfOp → Bool
  | .fadd | .fsub | .fmul | .fmin | .fmax | .badd2 | .bmul2 | .bmin2 | .bmax2 => true
  | _ => false

def HalfArgs.ok (u : Core) (x : HalfArgs) : Bool :=
  x.core == (u == .acc) && decide (x.d < if u == .acc then 32 else 256) &&
  (match x.src with
   | .v n => u == .bench && decide (n < 256)
   | .k n => u == .bench && decide (n < 64)
   | .g n => u == .acc && decide (n < 32)
   | .imm _ => true)

/-- The operands a NOP half decodes to: none. -/
def HalfArgs.none (u : Core) : HalfArgs :=
  { core := u == .acc, d := 0, src := if u == .acc then .g 0 else .v 0 }

def Half.ok (u : Core) (x : Half) : Bool :=
  if x.op == .nop then x.args == HalfArgs.none u else x.args.ok u && (u == .bench || !x.op.float)

/-- The second source of `x` is the destination `d` of the other half. -/
def HalfArgs.reads (x : HalfArgs) (d : Nat) : Bool :=
  match x.src with
  | .v n => n == d
  | .g n => n == d
  | _ => false

/-- The bank rule and the read-after rule of R47; a word with a NOP half is free of both. -/
def pairOk (u : Core) (op0 : HalfOp) (h0 : HalfArgs) (h1 : Half) : Bool :=
  Half.ok u { op := op0, args := h0 } && h1.ok u &&
  (op0 == .nop || h1.op == .nop || (h0.d % 4 != h1.args.d % 4 && !h1.args.reads h0.d))

/-- The instruction can be encoded for unit `u`. Every event answers false: it has no word. -/
def wf (u : Core) : Instr → Bool
  | .nop _ | .bra _ _ | .brc _ _ false _ | .exit _ | .yield _ | .trap _ _ | .tretReplay _ | .tretResume _ => true
  | .brc _ _ true _ => u == .bench
  | .rep _ _ _ _ _ _ => true
  | .jmpi _ a | .ret _ a => a.plainOk u
  | .call _ d _ => d.plainOk u && !d.isK
  | .join _ _ | .tail _ | .barArriveWait _ _ | .barArrive _ _ | .barWait _ _ => u == .bench
  | .waitw _ _ d a b c tmo _ _ => d.plainOk u && capOk u a && b.plainOk u && c.plainOk u && tmoOk tmo
  | .rdsr _ d sr => wfRdsr u d sr
  | .wrsr _ sr a => wfWrsr u sr a
  | .ems _ n | .eml _ _ n | .cms _ _ n | .cml _ _ n | .cmx _ _ n => u == .bench && kOk n
  | .ema _ _ | .emn _ _ | .emo _ _ => u == .bench
  | .part _ sz => u == .bench && decide (1 ≤ sz.toNat) && decide (sz.toNat ≤ 5)
  | .xiset _ (.imm _) => u == .bench
  | .xiset _ (.k n) => u == .bench && kOk n
  | .lnch _ a | .wcan _ _ a => u == .bench && kPair a
  | .movwWrite _ w k | .movwRead _ k w => u == .bench && decide (w < 16) && kOk k
  | .iadd _ d a b | .iaddc _ d a b | .isub _ d a b | .isubb _ d a b | .imul _ d a b | .imulh _ d a b
  | .imulhN _ d a b | .imin _ _ d a b | .imax _ _ d a b | .idiv _ d a b | .idivN _ d a b | .irem _ d a b
  | .iremN _ d a b | .and _ d a b | .or _ d a b | .xor _ d a b | .andn _ d a b | .shl _ d a b | .shr _ d a b
  | .sar _ d a b | .rot _ d a b | .bfx _ _ d a b => wf3 u d a b
  | .sel _ d a b => wf3r u d a b
  | .imad _ d a b c | .bfi _ d a b c | .selZ _ d a b c => wf4 u d a b c
  | .iabs _ d a | .ineg _ d a | .not _ d a | .popc _ d a | .clz _ d a | .brev _ d a | .mov _ d a => wf2 u d a
  | .iset _ _ none a b => a.regOk u && b.srcOk u && oneIdx [a, b]
  | .iset _ _ (some d) a b => wf3 u d a b
  | .movi _ d tag _ => d.plainOk u && tag != 3
  | .retag _ tag d a => wf2 u d a && tag != 3
  | .cadd _ d a b => wf3 u d a b && d.even && a.even
  | .cmk _ d a => wf2 u d a && d.even
  | .clen _ d a => wf2 u d a && d.even && a.even
  | .crst _ d a b => wf3r u d a b && d.even && a.even
  | .fadd _ _ d a b | .fsub _ _ d a b | .fmul _ _ d a b | .fmin _ d a b | .fmax _ d a b | .fminm _ d a b
  | .fmaxm _ d a b | .fpk _ _ d a b | .badd2 _ _ d a b | .bmul2 _ _ d a b | .bmin2 _ d a b | .bmax2 _ d a b
  | .rota _ d a b | .fdiv _ _ d a b => u == .bench && wf3r u d a b
  | .ffma _ _ d a b c | .bfma2 _ _ d a b c => u == .bench && wf4 u d a b c
  | .fset _ _ none a b => u == .bench && a.regOk u && b.regOk u && oneIdx [a, b]
  | .fset _ _ (some d) a b => u == .bench && wf3r u d a b
  | .fclass _ d a | .frnd _ _ _ d a | .f2i _ _ _ d a | .i2f _ _ _ d a | .fupk _ _ d a | .frcp _ d a | .frsq _ d a
  | .fsqrt _ d a | .fexp2 _ d a | .flog2 _ d a | .fsint _ d a | .fcost _ d a | .ftanh _ d a => u == .bench && wf2 u d a
  | .ftwos _ d a b | .ftwop _ d a b => u == .bench && wf3r u d a b && d.even
  | .shflIdx _ d a b | .shflUp _ d a b | .shflDown _ d a b | .shflXor _ d a b =>
    u == .bench && wf3r u d a b && !d.isK && !a.isK
  | .pswp _ _ d a => u == .bench && wf2 u d a && !d.isK && !a.isK
  | .voteAny _ _ d a | .voteAll _ _ d a | .voteBallot _ d a => u == .bench && wf2 u d a && !a.isK
  | .reduxAddI32 _ d a | .reduxAddF32 _ d a | .reduxMin _ d a | .reduxMax _ d a | .reduxMinN _ d a | .reduxMaxN _ d a
  | .reduxFmin _ d a | .reduxFmax _ d a | .reduxAnd _ d a | .reduxOr _ d a | .reduxXor _ d a =>
    u == .bench && wf2 u d a && !a.isK
  | .scan _ _ _ d a => u == .bench && wf2 u d a && !d.isK && !a.isK
  | .rdln _ _ d => u == .bench && d.regOk u && !d.isK
  | .ld _ _ lim pred conv d a b c =>
    u == .bench && d.isV && d.plainOk u && capOk u a && b.plainOk u && loadConv conv && limOk lim pred conv c && b64Even conv d
  | .ldStrong _ _ _ conv d a b =>
    u == .bench && d.isV && d.plainOk u && capOk u a && b.plainOk u && loadConv conv && b64Even conv d
  | .ldk _ _ mode conv d a b c =>
    d.plainOk u && capOk u a && b.plainOk u && b64Even conv d && !d.isV && !a.isV && !b.isV &&
    (match u with
     | .bench => loadConv conv
     | .acc => decide (conv.toNat ≤ 7)) &&
    (match mode with
     | .strong _ => c == .none
     | .weak lim pred =>
       match u with
       | .acc => lim == 0 && pred == 0 && c == .none
       | .bench => limOk lim pred conv c && !(pred == 3) && !(pred == 5) && !(lim == 15 && pred == 4) &&
           (match c with
            | .v _ => false
            | _ => true))
  | .st _ _ _ ns conv a b c | .stStrong _ _ _ _ ns conv a b c =>
    u == .bench && capOk u a && b.plainOk u && c.plainOk u && stConv ns conv && b64Even conv c
  | .stk _ _ _ _ ns conv a b c =>
    capOk u a && b.plainOk u && c.plainOk u && b64Even conv c && !a.isV && !b.isV && !c.isV &&
    (match u with
     | .bench => stConv ns conv
     | .acc => !ns && decide (conv.toNat ≤ 7))
  | .ldh _ _ conv d a b | .ldhWf _ _ conv d a b | .ldhWfe _ _ conv d a b =>
    u == .bench && d.isV && d.plainOk u && capOk u a && b.plainOk u && decide (conv.toNat ≤ 3) && b64Even conv d
  | .sth _ _ _ conv a b c | .sthSf _ _ _ conv a b c | .sthWesf _ _ _ conv a b c =>
    u == .bench && capOk u a && b.plainOk u && c.plainOk u && decide (conv.toNat ≤ 3) && b64Even conv c
  | .smap _ _ a b c => u == .bench && kPair a && kOk b && kOk c
  | .sunmap _ _ | .sflush _ _ | .tplT _ | .tclr _ => u == .bench
  | .tpl _ a => u == .bench && a.plainOk u
  | .acpt _ d | .redem _ d => u == .bench && d.plainOk u
  | .pft _ _ lim lvl _ a b => u == .bench && capOk u a && b.plainOk u && lim != 15 && lvl != 3
  | .gath _ _ d a b c | .scatAddF32 _ d a b c | .scatAddI32 _ d a b c | .scatMin _ d a b c | .scatMax _ d a b c
  | .scatOr _ d a b c => u == .bench && kOk d && kPair a && kOk b && kOk c
  | .atAdd _ _ _ ty d a b c => wfAt u 0 ty d a b c
  | .atMin _ _ _ ty d a b c => wfAt u 1 ty d a b c
  | .atMax _ _ _ ty d a b c => wfAt u 2 ty d a b c
  | .atAnd _ _ _ ty d a b c => wfAt u 3 ty d a b c
  | .atOr _ _ _ ty d a b c => wfAt u 4 ty d a b c
  | .atXor _ _ _ ty d a b c => wfAt u 5 ty d a b c
  | .atExch _ _ _ ty d a b c => wfAt u 6 ty d a b c
  | .atCas _ _ _ ty d a b c => wfAt u 7 ty d a b c
  | .redAdd _ _ _ ty a b c => u == .bench && wfRed 0 ty a b c
  | .redMin _ _ _ ty a b c => u == .bench && wfRed 1 ty a b c
  | .redMax _ _ _ ty a b c => u == .bench && wfRed 2 ty a b c
  | .redAnd _ _ _ ty a b c => u == .bench && wfRed 3 ty a b c
  | .redOr _ _ _ ty a b c => u == .bench && wfRed 4 ty a b c
  | .redXor _ _ _ ty a b c => u == .bench && wfRed 5 ty a b c
  | .bind _ d a b c => u == .bench && kOk d && kPair a && kPair b && kOk c
  | .bindUn _ a => u == .bench && kOk a
  | .acq _ tmo _ a b => u == .bench && kPair a && kOk b && tmoOk tmo
  | .rel _ _ a | .publ _ a => u == .bench && kPair a
  | .fence _ _ => u == .bench
  | .tld _ _ conv d a b => u == .bench && tarnDest d a b && tarnAddr a b && decide (conv.toNat ≤ 2)
  | .tst _ _ _ conv a b c => u == .bench && tarnAddr a b && c.plainOk .bench && decide (conv.toNat ≤ 2)
  | .burn _ _ a b | .tinit _ _ a b => u == .bench && tarnAddr a b
  | .life _ _ d a b => u == .bench && tarnDest d a b && tarnAddr a b
  | .ofill _ _ ns _ conv d a b c =>
    u == .bench && kOk d && a.plainOk u && b.plainOk u && c.plainOk u && stConv ns conv && conv != 3
  | .ofillAssay _ d a c => u == .bench && kOk d && kOk a && c.plainOk u
  | .awset _ _ a b => u == .bench && kOk a && kOk b
  | .accrd _ d a b | .accrdW _ d a b => u == .bench && d.plainOk u && a.plainOk u && b.plainOk u
  | .accwr _ a b c => u == .bench && a.plainOk u && b.plainOk u && c.plainOk u
  | .accrel _ a => u == .bench && a.plainOk u
  | .lwait _ tmo d a b => d.plainOk u && a.plainOk u && b.plainOk u && d.even && tmoOk tmo && !d.isV && !a.isV && !b.isV
  | .ldone _ a b => a.plainOk u && b.plainOk u && !a.isV && !b.isV
  | .lqry _ d a b => d.plainOk u && a.plainOk u && b.plainOk u && !d.isV && !a.isV && !b.isV
  | .kvx _ d a b c => u == .bench && d.plainOk u && d.even && kPair a && b.plainOk u && c.plainOk u
  | .pfxh _ d a b => u == .bench && kPair d && kPair a && kPair b
  | .pfxm _ d a b => u == .bench && kPair d && kOk a && kPair b
  | .pfxpPin _ a b | .pfxpUnpin _ a b => u == .bench && kOk a && kPair b
  | .pfxpInsert _ a b c => u == .bench && kOk a && kPair b && kPair c
  | .wqpop _ d => u == .bench && kPair d
  | .larr _ _ d a b c => u == .bench && kOk d && kPair a && kPair b && kOk c
  | .rnext _ d a b => u == .bench && kPair d && kPair a && kOk b
  | .xra _ op tmo _ d a b c => u == .bench && decide (op.toNat ≤ 4) && tmoOk tmo && kOk d && kOk a && kPair b && kPair c
  | .xrc _ a c => u == .bench && kOk a && decide (c < vNames)
  | .xrw _ d a => u == .bench && kOk d && kOk a
  | .xrf _ a => u == .bench && kOk a
  | .oclm _ d n => u == .acc && gOk d && decide (1 ≤ n.toNat) && decide (n.toNat ≤ 64)
  | .orel _ a n | .orelRe _ a n | .owait _ a n => u == .acc && gOk a && decide (1 ≤ n.toNat) && decide (n.toNat ≤ 64)
  | .mma _ fmt mx d a b => u == .acc && gOk d && gOk a && gOk b && fmt != 7 && !(mx && fmt == 0)
  | .mmas _ pat fmt d a b c => u == .acc && gOk d && gOk a && gOk b && gOk c && fmt != 7 && pat != 3
  | .mmah _ pv cnt1 bit _ fmt fill mx d a b =>
    u == .acc && gOk d && gOk a && gOk b && fmt != 7 && !(mx && fmt == 0) && !(fill && pv) &&
    decide (bit.toNat + cnt1.toNat + 1 ≤ 256)
  | .assay _ bit _ _ _ cnt1 d a b c =>
    u == .acc && gOk d && gOk a && gOk b && gOk c && decide (bit.toNat + cnt1.toNat + 1 ≤ 256)
  | .hmopAnd _ d a b | .hmopOr _ d a b | .hmopAndn _ d a b => u == .acc && hOk d && hOk a && hOk b
  | .hmopSet _ d lo n1 | .hmopClear _ d lo n1 => u == .acc && hOk d && decide (lo.toNat + n1.toNat + 1 ≤ 256)
  | .hmopCount _ d a lo n1 => u == .acc && gOk d && hOk a && decide (lo.toNat + n1.toNat + 1 ≤ 256)
  | .accz _ a b | .accsig _ a b => u == .acc && gOk a && gOk b
  | .pairNop _ h1 => pairOk u .nop (HalfArgs.none u) h1
  | .pairIadd _ h0 h1 => pairOk u .iadd h0 h1
  | .pairIsub _ h0 h1 => pairOk u .isub h0 h1
  | .pairImul _ h0 h1 => pairOk u .imul h0 h1
  | .pairImin _ h0 h1 => pairOk u .imin h0 h1
  | .pairImax _ h0 h1 => pairOk u .imax h0 h1
  | .pairIminN _ h0 h1 => pairOk u .iminN h0 h1
  | .pairImaxN _ h0 h1 => pairOk u .imaxN h0 h1
  | .pairAnd _ h0 h1 => pairOk u .and h0 h1
  | .pairOr _ h0 h1 => pairOk u .or h0 h1
  | .pairXor _ h0 h1 => pairOk u .xor h0 h1
  | .pairAndn _ h0 h1 => pairOk u .andn h0 h1
  | .pairShl _ h0 h1 => pairOk u .shl h0 h1
  | .pairShr _ h0 h1 => pairOk u .shr h0 h1
  | .pairSar _ h0 h1 => pairOk u .sar h0 h1
  | .pairRot _ h0 h1 => pairOk u .rot h0 h1
  | .pairMov _ h0 h1 => pairOk u .mov h0 h1
  | .pairFadd _ h0 h1 => pairOk u .fadd h0 h1
  | .pairFsub _ h0 h1 => pairOk u .fsub h0 h1
  | .pairFmul _ h0 h1 => pairOk u .fmul h0 h1
  | .pairFmin _ h0 h1 => pairOk u .fmin h0 h1
  | .pairFmax _ h0 h1 => pairOk u .fmax h0 h1
  | .pairBadd2 _ h0 h1 => pairOk u .badd2 h0 h1
  | .pairBmul2 _ h0 h1 => pairOk u .bmul2 h0 h1
  | .pairBmin2 _ h0 h1 => pairOk u .bmin2 h0 h1
  | .pairBmax2 _ h0 h1 => pairOk u .bmax2 h0 h1
  -- events
  | .waitwWake .. | .waitwTimeout .. | .longResultWrite .. | .limitExpiry .. | .loadReply .. | .storeMemoryCause ..
  | .ldhWake .. | .sthWake .. | .gathElementReply .. | .acqWake .. | .acqTimeout .. | .relComplete .. | .fenceComplete ..
  | .publComplete .. | .tarnishExpiry .. | .tarnishTileMap .. | .accrdWWake .. | .lwaitWake .. | .lwaitTimeout ..
  | .xrwWake .. | .xraAtHub .. | .xrcAtHub .. | .xrSlotTimeout .. | .xrRecordWrite .. | .xrfAtHub .. | .xrSlotReclaim ..
  | .oclmResult .. | .orelAct .. | .owaitWake .. | .anvilOpBegin .. | .anvilOpCommit .. | .mmahTileCommit ..
  | .warpRetire .. | .trackerEntryFree .. | .workgroupComplete .. | .deviceQueueTake .. | .placementReservation ..
  | .bindRecord .. | .clusterGate .. | .sliceExpiry .. | .watchdog .. | .preemptRequest .. | .preemptSaveComplete ..
  | .faultRecordResolve .. | .memoryPortTranslate .. | .tlbSnoop .. | .descriptorSnoop .. | .migrationRequest ..
  | .migrationComplete .. | .pinWindowExpiry .. | .homeSliceRequest .. | .scatUpdateAtSlice .. | .ownershipRecall ..
  | .peerProbe .. | .tierRead .. | .tierWriteback .. | .sprueFetchStart .. | .sprueFetchComplete ..
  | .layerLeaveComplete .. | .cwgo .. | .registerWrite .. | .chainEntryTake .. | .engineNop .. | .engineCopy ..
  | .engineFill .. | .engineStash .. | .engineSlot .. | .engineLaunch .. | .engineWait .. | .engineWaitWake ..
  | .engineCommandComplete .. | .portTrain .. | .flitReplay .. | .portRetrain .. | .retrainComplete .. | .portDown ..
  | .remoteRequest .. | .hostAccess .. | .clockRatioChange .. | .handshakeEnd .. | .droopDetect .. | .droopRelease ..
  | .throttleSet .. | .partRetire .. | .lifetimeRecordWrite | .tarnishRetentionMeasure .. | .attestationRequest ..
  | .counterRead .. | .counterReadClear .. | .poolCapacitySet .. | .contextCreate .. | .contextEnd .. | .reset
  | .schedulingCoreFailure .. | .lossOfPower | .chainAttach .. => false

end Sys2Proof
end

