-- ==== Sys2Proof/Machine/State.lean ====
section
/-! DEFINITION. The state of a module: everything the manual gives the machine to hold, as plain data, and the state
right after reset (R330). Tables are sparse: an entry not listed has the default of its kind. -/

namespace Sys2Proof.Machine

/-- No step of the model stops with a fault: every cause of R288 is a next state, in which a handler is entered, a thread
waits or a workgroup parks. Nobody raises a value of this type (it has none), so it is safe. -/
inductive Fault where
  deriving DecidableEq, Repr

/-- Why a step has no meaning. -/
inductive Refusal where
  /-- Raised by an arm of `exec` whose instruction has no meaning yet; safe: nothing can be proved of such a step. -/
  | notModelled (mnemonic : String)
  deriving DecidableEq, Repr

/-! ### Registers -/

/-- One lane of a v register, a k register or a w register: data, tag, plate (R63), and the pending bit of R50. On the
control core only data and the pending bit are used. -/
structure Reg where
  data : Word := 0
  /-- 0 raw integer, 1 FP32, 2 BF16 pair, 3 void (R63). -/
  tag : BitVec 2 := 3
  plate : Bool := false
  pend : Bool := false
  deriving DecidableEq, Repr, Inhabited

/-- The states of a PC-table entry (R22). -/
inductive TState where
  | ready | switch | fault | join | bar | wait | track | exited
  deriving DecidableEq, Repr, Inhabited

/-- A cause found at memory that its thread has not taken yet (R100, R110). -/
structure Deferred where
  cause : Byte
  addr : Dword
  /-- The register a load was for: true for a k register, and its number; none for a store. -/
  reg : Option (Bool × Nat) := none
  /-- The register is the even one of a pair. -/
  wide : Bool := false
  /-- The word wrote CM too (R307). -/
  cm : Bool := false
  /-- The load's own PC, when the switch marker was on the load. -/
  atPc : Option (BitVec 40) := none
  deriving DecidableEq, Repr, Inhabited

/-- A thread: its PC-table entry (R22) and its special registers (R66). -/
structure Thread where
  st : TState := .exited
  age : Nat := 0
  jt : Bool := false
  bid : BitVec 4 := 0
  pc : BitVec 40 := 0
  repc : Word := 0
  tt : Bool := false
  tpc : Dword := 0
  tcause : Word := 0
  taddr : Dword := 0
  tlanes : Word := 0
  /-- The generation of the last arrival at each barrier; none listed: it never arrived (R29). -/
  gens : Tab Nat := []
  /-- The word the thread waits in carried the switch marker (R52). -/
  marked : Bool := false
  deferred : List Deferred := []
  /-- In FAULT at a word that names these registers, (is k, number), which the memory port holds (R110). -/
  atPort : List (Bool × Nat) := []
  deriving DecidableEq, Repr, Inhabited

/-! ### Work of a warp that is not finished (R31, R50) -/

/-- A descriptor of the object table (R161). KIND 8 stands for the stash (R163). -/
structure Desc where
  valid : Bool := false
  kind : Nat := 0
  rights : Nat := 0
  home : Nat := 0
  pg : Nat := 0
  plc : Nat := 0
  migp : Nat := 0
  len : Nat := 0
  xlist : Nat := 0
  shadow : Nat := 0
  robj : Nat := 0
  peer : Nat := 0
  gen : Nat := 0
  deriving DecidableEq, Repr, Inhabited

/-- Where a long result goes. -/
inductive Dst where
  | v (n : Nat)
  | k (n : Nat)
  | cm
  | h (n : Nat)
  deriving DecidableEq, Repr, Inhabited

/-- One register, CM or CPM write of a long result: for CM, bit 0 of `val` and `plate` for CPM. -/
structure LWrite where
  t : Nat
  dst : Dst
  val : Word
  tag : BitVec 2 := 0
  plate : Bool := false
  deriving DecidableEq, Repr, Inhabited

/-- A long result on its way: the writes that will be made (R50). -/
structure Long where
  id : Nat
  writes : List LWrite
  /-- Flags that reach ST with it (R146). -/
  flags : Word := 0
  /-- It comes from outside the cluster (R321). -/
  remote : Bool := false
  deriving DecidableEq, Repr, Inhabited

/-- The lane of a load in flight (R99). -/
structure Load where
  id : Nat
  /-- The issue it belongs to. -/
  group : Nat
  t : Nat
  /-- The threads that take a cause of it: the lane's own, or the run's active threads under LDK. -/
  threads : List Nat
  k : Bool
  reg : Nat
  obj : Nat
  off : Nat
  conv : Nat
  strong : Option Scope := none
  taint : Bool := false
  limit : Nat := 0
  /-- The cycle in which the request leaves the lane (R20), and the tick at which that cycle begins. -/
  leave : Nat := 0
  t0 : Nat := 0
  pred : Nat := 0
  guessK : Word := 0
  pc : BitVec 40 := 0
  /-- PC of the word itself: in a repeat, of the repeated word. -/
  wpc : BitVec 40 := 0
  marked : Bool := false
  /-- What the load read, where it was performed before its reply (R13; log 15). -/
  fixed : Option Dword := none
  settled : Bool := false
  ticket : Option Nat := none
  guess : Word := 0
  /-- The converted reply and its tick, when a reply settled the lane. -/
  reply : Option (Word × Nat) := none
  finished : Bool := false
  /-- The descriptor that it was checked against, where the object's entry has changed since (R164). -/
  old : Option Desc := none
  /-- The port to its device went down while it was on its way (R305). -/
  lost : Bool := false
  /-- A fault of the memory port holds it (R110, R165), and the address of its KIND 0 record, 0 for none; a record that
  waits for room in its ring has a number from `heldFrom` on (R290). -/
  posted : Bool := false
  recAt : Nat := 0
  deriving DecidableEq, Repr, Inhabited

/-- What a request other than a load does where it is performed. -/
inductive ReqOp where
  /-- A store: its bytes (R100). -/
  | store (bytes : List Byte)
  /-- AT and RED (R203, R204): FN, TY, the operand, the new value of `.cas`, where the old value goes. -/
  | atom (fn ty : Nat) (x y : Dword) (dst : Option Dst)
  /-- An LDH: `q` 0 plain, 1 `.wf`, 2 `.wfe` (R178). -/
  | ldh (conv : Nat) (dst : Dst) (q : Nat)
  /-- An STH: `q` 0 plain, 1 `.sf`, 2 `.wesf` (R178). -/
  | sth (bytes : List Byte) (q : Nat)
  /-- An element of a GATH: its place in the stash (R181); `mute` where a cause keeps its granule empty. -/
  | gath (dest : Nat) (elem : Nat) (mute : Bool)
  /-- An update of a SCAT (R182). -/
  | scat (fn : Nat) (y : Word) (elem : Nat)
  /-- The write-back of a word by SFLUSH or SUNMAP, which waits for its page (R176). -/
  | back
  /-- A store that met a cause (R100). -/
  | failed (cause : Byte)
  /-- An ACCRD.w lane (R236). -/
  | accrd (row col : Nat) (dst : Dst)
  /-- An ACCREL that earlier reads of the row hold back (R231). -/
  | accrel (row : Nat)
  /-- A tarnish access (R250): the kind 0 TLD, 1 TST, 2 BURN, 3 LIFE, 4 TINIT; its data; where its result goes. -/
  | tarn (kind conv : Nat) (y : Word) (dst : Option Dst)
  /-- A KVX lane (R264): position, stride, and the directory entry once it is read. -/
  | kvx (pos stride : Word) (first : Option Dword) (dst : Dst)
  /-- A PFXH (R265): the previous hash. -/
  | pfxh (prev : Dword) (dst : Dst)
  | wqpop (dst : Dst)
  /-- An LARR (R269): the region's object, offset and length. -/
  | larr (robj roff len : Nat) (dst : Dst)
  /-- An RNEXT (R272): the index it starts from, the count once it is read, and the step it is at. -/
  | rnext (b : Word) (count : Option Nat) (i : Nat) (dst : Dst)
  /-- A message of an XRA, an XRC or an XRF, with its number and, for an XRA, the result capability (R296). -/
  | xr (no : Nat) (m : XrMsg) (cap : Dword) (dst : Option Dst)
  deriving DecidableEq, Repr, Inhabited

/-- A request in flight for thread `t`. -/
structure Req where
  id : Nat
  t : Nat
  /-- The threads that take a cause of it. -/
  threads : List Nat
  obj : Nat
  off : Nat
  size : Nat
  strong : Option Scope := none
  taint : Bool := false
  op : ReqOp
  /-- The threads that were tainted as it issued. -/
  tts : Word := 0
  pc : BitVec 40 := 0
  marked : Bool := false
  /-- The issue it belongs to. -/
  group : Nat := 0
  /-- The cycle in which the request leaves the lane (R20). -/
  leave : Nat := 0
  /-- A tick before which it is not performed: one after that of another lane of its run (R251). -/
  after : Nat := 0
  /-- As for a load. -/
  old : Option Desc := none
  lost : Bool := false
  posted : Bool := false
  recAt : Nat := 0
  /-- Its word, of a request that a save withdraws (R291). -/
  word : Nat := 0
  deriving DecidableEq, Repr, Inhabited

/-- Who issued an engine command: a warp by CWGO, with the command's number in the cluster, or a chain. -/
inductive CmdBy where
  | window (cl slot id : Nat)
  | chain (n : Nat)
  deriving DecidableEq, Repr, Inhabited

/-- An engine command (R310), with the registers that CWGO named as they stood (R316). -/
structure Cmd where
  ctx : Nat
  op : Nat
  defer : Bool := false
  sb : Bool := false
  len : Nat := 0
  src : Dword := 0
  dst : Dword := 0
  /-- FILL: the pattern. WAIT: the target. SLOT: the handle. -/
  aux : Word := 0
  row0 : Nat := 0
  rows : Nat := 0
  /-- The capability of the sequence record. -/
  seq : Dword := 0
  host : Bool := false
  /-- The slot-table entry of the issuing workgroup. -/
  entry : Nat := 0
  by_ : CmdBy
  /-- It has begun; what is done of it, in bytes or rows; its effect is performed; a pending shadow has held it back. -/
  began : Bool := false
  moved : Nat := 0
  performed : Bool := false
  held : Bool := false
  /-- It has failed: with which cause, at which address. -/
  failed : Bool := false
  cause : Byte := 0
  addr : Dword := 0
  deriving DecidableEq, Repr, Inhabited

/-- What the link unit of the module keeps for a slot this module joined (R297): where the record goes. -/
structure XrJoin where
  handle : Word
  ctx : Nat
  obj : Nat
  off : Nat
  n : Nat
  op : Nat
  deriving DecidableEq, Repr, Inhabited

/-- What threads in state WAIT wait for (R22, R87, R118, R196, R197, R199, R209, R241, R299), and words of the control
core that wait in issue or are parked (R218, R219). -/
inductive WaitFor where
  /-- WAITW: the compare value and destination of each thread. -/
  | waitw (cond : WCond) (sc : Scope) (tmo obj off : Nat) (cmp : Word) (dst : Dst)
  | redem (k : Bool) (reg : Nat)
  | acq (sc : Scope) (tmo obj off : Nat) (target : Word)
  | rel (sc : Scope) (obj off : Nat)
  | fence (sc : Scope)
  | publ (obj : Nat)
  | lwait (tmo model layer : Nat) (dst : Dst)
  /-- XRW: the join whose record it waits for, as it stood when the wait began (R299). -/
  | xrw (join : XrJoin) (dst : Dst)
  | owait (handle : Word) (n : Nat)
  | orel (handle : Word) (n : Nat) (re : Bool)
  /-- A CWGO that waits for room, or for its release (R316). -/
  | cwgo (cmd : Cmd) (rel : Bool)
  deriving DecidableEq, Repr, Inhabited

/-- A wait: the threads that leave it together, since which tick and cycle (the one in which its thread has its lane
cycle, R20), at which word, and in a repeat the REPC of a thread that meets a cause in it (R55). -/
structure Wait where
  id : Nat
  threads : List Nat
  why : WaitFor
  leave : Nat := 0
  t0 : Nat := 0
  pc : BitVec 40 := 0
  repc : Option Word := none
  /-- The port to its hub went down while it waited (R307). -/
  lost : Bool := false
  /-- The descriptor that it was checked against, where the object's entry has changed since (R164). -/
  old : Option Desc := none
  posted : Bool := false
  recAt : Nat := 0
  /-- Its word; in a repeat the REP word (R55). -/
  word : Nat := 0
  deriving DecidableEq, Repr, Inhabited

/-- A request that a save has withdrawn, to be issued again before any other issue of its warp (R291 to R293): its word and the word's
PC, its threads, whether they have gone on from the word, and since when it waits. -/
structure Redo where
  word : Nat
  pc : BitVec 40
  threads : List Nat
  lanes : Bool
  t0 : Nat := 0
  deriving DecidableEq, Repr, Inhabited

/-- A plate ticket (R108). -/
structure Ticket where
  valid : Bool := false
  k : Bool := false
  reg : Nat := 0
  conv : Nat := 0
  arrived : Word := 0
  lanes : Word := 0
  failed : Word := 0
  value : Tab Word := []
  deriving DecidableEq, Repr, Inhabited

/-- A repeat in progress (R54, R55): its threads, the word repeated, the repeat to do next and the last. -/
structure Rep where
  threads : List Nat
  /-- PC of the REP word. -/
  pc : BitVec 40
  next : Nat
  cnt : Nat
  sd : BitVec 2
  sa : BitVec 2
  sb : BitVec 2
  sc : BitVec 2
  /-- The REP word. -/
  word : Nat := 0
  deriving DecidableEq, Repr, Inhabited

/-- A hold on a layer (R243). -/
structure Hold where
  model : Nat
  layer : Nat
  live : Bool
  deriving DecidableEq, Repr, Inhabited

/-- A warp in its slot, or the control-core stream of its cluster (R18, R62, R211; log 8). -/
structure Warp where
  unit : Core := .bench
  /-- The slot-table entry of its workgroup. -/
  entry : Nat := 0
  /-- Its number in the workgroup (R16). -/
  num : Nat := 0
  /-- Registers per thread (R19). -/
  alloc : Nat := 0
  /-- v registers, keyed 32·register + thread. -/
  v : Tab Reg := []
  /-- k registers, or the g registers of the control core. -/
  k : Tab Reg := []
  h : Tab (BitVec 256) := []
  hPend : BitVec 8 := 0
  em : Word := 0
  cm : Word := 0
  cpm : Word := 0
  pt : Word := 5
  xi : Word := 0
  sr : Word := 0
  /-- The cycle in which long results last brought flags to ST, and the flags they brought in it (R146). -/
  flagAt : Nat := 0
  flagNow : Word := 0
  awb : Word := 0
  awl : Word := 0
  /-- The last AWSET, seen from the next cycle on: its cycle, the number of the warp that issued it, base, limit (R234). -/
  awNew : Option (Nat × Nat × Word × Word) := none
  tvec : Word := 0
  /-- Pending bit of CM of each thread (R50). -/
  cmPend : Word := 0
  threads : Tab Thread := []
  tickets : Tab Ticket := []
  /-- Tickets that were free at the start of the tick (R107). -/
  free0 : BitVec 8 := 0xFF
  rep : Option Rep := none
  loads : List Load := []
  longs : List Long := []
  reqs : List Req := []
  waits : List Wait := []
  /-- Withdrawn requests of a restored warp, in the order in which they are issued again (R293). -/
  redo : List Redo := []
  /-- CW0 to CW3 (R315). -/
  cw : Tab Word := []
  holds : List Hold := []
  /-- Stores to CW0 to CW3 not performed yet, as (word, value) (R317). -/
  winQ : List (Nat × Word) := []
  /-- Numbers of its engine commands that have not ended (R31, R316). -/
  cmds : List Nat := []
  nextId : Nat := 0
  /-- The tick after that of the last run started (R285), and the ticks for which it has held a ready thread since (R36). -/
  lastRun : Nat := 0
  waited : Nat := 0
  /-- The KIND 0 record of a fetch, or of a word that stays in issue, whose page is not present (R165), 0 for none. -/
  fetchRec : Nat := 0
  /-- Retired, but its slot is held until its work is performed (R31). -/
  retiring : Bool := false
  /-- For an entry of the retirement tracker: the slot that the warp left (R32). -/
  left : Nat := 0
  /-- Set only on the copy of a warp with which an access is performed: the descriptor that it was checked against (R164). -/
  under : Option Desc := none
  /-- Likewise: the right that the access needs of a peer's entry (R304): 8 RD, 4 WR, 2 AM. -/
  wants : Nat := 8
  deriving DecidableEq, Repr, Inhabited

/-- A barrier of a workgroup (R29): its generation; who has arrived in it, as 32·slot + thread; the cycle in which the last
generation completed; and the accesses, as (generation, slot, access), made before arrivals in a generation, that its
waiters stay for (R200). -/
structure Bar where
  gen : Nat := 0
  arrived : List Nat := []
  doneAt : Nat := 0
  held : List (Nat × Nat × Nat) := []
  deriving DecidableEq, Repr, Inhabited

/-- A stash mapping (R174, R292). -/
structure Map where
  cap : Dword := 0
  live : Bool := false
  ro : Bool := false
  soff : Nat := 0
  len : Nat := 0
  deriving DecidableEq, Repr, Inhabited

/-- A resident workgroup, keyed by its slot-table entry (R278, R281). -/
structure Wg where
  ctx : Nat := 0
  wobj : Nat := 0
  woff : Nat := 0
  dobj : Nat := 0
  doff : Nat := 0
  wgid : Nat := 0
  threads : Nat := 0
  warps : Nat := 0
  alloc : Nat := 0
  stb : Nat := 0
  stn : Nat := 0
  ae : Bool := false
  cobj : Nat := 0
  prio : Nat := 0
  qobj : Nat := 0
  qoff : Nat := 0
  qcnt : Nat := 0
  /-- Watchdog limit and slice, in ticks, 0 for none (R287). -/
  wdog : Nat := 0
  slice : Nat := 0
  bound : Nat := 0
  sliceAt : Nat := 0
  w : Tab Reg := []
  /-- Writes of w registers not yet seen, as (cycle, warp number, register, value), in that order (R35). -/
  wLate : List (Nat × Nat × Nat × Reg) := []
  bars : Tab Bar := []
  maps : Tab Map := []
  /-- Parked by a program fault or WATCHDOG (R289). -/
  parked : Bool := false
  /-- A watchdog limit passed while it was saved (R287). -/
  late : Bool := false
  /-- A workgroup under it failed (R32, R290). -/
  failed : Bool := false
  killed : Bool := false
  /-- FAULT records (KIND 1 or 2) that hold it parked. -/
  records : Nat := 0
  /-- The KIND 0 record of a write-back of its own whose page is not present (R165), 0 for none. -/
  flushRec : Nat := 0
  deriving DecidableEq, Repr, Inhabited

/-- A word of an L1 (R169): its data, whether the cluster owns it, whether it is dirty, and who wrote it, as
(slot-table entry, thread of the workgroup). -/
structure L1Word where
  data : Word := 0
  own : Bool := false
  dirty : Bool := false
  writers : List (Nat × Nat) := []
  /-- Owned, but the home slice has not been told yet (R169, R189; log 80); and by a store of 8 bytes, so that both words of the
  doubleword are told together (R123). -/
  late : Bool := false
  both : Bool := false
  /-- Clusters to which this copy is not forwarded: it may be older than a write of theirs, or than an acquire (R170, R198). -/
  bars : List Nat := []
  deriving DecidableEq, Repr, Inhabited

/-- A last-value table entry (R106). -/
structure Lvt where
  ctx : Nat := 0
  cobj : Nat := 0
  pc : BitVec 40 := 0
  last : Tab Word := []
  prev : Tab Word := []
  deriving DecidableEq, Repr, Inhabited

/-- A slot-table entry (R281). -/
structure SlotEnt where
  v : Bool := false
  rst : Bool := false
  bench : Nat := 0
  st : Nat := 0
  lobj : Nat := 0
  wgid : Nat := 0
  slots : Dword := 0
  stb : Nat := 0
  stn : Nat := 0
  spart : Nat := 0
  iobj : Nat := 0
  ioff : Nat := 0
  /-- The launch that the record binds, as the device queue named it. -/
  dctx : Nat := 0
  dobj : Nat := 0
  doff : Nat := 0
  deriving DecidableEq, Repr, Inhabited

/-- A tarnish tile (R246): cells as 1,024 words, birth stamp, stamp-valid bit. -/
structure Tile where
  cells : Tab Word := []
  b : Dword := 0
  v : Bool := false
  deriving DecidableEq, Repr, Inhabited

/-- States of an operand slot (R216). -/
inductive SlotSt where
  | free | claimed | full
  deriving DecidableEq, Repr, Inhabited

/-- An operand slot (R213 to R216): data and sideband bytes, the row-fill bitmap, its state and its claim. -/
structure OpSlot where
  data : Tab Byte := []
  side : Tab Byte := []
  rows : BitVec 128 := 0
  st : SlotSt := .free
  /-- The cycle in which it became FULL. -/
  fullAt : Nat := 0
  gen : BitVec 16 := 0
  /-- The slot-table entry whose stream claimed it. -/
  entry : Nat := 0
  deriving DecidableEq, Repr, Inhabited

/-- An accumulator word (R230): data and kind, true for INT32. -/
structure AccWord where
  data : Word := 0
  int : Bool := false
  deriving DecidableEq, Repr, Inhabited

/-- An accumulator row: 128 words and the ready flag, now and as the cycle began (R231); busy follows from the queue
(R230). -/
structure AccRow where
  words : Tab AccWord := []
  ready : Bool := false
  was : Bool := false
  deriving DecidableEq, Repr, Inhabited

/-- An Anvil operation with the values captured at issue (R212). -/
inductive AOp where
  | mma (fmt : Nat) (mx : Bool) (acc a b : Nat)
  | mmas (pat fmt : Nat) (acc a b md : Nat)
  | mmah (pv : Bool) (cnt : Nat) (fmt : Nat) (fill mx : Bool) (acc a b : Nat) (bits : BitVec 256) (bit : Nat)
  | assay (bit h cnt : Nat) (sink loc : Bool) (q k : Nat) (tau rho : Word) (dst : Nat)
  | accz (a b : Nat)
  | accsig (a b : Nat)
  deriving DecidableEq, Repr, Inhabited

/-- A queued operation: the cycle in which it entered and, when running, in which it began. -/
structure AEnt where
  op : AOp
  entered : Nat := 0
  began : Option Nat := none
  /-- For an MMAH that runs: the tile to do next, and how many kept tiles were done before it last began (R238). -/
  tiles : Nat := 0
  base : Nat := 0
  deriving DecidableEq, Repr, Inhabited

/-- A claim of the stream whose results are on their way (R217): the handle claimed, 0 for none, its destination, and the
cycle of its issue. -/
structure Claim where
  id : Nat
  dst : Nat
  handle : Word
  at_ : Nat
  deriving DecidableEq, Repr, Inhabited

/-- A byte of a slot, or of its sideband, overwritten while the running operation reads the slot, and what it was
(R216). -/
structure Torn where
  slot : Nat
  side : Bool
  place : Nat
  old : Byte
  deriving DecidableEq, Repr, Inhabited

/-- What a lane of a word does in its own lane cycle (R20): bytes of OFILL, with the GEN of their slot; the mark of a row (R220); an
ACCWR, and one that met a busy row (R237); an ACCRD (R236). -/
inductive LaneDo where
  | fill (slot : Nat) (gen : BitVec 16) (side : Bool) (place : Nat) (bytes : List Byte)
  | mark (slot : Nat) (gen : BitVec 16) (row : Nat)
  | accwr (row col : Nat) (v : AccWord)
  | busy (row : Nat)
  | accrd (row col : Nat) (dst : Dst) (plate : Bool)
  deriving DecidableEq, Repr, Inhabited

/-- A lane whose cycle is to come: the cycle and the last one of its word; its warp's slot, entry and number; its thread, and those that
take a cause of it; the word's PC, and in a repeat the REPC of a thread that meets a cause (R55). -/
structure LaneAct where
  cyc : Nat
  last : Nat
  slot : Nat
  entry : Nat
  num : Nat
  t : Nat
  threads : List Nat
  pc : BitVec 40
  repc : Option Word
  act : LaneDo
  deriving DecidableEq, Repr, Inhabited

/-- A prefetch that brought data no demand has touched (R121): its level (0 the L1, 1 the L2, 2 the memory-side cache), the
keys of the words that are still there, and its place. -/
structure Prefetched where
  lvl : Nat
  words : List Nat
  place : Nat
  deriving DecidableEq, Repr, Inhabited

/-- A prefetch that waits at the cluster's station (R121, R321). -/
structure Prefetch where
  entry : Nat
  obj : Nat
  off : Nat
  bytes : Nat
  lvl : Nat
  deriving DecidableEq, Repr, Inhabited

/-- A lane of a bench (R20, R21): the cycle until which it is busy, and the seat that went last. -/
structure LaneSt where
  busy : Nat := 0
  seat : Nat := 1
  deriving DecidableEq, Repr, Inhabited

/-- A cluster. -/
structure Cluster where
  slots : Tab SlotEnt := []
  wgs : Tab Wg := []
  warps : Tab Warp := []
  /-- The context that the caches and the last-value table serve (R106). -/
  ctx : Nat := 0
  spart : Nat := 0
  stash : Tab Byte := []
  /-- Granules that are full (R173). -/
  full : List Nat := []
  l1 : Tab L1Word := []
  /-- Ranges of word keys whose next fill skips peer forwarding (R170, R198). -/
  homeOnly : List (Nat × Nat) := []
  /-- Mapped stash words (by stash word number) that hold their line's data, with who owns and wrote them (R175). -/
  mapped : Tab L1Word := []
  lvt : Tab Lvt := []
  pf : List Prefetched := []
  station : List Prefetch := []
  /-- Sectors, by the key of their first word, for which a peer has declined and the home slice has not answered (R170). -/
  probed : List Nat := []
  /-- The retirement tracker: warps that left by TAIL, as their unfinished work (R32). -/
  tracker : Tab Warp := []
  lanes : Tab LaneSt := []
  /-- Clock: ratio and die clock of R319, stretched by droop (R320). -/
  m : Nat := 16
  boost : Bool := false
  /-- Length of a cycle in sixteenths of its length without droop. -/
  stretch : Nat := 16
  /-- The cycle under way (R5), and how much of it has passed, in parts of which a cycle has 10 · stretch and a tick
  brings 10 · m, or 11 · m at boost (log 67). -/
  cyc : Nat := 0
  phase : Nat := 0
  /-- How far the order of R232 has come in this cycle, and the slots that OREL has left in it (R219). -/
  stage : Nat := 0
  orels : List Nat := []
  /-- Clock-ratio handshakes: under way, then requested: the new ratio and die clock, and when it began (R321). -/
  shakes : List (Nat × Bool × Nat) := []
  gated : Bool := false
  idleAt : Nat := 0
  tiles : Tab Tile := []
  ops : Tab OpSlot := []
  claimNo : BitVec 16 := 1
  rows : Tab AccRow := []
  queue : List AEnt := []
  /-- Cycle from which the array can begin the next operation. -/
  arrayFree : Nat := 0
  claims : List Claim := []
  torn : List Torn := []
  /-- Lanes of OFILL, ACCWR and ACCRD whose cycles are to come (R20). -/
  acts : List LaneAct := []
  nextId : Nat := 0
  deriving DecidableEq, Repr, Inhabited

/-- A context that is live on the module (R159, R160, R194, R255, R263, R290). -/
structure Ctx where
  table : Nat := 0
  models : Nat := 0
  binds : Nat := 0
  kv : Nat := 0
  fault0 : Nat := 0
  fault1 : Nat := 0
  next0 : Nat := 0
  next1 : Nat := 0
  /-- Device queues of the two dies: descriptor object, offset, and place in the order of all enqueues (R280, R284). -/
  queue0 : List (Nat × Nat × Nat) := []
  queue1 : List (Nat × Nat × Nat) := []
  /-- Records that wait for a free place in a full ring, by die, each with its number (R290). -/
  held0 : List (Nat × Dword × Dword × Dword × Dword) := []
  held1 : List (Nat × Dword × Dword × Dword × Dword) := []
  deriving DecidableEq, Repr, Inhabited

/-- A launch that Umailo has taken and that still has workgroups to bind (R284). -/
structure Launch where
  die : Nat
  ctx : Nat
  dobj : Nat
  doff : Nat
  /-- Its place in the order of enqueues. -/
  enq : Nat
  /-- Since when its next workgroup can have been waiting for a place. -/
  since : Nat
  next : Nat := 0
  reserved : Bool := false
  deriving DecidableEq, Repr, Inhabited

/-- The saved image of a workgroup (R291, R292), at its object and offset; what memory holds of it is there too (log 21). The
numbers of slots are those of the warps in the workgroup, 32 for the control-core stream. -/
structure Image where
  obj : Nat
  off : Nat
  /-- The die whose device queue held its launch (R340). -/
  die : Nat := 0
  wg : Wg
  warps : List Warp := []
  core : Option Warp := none
  ops : Tab OpSlot := []
  rows : Tab AccRow := []
  queue : List AEnt := []
  claimNo : BitVec 16 := 1
  deriving DecidableEq, Repr, Inhabited

/-- A shadow pending for an object (R207): whether its command deferred the publish, whether it has been filled, and its
sequence word. -/
structure Shadow where
  ctx : Nat
  obj : Nat
  list : Nat
  deferred : Bool
  filled : Bool
  /-- Object and offset of the command's sequence record. -/
  seqObj : Nat
  seqOff : Nat
  deriving DecidableEq, Repr, Inhabited

/-- A chain attached to an engine (R313): where its control block lies, and its command in progress. -/
structure Chain where
  ctx : Nat
  obj : Nat
  off : Nat
  cur : Option Cmd := none
  deriving DecidableEq, Repr, Inhabited

/-- A copy engine (R309): window commands, the first in progress, and chains. -/
structure Engine where
  window : List Cmd := []
  chains : Tab Chain := []
  deriving DecidableEq, Repr, Inhabited

/-- State of a reduction slot (R297). -/
inductive XrSt where
  | free | open_ | done
  deriving DecidableEq, Repr, Inhabited

/-- A reduction slot of the hub (R297 to R300). -/
structure XrSlot where
  st : XrSt := .free
  handle : Word := 0
  op : Nat := 0
  n : Nat := 0
  tmo : Nat := 0
  mask : Dword := 0
  t0 : Nat := 0
  joined : Dword := 0
  contributed : Dword := 0
  freed : Dword := 0
  /-- Devices that joined after DONE, and those whose record is written. -/
  late : Dword := 0
  /-- When each of them joined. -/
  lateAt : Tab Nat := []
  recorded : Dword := 0
  data : List (List Word) := []
  timeout : Bool := false
  doneAt : Nat := 0
  deriving DecidableEq, Repr, Inhabited

/-- A port of the Zarnov link (R303, R305). -/
structure Port where
  trained : Bool := false
  dev : Nat := 0
  pod : Nat := 0
  lanes : Nat := 4
  retrain : Option Nat := none
  down : Bool := false
  deriving DecidableEq, Repr, Inhabited

/-- A page that is migrating or pinned (R166), and where it goes. -/
structure Page where
  ctx : Nat
  obj : Nat
  page : Nat
  granted : Nat
  home : Nat
  peer : Nat := 0
  deriving DecidableEq, Repr, Inhabited

/-- SCAT updates that a slice has collected for a word (R183), by word key. -/
structure Pending where
  ctx : Nat
  obj : Nat
  word : Nat
  ups : List (Nat × Word)
  deriving DecidableEq, Repr, Inhabited

/-- The records in module flash (R322, R325): lifetime records; the clusters, pseudo-channels, link lanes and ports retired,
each with its tick and cause; and the health state with what led to it. -/
structure Flash where
  lifetime : Tab Nat := []
  clusters : List Nat := []
  channels : List (Nat × Nat) := []
  lanes : List (Nat × Nat) := []
  ports : List Nat := []
  retirements : List (Part × Nat × Nat) := []
  health : BitVec 2 := 0
  why : BitVec 6 := 0
  dead : List Nat := []
  deriving DecidableEq, Repr, Inhabited

/-- An access from outside that waits at the module's ports (R165, R306): from a peer, or from the host where none is named. -/
structure Outside where
  id : Nat
  peer : Option Nat
  ctx : Nat
  obj : Nat
  off : Nat
  acc : OutAcc
  /-- Its KIND 0 record, 0 for none. -/
  recAt : Nat := 0
  deriving DecidableEq, Repr, Inhabited

/-- The run being issued, set by `step` for `exec` (log 1): its cluster and warp slot, its threads in ascending order, and
the PC a fault reports: the word's, or the REP word's in a repeat; `rep` is the repeat and the last repeat (R55, log 9); the word; and
where it is a withdrawn request's that is issued again, the request with its threads as they stood (R293). -/
structure Cur where
  cl : Nat := 0
  slot : Nat := 0
  run : List Nat := []
  pc : BitVec 40 := 0
  rep : Option (Nat × Nat) := none
  word : Nat := 0
  again : Option (Redo × List (Nat × Thread)) := none
  deriving DecidableEq, Repr, Inhabited

/-- The module. -/
structure State where
  /-- TB (R4, R66). -/
  tick : Nat := 0
  /-- Bring-up: the number of steps of R330 that are done. -/
  boot : Nat := 0
  /-- Memory: address = space·2^64 + PA, with space 0 HBM, 1 tier, 2 host, 3 + d peer d,
  64 + d the objects of peer d (R8, R162; log 4). -/
  mem : List Host.Cell := []
  poison : List Nat := []
  clusters : Tab Cluster := []
  ctxs : Tab Ctx := []
  launches : List Launch := []
  /-- Objects, as (context, object, offset), of which a child was cancelled before it started, once for each (R276, R277). -/
  skips : List (Nat × Nat × Nat) := []
  /-- Launches enqueued so far. -/
  enqueued : Nat := 0
  images : List Image := []
  shadows : List Shadow := []
  pages : List Page := []
  scats : List Pending := []
  /-- Port-TLB copies, by address of the extent entry (R165; log 5). -/
  tlb : List Nat := []
  /-- Sectors that the home slices hold, by the key of their first word: the place of the first byte (R167; log 5). -/
  l2 : Tab Nat := []
  /-- Words that the home slices hold dirty, by key, of pages that could not be reached as they were written (R165, R167). -/
  l2Dirty : Tab Word := []
  /-- Tags of the memory-side cache: V, D, TAG by set (R184). -/
  msc : Tab Byte := []
  /-- GLOBAL words that the hardware holds at 1, as (context, object, word): of work objects under way, and of the sequence
  records of commands under way (R275, R314; log 75). -/
  globals : List (Nat × Nat × Nat) := []
  /-- Frames taken so far for shadows, from HBM and from the tier; those given back; and the frames of each extent list
(R207, R208, R258; log 16). -/
  fresh : Nat := 0
  freshTier : Nat := 0
  freeFrames : List Nat := []
  blocks : Tab (List Nat) := []
  /-- The object, as context · 2^24 + object, that each 64 KiB of the module's memory was last mapped to, where another may be
mapped there next (R327; log 78). -/
  frames : Tab Nat := []
  /-- Weights objects, as (context, object), whose extents Sprue has freed (R258). -/
  bare : List (Nat × Nat) := []
  pools : Tab Nat := []
  /-- Fetches that LWAITs ask for, as (context, model, layer), in the order of their arrival (R258). -/
  lwaits : List (Nat × Nat × Nat) := []
  /-- Models of which an LWAIT has succeeded, as (context, model, what tells one model of an entry from another): their CURSOR
  holds (R255). -/
  cursors : List (Nat × Nat × Nat) := []
  engines : Tab Engine := []
  xrSlots : Tab XrSlot := []
  xrJoins : List XrJoin := []
  /-- Join entries that an XRF on its way has dropped: they stand again where it is lost (R300, R307). -/
  xrFreed : List XrJoin := []
  /-- Messages of this module on their way, as (number, handle), in the order they were sent (R301). -/
  xrFlights : List (Nat × Word) := []
  xrNext : Nat := 0
  ports : Tab Port := []
  /-- THR and TW of each die (R285). -/
  thr0 : Nat := 0
  thr1 : Nat := 0
  tw0 : Nat := 16
  tw1 : Nat := 16
  /-- The device number of the module, its pod and its host port (R303). -/
  dev : Nat := 0
  pod : Nat := 0
  hostPort : Option Nat := none
  /-- Devices whose port has trained with this module's pod since reset (R295). -/
  podDevs : List Nat := []
  /-- Pages that hardware outside the warps waits for, as (context, object, 64 KiB of it), each with its KIND 0 record (R165). -/
  portRecs : List (Nat × Nat × Nat × Nat) := []
  /-- The memory-side cache's size code: 0, 64, 128, 256 GiB (R184). -/
  mscGiB : Nat := 128
  health : BitVec 2 := 0
  why : BitVec 6 := 0
  clr : Nat := 0
  pcr : Nat := 0
  lnr : Nat := 0
  retiredClusters : List Nat := []
  retiredChannels : List (Nat × Nat) := []
  retiredLanes : List (Nat × Nat) := []
  retiredPorts : List Nat := []
  /-- The tick and the cause of each retirement (R325): 1 its records crossed a threshold, 2 tarnish retention, 3 it failed
  training, 4 the far end of the port. -/
  retirements : List (Part × Nat × Nat) := []
  /-- Pseudo-channels that memory is placed around since the last reset (R323). -/
  channelsOut : Nat := 0
  /-- Lifetime records (R325), keyed 4096·kind + granule: 0 and 2 corrected and uncorrected ECC events of an HBM stack, 7 and 8
  of a tier channel; 1 droops of a cluster, 9 its stretch depths (8·cluster + bin); 10 temperature of a die (16·die + bin);
  3 retrains and 4 lanes retired of a port; 5 lowest tarnish retention of a cluster; 6 of a die the sum of what its plate
  counters held as they were cleared. -/
  lifetime : Tab Nat := []
  lifetimeAt : Nat := 0
  /-- What flash holds: lifetime records, and the parts retired (R325). -/
  flash : Flash := {}
  version : Nat := 0
  /-- The highest versions of the firmware images accepted so far: management core, Umailo, link units (R328). -/
  firmware : Nat × Nat × Nat := (0, 0, 0)
  verified : Bool := false
  /-- A step of bring-up has failed: only a reset goes on (R330). -/
  halted : Bool := false
  /-- The firmware images and the configuration record that flash holds, as the boot has last read them (R328 to R330). -/
  record : BootRecord := { verified := false, version := 0, dev := 0, pod := 0, hostPort := none, mscGiB := 128, clear := false }
  /-- Counters by unit: a cluster's number, 128 + die, or 130 for the module,
  160 + port, 192 + 16·die + engine (R124, R186, R239, R254, R274, R308, R318). -/
  counters : List ((Nat × Ctr) × BitVec 64) := []
  /-- What the module has told outside parties: the host (R289), Umailo (R281, R291), the management interface
  (R294, R329). -/
  told : List (Nat × Nat) := []
  /-- Accesses of peers and of the host that wait; how many have waited; and what reads and atomics were answered, to a peer
  or, where none is named, to the host (R304, R306). -/
  outs : List Outside := []
  outNext : Nat := 0
  answers : List (Option Nat × List Byte) := []
  mgmtOut : List (List Byte) := []
  /-- Records that a full ring has held back so far (R290). -/
  heldRecords : Nat := 0
  /-- Scheduling cores that have failed (R322). -/
  deadDies : List Nat := []
  /-- The model's own fields (log 1, log 6). -/
  agenda : List Turn := []
  turns : Nat := 0
  frees : Nat := 0
  cur : Cur := {}
  deriving DecidableEq, Repr, Inhabited

/-- The machine right after reset (R330): bring-up has done none of its steps, memory is zero, nothing is bound. -/
def State.reset : State := {}

end Sys2Proof.Machine
end

