-- ==== Sys2Proof/Machine/Ops.lean ====
section
/-! DEFINITION. The named operations that every meaning uses: clusters, warps, threads and registers; bytes of memory;
counters; posting a fault record; taking causes (R89, R288 to R290) and returning (R90); and the frame in which a
word issues (R24, R25, R50 to R57). -/

namespace Sys2Proof.Machine

/-- The entry of a table, if it lists one. -/
def look {α : Type} (l : Tab α) (k : Nat) : Option α := (l.find? fun e => e.1 == k).map fun e => e.2

/-! ### Bits -/

/-- Bit `t` of a 32-bit mask register. -/
def bitOf (w : Word) (t : Nat) : Bool := w.getLsbD t
/-- The mask with bit `t` set to `b`. -/
def setBit (w : Word) (t : Nat) (b : Bool) : Word :=
  if b then w ||| (1#32 <<< t) else w &&& ~~~(1#32 <<< t)
/-- The mask of a list of thread numbers. -/
def maskOf : List Nat → Word
  | [] => 0
  | t :: r => setBit (maskOf r) t true
/-- Bits `[lo + n - 1 : lo]` of a doubleword as a number. -/
def field (d : Dword) (lo n : Nat) : Nat := d.toNat / 2 ^ lo % 2 ^ n
/-- A doubleword from its two halves. -/
def dword (lo hi : Word) : Dword := hi ++ lo
def loWord (d : Dword) : Word := d.setWidth 32
def hiWord (d : Dword) : Word := (d >>> 32).setWidth 32

/-! ### Bytes of memory (R8) -/

/-- A byte of the sparse memory; an address not listed reads 0 (log 4). -/
def memGet (m : List Host.Cell) (a : Nat) : Byte := Tab.get 0 m a
/-- Writing 0 takes the entry away, so that equal memories are equal lists. -/
def memPut (m : List Host.Cell) (a : Nat) (b : Byte) : List Host.Cell := if b = 0 then Tab.del m a else Tab.put m a b
/-- The canonical form: addresses strictly rising, no entry that reads as an unlisted address. -/
def Memory.wf (m : List Host.Cell) : Bool := Tab.wf m && m.all fun c => c.2 != 0

def memBytes (m : List Host.Cell) (a : Nat) : Nat → List Byte
  | 0 => []
  | n + 1 => memGet m a :: memBytes m (a + 1) n
def memPutBytes (m : List Host.Cell) (a : Nat) : List Byte → List Host.Cell
  | [] => m
  | b :: r => memPutBytes (memPut m a b) (a + 1) r

/-- Little-endian number of bytes (R8). -/
def leNat : List Byte → Nat
  | [] => 0
  | b :: r => b.toNat + 256 * leNat r
/-- The `n` bytes of a number, little-endian. -/
def leBytes : Nat → Nat → List Byte
  | 0, _ => []
  | n + 1, v => BitVec.ofNat 8 v :: leBytes n (v / 256)

/-- Memory without the bytes of a range: they read 0. -/
def memZero (m : List Host.Cell) (a n : Nat) : List Host.Cell := m.filter fun c => !decide (a ≤ c.1 ∧ c.1 < a + n)

/-- Doubleword `i` at physical address `a` of HBM. -/
def State.pd (s : State) (a i : Nat) : Dword := BitVec.ofNat 64 (leNat (memBytes s.mem (a + 8 * i) 8))
def State.setPd (s : State) (a i : Nat) (d : Dword) : State :=
  { s with mem := memPutBytes s.mem (a + 8 * i) (leBytes 8 d.toNat) }

/-! ### Clusters, warps, threads -/

def State.cluster (s : State) (c : Nat) : Cluster := Tab.get {} s.clusters c
def State.setCluster (s : State) (c : Nat) (x : Cluster) : State := { s with clusters := Tab.put s.clusters c x }
def State.modCluster (s : State) (c : Nat) (f : Cluster → Cluster) : State := s.setCluster c (f (s.cluster c))
/-- Slot numbers from here on name entries of the retirement tracker (R32). -/
def trackSlot : Nat := 512
def Cluster.warp (x : Cluster) (w : Nat) : Warp :=
  if w < trackSlot then Tab.get {} x.warps w else Tab.get {} x.tracker (w - trackSlot)
def Cluster.setWarp (x : Cluster) (w : Nat) (y : Warp) : Cluster :=
  if w < trackSlot then { x with warps := Tab.put x.warps w y }
  else { x with tracker := Tab.put x.tracker (w - trackSlot) y }
def Cluster.wg (x : Cluster) (e : Nat) : Wg := Tab.get {} x.wgs e
def Cluster.setWg (x : Cluster) (e : Nat) (y : Wg) : Cluster := { x with wgs := Tab.put x.wgs e y }
def State.warp (s : State) (c w : Nat) : Warp := (s.cluster c).warp w
def State.setWarp (s : State) (c w : Nat) (y : Warp) : State := s.setCluster c ((s.cluster c).setWarp w y)
def State.modWarp (s : State) (c w : Nat) (f : Warp → Warp) : State := s.setWarp c w (f (s.warp c w))
def State.wg (s : State) (c e : Nat) : Wg := (s.cluster c).wg e
def State.setWg (s : State) (c e : Nat) (y : Wg) : State := s.setCluster c ((s.cluster c).setWg e y)
def State.modWg (s : State) (c e : Nat) (f : Wg → Wg) : State := s.setWg c e (f (s.wg c e))
def Warp.thread (w : Warp) (t : Nat) : Thread := Tab.get {} w.threads t
def Warp.setThread (w : Warp) (t : Nat) (x : Thread) : Warp := { w with threads := Tab.put w.threads t x }
def Warp.modThread (w : Warp) (t : Nat) (f : Thread → Thread) : Warp := w.setThread t (f (w.thread t))
def State.modThread (s : State) (c w t : Nat) (f : Thread → Thread) : State := s.modWarp c w fun x => x.modThread t f

/-- The warp whose run is being issued. -/
def State.me (s : State) : Warp := s.warp s.cur.cl s.cur.slot
def State.setMe (s : State) (w : Warp) : State := s.setWarp s.cur.cl s.cur.slot w
def State.modMe (s : State) (f : Warp → Warp) : State := s.setMe (f s.me)
/-- The workgroup of the run being issued. -/
def State.myWg (s : State) : Wg := s.wg s.cur.cl s.me.entry
def State.setMyWg (s : State) (x : Wg) : State := s.setWg s.cur.cl s.me.entry x
def State.myCluster (s : State) : Cluster := s.cluster s.cur.cl
def State.modMyCluster (s : State) (f : Cluster → Cluster) : State := s.modCluster s.cur.cl f
/-- The context a workgroup runs in. -/
def State.myCtx (s : State) : Nat := s.myWg.ctx
/-- The die of a cluster. -/
def dieOf (c : Nat) : Nat := c / Config.dieClusters

/-- The row window of a warp as issues of a cycle see it (R234). -/
def Warp.window (w : Warp) (cyc : Nat) : Word × Word :=
  match w.awNew with
  | some (t, _, b, l) => if t < cyc then (b, l) else (w.awb, w.awl)
  | none => (w.awb, w.awl)
/-- The ready flag of an accumulator row (R230). -/
def Cluster.setReady (x : Cluster) (r : Nat) (b : Bool) : Cluster :=
  { x with rows := Tab.put x.rows r { (Tab.get {} x.rows r) with ready := b } }

/-- The threads of a warp that are not EXITED. -/
def Warp.members (w : Warp) : List Nat := (List.range 32).filter fun t => (w.thread t).st != .exited

/-! ### Counters -/

def counterGet (l : List ((Nat × Ctr) × BitVec 64)) (u : Nat) (c : Ctr) : BitVec 64 :=
  match l with
  | [] => 0
  | (k, v) :: r => if k = (u, c) then v else counterGet r u c
def counterSet (l : List ((Nat × Ctr) × BitVec 64)) (u : Nat) (c : Ctr) (x : BitVec 64) : List ((Nat × Ctr) × BitVec 64) :=
  match l with
  | [] => [((u, c), x)]
  | (k, v) :: r => if k = (u, c) then (k, x) :: r else (k, v) :: counterSet r u c x
/-- A counter of unit `u` rises by `n` modulo 2^64. -/
def State.count (s : State) (u : Nat) (c : Ctr) (n : Nat) : State :=
  if n = 0 then s else { s with counters := counterSet s.counters u c (counterGet s.counters u c + BitVec.ofNat 64 n) }

/-! ### Registers (R62, R63) -/

/-- A raw integer that is not plated. -/
def rawReg (d : Word) : Reg := { data := d, tag := 0 }
def Warp.getV (w : Warp) (t n : Nat) : Reg := Tab.get {} w.v (32 * n + t)
/-- k0 and g0 read zero; a g register has no tag and no plate (R62, R63). -/
def Warp.getK (w : Warp) (n : Nat) : Reg :=
  if n = 0 then rawReg 0
  else match w.unit with
    | .bench => Tab.get {} w.k n
    | .acc => { (Tab.get {} w.k n) with tag := 0, plate := false }
def Warp.putV (w : Warp) (t n : Nat) (r : Reg) : Warp := { w with v := Tab.put w.v (32 * n + t) r }
/-- Writes to k0 and g0 are discarded. -/
def Warp.putK (w : Warp) (n : Nat) (r : Reg) : Warp := if n = 0 then w else { w with k := Tab.put w.k n r }

/-- The 16-bit immediate, extended (R43). -/
def immWord (x : BitVec 16) (sx : Bool) : Word := if sx then x.signExtend 32 else x.setWidth 32

/-- What thread `t` reads of an operand; `j` counts the registers of a pair or a quad. -/
def Warp.readAt (w : Warp) (t : Nat) (o : Opd) (j : Nat) : Reg :=
  match o with
  | .v n => w.getV t (n + j)
  | .vx n => w.getV t (n + w.xi.toNat + j)
  | .k n => w.getK (n + j)
  | .g n => w.getK (n + j)
  | .imm x sx => rawReg (immWord x sx)
def Warp.read (w : Warp) (t : Nat) (o : Opd) : Reg := w.readAt t o 0
/-- A pair operand: 64 bits. -/
def Warp.readPair (w : Warp) (t : Nat) (o : Opd) : Dword := dword (w.readAt t o 0).data (w.readAt t o 1).data

/-- The destination an operand names. -/
def Warp.dst (w : Warp) (o : Opd) : Dst :=
  match o with
  | .v n => .v n
  | .vx n => .v (n + w.xi.toNat)
  | .k n => .k n
  | .g n => .k n
  | .imm _ _ => .cm
def Dst.plus : Dst → Nat → Dst
  | .v n, j => .v (n + j)
  | .k n, j => .k (n + j)
  | d, _ => d
def Dst.isK : Dst → Bool
  | .k _ => true
  | _ => false

/-- The number of the register a destination names. -/
def Dst.num : Dst → Nat
  | .v n => n
  | .k n => n
  | .cm => 0
  | .h n => n
/-- The registers that a request writes: the first and how many. -/
def Req.writes (r : Req) : Option (Dst × Nat) :=
  match r.op with
  | .atom _ ty _ _ (some d) => some (d, if ty = 3 then 2 else 1)
  | .ldh conv d _ => some (d, if conv = 3 then 2 else 1)
  | .tarn _ _ _ (some d) => some (d, 1)
  | .kvx _ _ _ d => some (d, 2)
  | .pfxh _ d => some (d, 2)
  | .wqpop d => some (d, 2)
  | .larr _ _ _ d => some (d, 1)
  | .rnext _ _ _ d => some (d, 2)
  | .xr _ _ _ (some d) => some (d, 1)
  | _ => none
/-- The memory port holds the request, which writes register `reg` of thread `t`. -/
def Req.holds (r : Req) (k : Bool) (reg t : Nat) : Bool :=
  r.posted && (match r.writes with
    | some (d, n) => d.isK == k && decide (d.num ≤ reg ∧ reg < d.num + n) && (k || r.t == t)
    | none => false)

/-! ### Plate tickets: what unties a lane (R107 to R109) -/

/-- The ticket that serves a register. -/
def Warp.ticketOf (w : Warp) (k : Bool) (reg : Nat) : Option Nat :=
  (List.range 8).find? fun i => let x := Tab.get {} w.tickets i; x.valid && x.k == k && x.reg == reg
/-- Lane `t` of the register is tied. -/
def Warp.tied (w : Warp) (k : Bool) (reg t : Nat) : Option Nat :=
  match w.ticketOf k reg with
  | some i => if bitOf (Tab.get {} w.tickets i).lanes t then some i else none
  | none => none
/-- The ticket without lane `t`; it frees with its last lane. -/
def Ticket.drop (x : Ticket) (t : Nat) : Ticket :=
  let l := setBit x.lanes t false
  if l = 0 then {}
  else { x with lanes := l, arrived := setBit x.arrived t false, failed := setBit x.failed t false, value := Tab.del x.value t }
/-- Untie lane `t` of a register, if it is tied: its load is forgotten. A true value that comes later reaches neither register nor ticket,
and is taken to update no entry of the last-value table (R106, R109; DEDUCED, log 88). -/
def Warp.untie (w : Warp) (k : Bool) (reg t : Nat) : Warp :=
  match w.tied k reg t with
  | none => w
  | some i =>
    { w with
      tickets := Tab.put w.tickets i (Ticket.drop (Tab.get {} w.tickets i) t)
      loads := w.loads.map fun l =>
        if l.ticket = some i && (k || l.t == t) then { l with ticket := none, finished := true } else l }

/-- Write lane `t` of a destination with data, tag and plate. The write ends a tie of the lane (R109). -/
def Warp.write (w : Warp) (t : Nat) (d : Dst) (x : Word) (tag : BitVec 2) (plate : Bool) : Warp :=
  match d with
  | .v n => (w.untie false n t).putV t n { data := x, tag := tag, plate := plate }
  | .k n => if n = 0 then w else (w.untie true n 0).putK n { data := x, tag := tag, plate := plate }
  | .cm => { w with cm := setBit w.cm t (bitOf x 0), cpm := setBit w.cpm t plate }
  | .h n => { w with h := Tab.put w.h n (x.setWidth 256) }

/-- The write of a word at its issue: as `Warp.write`, and a tie that it ends counts as a guess discarded (R124). -/
def State.writeReg (s : State) (t : Nat) (d : Dst) (x : Word) (tag : BitVec 2) (plate : Bool) : State :=
  let w := s.me
  let gone := match d with
    | .v n => (w.tied false n t).isSome
    | .k n => (w.tied true n 0).isSome
    | _ => false
  (s.setMe (w.write t d x tag plate)).count s.cur.cl .guessesDiscarded gone.toNat

/-- CM and CPM bits of a thread. -/
def State.writeCm (s : State) (t : Nat) (c p : Bool) : State :=
  s.modMe fun w => { w with cm := setBit w.cm t c, cpm := setBit w.cpm t p }

/-- OR flags into ST (R67). -/
def State.orSt (s : State) (f : Word) : State := if f = 0 then s else s.modMe fun w => { w with sr := w.sr ||| f }

/-! ### Pending bits (R50) -/

def Warp.pendDst (w : Warp) (t : Nat) (d : Dst) : Warp :=
  match d with
  | .v n => (w.untie false n t).putV t n { (w.getV t n) with pend := true }
  | .k n => if n = 0 then w else (w.untie true n 0).putK n { (w.getK n) with pend := true }
  | .cm => { w with cmPend := setBit w.cmPend t true }
  | .h n => { w with hPend := w.hPend ||| (1#8 <<< n) }
def Warp.unpendDst (w : Warp) (t : Nat) (d : Dst) : Warp :=
  match d with
  | .v n => w.putV t n { (w.getV t n) with pend := false }
  | .k n => w.putK n { (w.getK n) with pend := false }
  | .cm => { w with cmPend := setBit w.cmPend t false }
  | .h n => { w with hPend := w.hPend &&& ~~~(1#8 <<< n) }
/-- A pending bit is set, counting a tie that the write to come ends (R109). -/
def State.pend (s : State) (t : Nat) (d : Dst) : State :=
  let w := s.me
  let gone := match d with
    | .v n => (w.tied false n t).isSome
    | .k n => (w.tied true n 0).isSome
    | _ => false
  (s.setMe (w.pendDst t d)).count s.cur.cl .guessesDiscarded gone.toNat

/-- Some pending bit of the thread is set; a k register's belongs to the warp and counts for every thread (log 11). -/
def Warp.pending (w : Warp) (t : Nat) : Bool :=
  w.v.any (fun e => e.1 % 32 == t && e.2.pend) || w.k.any (fun e => e.2.pend) || bitOf w.cmPend t || w.hPend != 0
/-- A lane of the thread is held by a fault at the memory port (R110). -/
def Warp.heldAtPort (w : Warp) (t : Nat) : Bool :=
  (w.loads.any fun l => l.posted && !l.settled && l.threads.contains t) ||
    w.reqs.any fun r => r.posted && r.writes.isSome && r.threads.contains t

/-! ### Causes (R288) -/

def Cause.illegal : Byte := 0x01
def Cause.regIndex : Byte := 0x02
def Cause.switch : Byte := 0x03
def Cause.format : Byte := 0x04
def Cause.uninit : Byte := 0x05
def Cause.bounds : Byte := 0x06
def Cause.rights : Byte := 0x07
def Cause.nullCap : Byte := 0x08
def Cause.align : Byte := 0x09
def Cause.stashBounds : Byte := 0x0A
def Cause.plateAddr : Byte := 0x10
def Cause.plateEscape : Byte := 0x11
def Cause.plateControl : Byte := 0x12
def Cause.translation : Byte := 0x20
def Cause.migration : Byte := 0x21
def Cause.swap : Byte := 0x22
def Cause.trap : Byte := 0x30
def Cause.accWindow : Byte := 0x40
def Cause.slot : Byte := 0x41
def Cause.accBusy : Byte := 0x42
def Cause.fabric : Byte := 0x50
def Cause.watchdog : Byte := 0x60
def Cause.poison : Byte := 0x70

/-- A cause in one thread: its code, what TADDR holds, and the PC of the word it is taken at. -/
structure Hit where
  t : Nat
  cause : Byte
  addr : Dword
  pc : BitVec 40
  deriving DecidableEq, Repr, Inhabited

/-- A fault record (R290). -/
structure Record where
  cause : Byte
  cl : Nat
  slot : Nat
  wgid : Nat
  addr : Dword
  lobj : Nat
  pc : BitVec 40
  lanes : Word
  kind : Nat
  deriving DecidableEq, Repr, Inhabited

/-- The slot that a record of a chain or of Sprue names as 0xFE (R312). -/
def noSlot : Nat := 300
def Record.d0 (r : Record) : Dword :=
  BitVec.ofNat 64 (2 ^ 63 + r.cause.toNat * 2 ^ 48 + dieOf r.cl * 2 ^ 47 + r.cl % Config.dieClusters * 2 ^ 40 +
    (if r.slot = Config.coreSlot then 255 else if r.slot = noSlot then 254 else r.slot % 64) * 2 ^ 32 + r.wgid % 2 ^ 32)
def Record.d2 (r : Record) : Dword := BitVec.ofNat 64 (r.lobj * 2 ^ 40) ||| r.pc.setWidth 64
def Record.d3 (r : Record) : Dword := dword (BitVec.ofNat 32 r.kind) r.lanes

def State.ctx (s : State) (n : Nat) : Ctx := Tab.get {} s.ctxs n
def State.setCtx (s : State) (n : Nat) (x : Ctx) : State := { s with ctxs := Tab.put s.ctxs n x }

/-- Numbers from here on name records that a full ring holds back. -/
def heldFrom : Nat := 2 ^ 64
/-- Records that wait for room in a context's ring on a die. -/
def Ctx.heldOf (x : Ctx) (die : Nat) : List (Nat × Dword × Dword × Dword × Dword) := if die = 0 then x.held0 else x.held1
/-- The place in a context's ring on a die that its next record takes. -/
def State.ringPlace (s : State) (ctx die : Nat) : Nat :=
  let x := s.ctx ctx
  if die = 0 then x.fault0 + 32 * (x.next0 % 256) else x.fault1 + 32 * (x.next1 % 256)
/-- That place is taken by a record that awaits resolution. -/
def State.ringFull (s : State) (ctx die : Nat) : Bool := (s.pd (s.ringPlace ctx die) 0).getLsbD 63
/-- Where a context's next record on a die will lie; in a full ring, or behind records that wait for room, the number by which it is held
back (R290). -/
def State.nextRecord (s : State) (ctx die : Nat) : Nat :=
  if s.ringFull ctx die || !((s.ctx ctx).heldOf die).isEmpty then heldFrom + s.heldRecords else s.ringPlace ctx die
/-- The record of a system fault still awaits room in its ring, or resolution (R290). -/
def State.recordOpen (s : State) (a : Nat) : Bool := a != 0 && (decide (a ≥ heldFrom) || (s.pd a 0).getLsbD 63)
/-- A record's doublewords are written at the next place of the ring, V last. -/
def State.putRing (s : State) (ctx die : Nat) (d : Dword × Dword × Dword × Dword) : State :=
  let x := s.ctx ctx
  let a := s.ringPlace ctx die
  ((((s.setPd a 1 d.2.1).setPd a 2 d.2.2.1).setPd a 3 d.2.2.2).setPd a 0 d.1).setCtx ctx
    (if die = 0 then { x with next0 := x.next0 + 1 } else { x with next1 := x.next1 + 1 })
/-- Post doublewords in a context's fault ring on a die; a full ring, or records that wait already, hold them back (R290). -/
def State.postWords (s : State) (ctx die : Nat) (d : Dword × Dword × Dword × Dword) : State :=
  let x := s.ctx ctx
  if s.ringFull ctx die || !(x.heldOf die).isEmpty then
    let e := (heldFrom + s.heldRecords, d)
    ({ s with heldRecords := s.heldRecords + 1 } : State).setCtx ctx
      (if die = 0 then { x with held0 := x.held0 ++ [e] } else { x with held1 := x.held1 ++ [e] })
  else s.putRing ctx die d
def State.post (s : State) (ctx : Nat) (r : Record) : State :=
  s.postWords ctx (dieOf r.cl) (r.d0, r.addr, r.d2, r.d3)

/-- A KIND 0 record for an access that the port holds: its address, or its number (R165, R290). -/
def State.portRecord (s : State) (c k : Nat) (cause : Byte) (obj off : Nat) (pc : BitVec 40) (lanes : Word) : Nat × State :=
  let w := s.warp c k
  let g := s.wg c w.entry
  (s.nextRecord g.ctx (dieOf c),
    s.post g.ctx { cause := cause, cl := c, slot := if k < trackSlot then k else w.left, wgid := g.wgid
                   addr := BitVec.ofNat 64 (obj % 2 ^ 24 * 2 ^ 40 + off % 2 ^ 36), lobj := g.wobj, pc := pc, lanes := lanes
                   kind := 0 })

/-- Hardware outside the warps, for which a record names CLU `cl` and WSLOT 0xFE, waits for a place: for a page that is not present it
has one KIND 0 record posted, unless one for the page is open (R165, R290; log 82). -/
def State.askPage (s : State) (ctx cl obj off : Nat) (cause : Byte) : State :=
  let l := s.portRecs.filter fun p => s.recordOpen p.2.2.2
  if cause ≠ Cause.translation ∨ l.any (fun p => p.1 == ctx && p.2.1 == obj && p.2.2.1 == off / 2 ^ 16) = true then s
  else
    { s.post ctx { cause := cause, cl := cl, slot := noSlot, wgid := 0
                   addr := BitVec.ofNat 64 (obj % 2 ^ 24 * 2 ^ 40 + off % 2 ^ 36), lobj := 0, pc := 0, lanes := 0, kind := 0 } with
      portRecs := l ++ [(ctx, obj, off / 2 ^ 16, s.nextRecord ctx (dieOf cl))] }

/-- What the module tells outside parties: 1 the host that a workgroup parked (R289), 2 Umailo a refusal (R281, R292),
3 Umailo that a save is complete (R291), 4 the management core that a part failed (R322). -/
def State.tell (s : State) (what who : Nat) : State := { s with told := s.told ++ [(what, who)] }

/-- Park a workgroup (R289): its slot-table ST becomes parked, and the host is told. -/
def State.park (s : State) (c e : Nat) : State :=
  (s.modCluster c fun x =>
    { (x.setWg e { x.wg e with parked := true, records := (x.wg e).records + 1 }) with
      slots := Tab.put x.slots e { (Tab.get {} x.slots e) with st := 2 } }).tell 1 (c * 16 + e)

/-- The thread enters the user handler (R89). -/
def Thread.enter (x : Thread) (tvec mask : Word) (h : Hit) : Thread :=
  { x with
    st := .ready, marked := false, tpc := h.pc.setWidth 64, tcause := 0x80000000#32 ||| h.cause.setWidth 32
    taddr := h.addr, tlanes := mask, pc := (tvec &&& 0xFFFFFFF8#32).setWidth 40 }
/-- The thread parks at the word (R289). -/
def Thread.stop (x : Thread) (h : Hit) : Thread := { x with st := .fault, marked := false, pc := h.pc }

/-- The handler is there for the thread: TVEC.EN = 1 and TCAUSE.IH = 0 (R89). -/
def Warp.handles (w : Warp) (t : Nat) : Bool := w.tvec.getLsbD 0 && !(w.thread t).tcause.getLsbD 31

/-- The counter of a plate cause (R124). -/
def plateCtr (c : Byte) : Option Ctr :=
  if c = Cause.plateAddr then some .plateAddr
  else if c = Cause.plateEscape then some .plateEscape
  else if c = Cause.plateControl then some .plateControl
  else none

/-- Take the hits of one cause: each thread enters the handler, or parks with its workgroup, one KIND 1 record for the
threads that parked (R89, R288 to R290). -/
def State.takeOne (s : State) (c k : Nat) (cause : Byte) (hits : List Hit) : State :=
  let w := s.warp c k
  let mask := maskOf (hits.map Hit.t)
  let w' := hits.foldl (fun x h =>
    x.modThread h.t fun y => if w.handles h.t then y.enter w.tvec mask h else y.stop h) w
  let s1 := s.setWarp c k w'
  let s2 := match plateCtr cause with
    | some ctr => s1.count c ctr hits.length
    | none => if cause = Cause.swap then s1.count (128 + dieOf c) .swaps hits.length else s1
  match hits.filter fun h => !w.handles h.t with
  | [] => s2
  | h :: r =>
    let g := s2.wg c w.entry
    (s2.park c w.entry).post g.ctx
      { cause := cause, cl := c, slot := k, wgid := g.wgid, addr := h.addr, lobj := g.wobj, pc := h.pc
        lanes := maskOf ((h :: r).map Hit.t), kind := 1 }

/-- The distinct causes of a list of hits, in order of their first thread. -/
def causesOf (l : List Hit) : List Byte := (l.map Hit.cause).eraseDups

/-- TAKING A CAUSE: the one operation by which threads of a warp take program faults. Threads that take one cause form
one mask (TLANES). -/
def State.take (s : State) (c k : Nat) (hits : List Hit) : State :=
  (causesOf hits).foldl (fun x cause => x.takeOne c k cause (hits.filter fun h => h.cause == cause)) s

/-- RETURN from the handler (R90): IH is cleared; PC as given. -/
def Thread.leave (x : Thread) (pc : BitVec 40) : Thread := { x with tcause := x.tcause &&& 0x7FFFFFFF#32, pc := pc }

/-! ### Leaving SWITCH and FAULT (R52, R110) -/

/-- A named register's pending lane is held at the memory port for thread `t` (R110). -/
def Warp.portLane (w : Warp) (t : Nat) (r : Bool × Nat) : Bool :=
  (w.loads.any fun l => l.posted && !l.settled && l.k == r.1 && (l.reg == r.2 || (l.conv == 3 && l.reg + 1 == r.2)) &&
    (r.1 || l.t == t)) || w.reqs.any fun q => q.holds r.1 r.2 t

/-- A load's cause waits for the thread: it takes it as it leaves SWITCH (R110). -/
def Warp.owed (w : Warp) (t : Nat) : Bool := (w.thread t).deferred.any fun d => d.reg.isSome
/-- A thread in SWITCH or held in FAULT at the port, seen again after its warp's results changed. At a switch marker it stays
while a pending bit of it is set, and then takes a deferred cause of a load or becomes READY; at a word that names held
registers it becomes READY once the port holds none of them. -/
def Warp.recheck (w : Warp) (t : Nat) : Warp × List Hit :=
  let x := w.thread t
  if x.st == .fault && !x.atPort.isEmpty then
    (if x.atPort.any fun r => w.portLane t r then w else w.setThread t { x with st := .ready, atPort := [] }, [])
  else if x.st == .switch || (x.st == .fault && x.marked) then
    if w.heldAtPort t then (w.setThread t { x with st := .fault, marked := true }, [])
    else if w.pending t then (w.setThread t { x with st := .switch }, [])
    else
      match x.deferred.find? (fun d => d.reg.isSome) with
      | some d =>
        (w.setThread t { x with st := .ready, marked := false, deferred := x.deferred.erase d },
          [{ t := t, cause := d.cause, addr := d.addr, pc := d.atPc.getD x.pc }])
      | none => (w.setThread t { x with st := .ready, marked := false }, [])
  else (w, [])

/-- Recheck every thread of a warp. -/
def State.wake (s : State) (c k : Nat) : State :=
  let p := (List.range 32).foldl (fun (a : Warp × List Hit) t =>
    let q := a.1.recheck t
    (q.1, a.2 ++ q.2)) (s.warp c k, [])
  (s.setWarp c k p.1).take c k p.2

/-! ### The frame in which a word issues -/

/-- What the frame needs to know of a word: its header, the registers it names with their widths (D, A, B, C), whether it
reads or writes CM or CPM beside its guard, whether store causes are taken at it (R100), whether it is performed once
(R25), whether its guard raises nothing (R121), lane cycles for each performance (R20), what else raises SWITCH (R147), and its invalid-handle check (R56). -/
structure Shape where
  h : Hdr
  named : List (Opd × Nat) := []
  cm : Bool := false
  hnum : List Nat := []
  sync : Bool := false
  once : Bool := false
  quiet : Bool := false
  cost : Nat := 1
  more : State → Option (Byte × Dword) := fun _ => none
  handle : State → Option (Byte × Dword) := fun _ => none

/-- The v number an operand names, and whether it is a pair at an odd number. -/
def Warp.vnum (w : Warp) (o : Opd) : Option Nat :=
  match o with
  | .v n => some n
  | .vx n => some (n + w.xi.toNat)
  | _ => none

/-- ILLEGAL for a pair that indexing makes odd, over every operand; then REGINDEX (R41, R44, R57). -/
def Warp.indexCause (w : Warp) (l : List (Opd × Nat)) : Option (Byte × Dword) :=
  if l.any fun p => p.2 != 1 && (w.vnum p.1).any fun x => x % 2 == 1 then some (Cause.illegal, 0)
  else (l.find? fun p => (w.vnum p.1).any fun x => decide (x + p.2 > w.alloc)).map fun p =>
    (Cause.regIndex, BitVec.ofNat 64 ((w.vnum p.1).getD 0))

/-- The registers an operand of width `n` names, as (is k or g, number). -/
def Warp.namedRegs (w : Warp) (o : Opd) (n : Nat) : List (Bool × Nat) :=
  match o with
  | .v x => (List.range n).map fun j => (false, x + j)
  | .vx x => (List.range n).map fun j => (false, x + w.xi.toNat + j)
  | .k x => (List.range n).map fun j => (true, x + j)
  | .g x => (List.range n).map fun j => (true, x + j)
  | .imm _ _ => []
def Warp.allNamed (w : Warp) (l : List (Opd × Nat)) : List (Bool × Nat) := l.flatMap fun p => w.namedRegs p.1 p.2

/-- The register is pending for the thread. -/
def Warp.pendReg (w : Warp) (t : Nat) (r : Bool × Nat) : Bool := if r.1 then (w.getK r.2).pend else (w.getV t r.2).pend

/-- What TADDR holds for a pending register: bit 8 for a k register (R288); a g register by its number (log 12). -/
def Warp.pendAddr (w : Warp) (r : Bool × Nat) : Dword :=
  BitVec.ofNat 64 (if r.1 && w.unit == .bench then 0x100 + r.2 else r.2)

/-- The guard reads CM. -/
def usesCm (h : Hdr) : Bool := h.g != .em

/-- SWITCH, over the threads of the run, active or not (R51). -/
def Warp.switchCause (w : Warp) (run : List Nat) (x : Shape) : Option (Byte × Dword) :=
  match (w.allNamed x.named).find? fun r => run.any fun t => w.pendReg t r && !w.portLane t r with
  | some r => some (Cause.switch, w.pendAddr r)
  | none =>
    if (x.cm || usesCm x.h) && run.any (fun t => bitOf w.cmPend t) then some (Cause.switch, 0x200)
    else match x.hnum.find? fun n => w.hPend.getLsbD n with
      | some n => some (Cause.switch, BitVec.ofNat 64 n)
      | none => none

/-- The decode-class cause of a decoded word, in the order of R57. -/
def decodeCause (s : State) (x : Shape) : Option (Byte × Dword) :=
  match s.me.indexCause x.named with
  | some c => some c
  | none =>
    match s.me.switchCause s.cur.run x with
    | some c => some c
    | none =>
      match x.more s with
      | some c => some c
      | none => x.handle s

/-- The guard holds for the thread (R24, R46). On the control core CM stands for `cf` and EM is 1. -/
def Warp.guarded (w : Warp) (g : Guard) (t : Nat) : Bool :=
  bitOf w.em t && (match g with
    | .em => true
    | .cm => bitOf w.cm t
    | .ncm => !bitOf w.cm t)
/-- The guard of an enabled thread reads a guessed condition (R46). -/
def Warp.guardPlated (w : Warp) (h : Hdr) (t : Nat) : Bool := usesCm h && bitOf w.em t && bitOf w.cpm t

/-- Threads of the run whose named register is held at the port: they enter FAULT at this word (R110). -/
def Warp.portThreads (w : Warp) (run : List Nat) (x : Shape) : List Nat :=
  run.filter fun t => (w.allNamed x.named).any fun r => w.pendReg t r && w.portLane t r

/-- A deferred cause that thread `t` takes at this word: a store's at a word with the switch marker, ACQ, REL, FENCE, BAR
or EXIT (R100), a load's at a word that names its register (R110). -/
def Warp.due (w : Warp) (x : Shape) (t : Nat) : Option Deferred :=
  (w.thread t).deferred.find? fun d =>
    match d.reg with
    | none => x.h.sw || x.sync
    | some r => (w.allNamed x.named).contains r || (d.wide && (w.allNamed x.named).contains (r.1, r.2 + 1)) ||
        (d.cm && (x.cm || usesCm x.h))

/-- The PC after the word: the next word, or past the repeated word; a repeat before the last stays at the REP word. -/
def Cur.nextPc (u : Cur) : BitVec 40 :=
  match u.rep with
  | none => u.pc + 8
  | some (i, cnt) => if i = cnt then u.pc + 16 else u.pc
/-- REPC after the word completes (R55). -/
def Cur.nextRepc (u : Cur) : Word :=
  match u.rep with
  | none => 0
  | some (i, cnt) => BitVec.ofNat 32 (cnt - i)
/-- The word is not a repeat before the last. -/
def Cur.last (u : Cur) : Bool :=
  match u.rep with
  | none => true
  | some (i, cnt) => i == cnt

/-- The run's threads step past the word; a repeat keeps REPC (R55). -/
def State.advance (s : State) (run : List Nat) : State :=
  s.modMe fun w => run.foldl (fun x t => x.modThread t fun y =>
    { y with pc := s.cur.nextPc, repc := if s.cur.rep.isSome then s.cur.nextRepc else y.repc }) w

/-- Faulting threads of a repeat keep what remains, this repeat included (R55). -/
def State.holdRepc (s : State) (ts : List Nat) : State :=
  match s.cur.rep with
  | none => s
  | some (i, cnt) =>
    s.modMe fun w =>
      let w1 := ts.foldl (fun x t => x.modThread t fun y => { y with repc := BitVec.ofNat 32 (cnt + 1 - i) }) w
      { w1 with rep := w1.rep.map fun r => { r with threads := r.threads.filter fun t => !ts.contains t } }

/-- The switch marker (R52): the threads that stay READY park until no pending bit of theirs is set; a thread that waits
parks when its wait ends. -/
def State.mark (s : State) (ts : List Nat) : State :=
  let s1 := s.modMe fun w => ts.foldl (fun x t => x.modThread t fun y =>
    if y.st == .ready then { y with st := .switch, marked := true }
    else if y.st == .exited then y else { y with marked := true }) w
  s1.wake s1.cur.cl s1.cur.slot

/-- How long a cycle is, and what a tick brings of it (R5, R319, R320). -/
def Cluster.cycleLen (x : Cluster) : Nat := 10 * x.stretch
def Cluster.rate (x : Cluster) : Nat := x.m * (if x.boost then 11 else 10)
/-- Ticks from now until the cycle begins that is `n` after the one under way. A cycle that begins between two ticks is
taken to begin on the later one (R5 and R12 give no rounding; DESIGN CHOICE, log 67). -/
def Cluster.ticks (x : Cluster) (n : Nat) : Nat := (n * x.cycleLen - x.phase + (x.rate - 1)) / x.rate

/-- The lane of the run: bench and lane number (R18); the control core has its own. -/
def laneOf (slot : Nat) : Nat := if slot = Config.coreSlot then 128 else slot / 64 * 32 + slot % 32

/-- The run holds its lane for `n` cycles, and its seat has had its turn (R20, R21). -/
def State.holdLane (s : State) (n : Nat) : State :=
  s.modMyCluster fun x =>
    { x with lanes := Tab.put x.lanes (laneOf s.cur.slot) { busy := x.cyc + n, seat := s.cur.slot % 64 / 32 } }

/-- Ages after a choice (R23). -/
def Warp.aged (w : Warp) (run : List Nat) : Warp :=
  (List.range 32).foldl (fun x t =>
    if (x.thread t).st == .ready then x.modThread t fun y => { y with age := if run.contains t then 0 else y.age + 1 } else x) w
/-- A run of the warp issues (R23, R285): repeats after the first belong to the run that REP began (R55). -/
def State.issued (s : State) : State :=
  if s.cur.rep.isSome then s else s.modMe fun w => { w.aged s.cur.run with lastRun := s.tick + 1 }

def hitsAt (s : State) (ts : List Nat) (cause : Byte) (addr : Dword) : List Hit :=
  ts.map fun t => { t := t, cause := cause, addr := addr, pc := s.cur.pc }

/-- Lane cycles of the word (R20): every thread of the run counts, whatever becomes of it. -/
def State.laneCycles (s : State) (x : Shape) : Nat := (if x.once then 1 else s.cur.run.length) * x.cost
/-- Causes that threads of a run take in place of the word: PLATE_CONTROL of the guard before all others (R46, R57), then
deferred ones (R100, R110), each with the deferred cause that is taken off. -/
def Warp.firstCauses (w : Warp) (run : List Nat) (x : Shape) (pc : BitVec 40) : List (Option Deferred × Hit) :=
  run.filterMap fun t =>
    if !x.quiet && w.guardPlated x.h t then some (none, { t := t, cause := Cause.plateControl, addr := 0, pc := pc })
    else if w.guarded x.h.g t && !w.guardPlated x.h t then
      (w.due x t).map fun d => (some d, { t := t, cause := d.cause, addr := d.addr, pc := pc })
    else none
/-- Threads of the run that no fault holds at the port at this word (R110). -/
def State.present (s : State) (x : Shape) : List Nat :=
  s.cur.run.filter fun t => !(s.me.portThreads s.cur.run x).contains t
/-- Those that the word acts for: they take no cause in its place. -/
def State.goers (s : State) (x : Shape) : List Nat :=
  (s.present x).filter fun t => !((s.me.firstCauses (s.present x) x s.cur.pc).map fun p => p.2.t).contains t
/-- A thread enters FAULT at a word that names registers held at the port (R110). -/
def Warp.holdAt (w : Warp) (x : Shape) (t : Nat) : Warp :=
  w.modThread t fun q =>
    { q with st := .fault, atPort := (w.allNamed x.named).filter fun r => w.pendReg t r && w.portLane t r }

/-- A WORD ISSUES. Decode-class causes are raised for the whole run; then each thread of the run steps past the word, the
active threads perform `body`, and threads with a cause take it in place of the word's effect. -/
def issue (s : State) (x : Shape) (body : State → List Nat → State × List Hit) : State :=
  let u := s.cur
  match decodeCause s x with
  | some (cause, addr) =>
    ((s.issued.holdLane (s.laneCycles x)).holdRepc u.run).take u.cl u.slot (hitsAt s u.run cause addr)
  | none =>
    let w := s.me
    let held := w.portThreads u.run x
    let run := s.present x
    let s0 := s.issued.modMe fun y => held.foldl (fun z t => z.holdAt x t) y
    let s1 := (s0.advance run).holdLane (s.laneCycles x)
    let first := w.firstCauses run x u.pc
    let s2 := s1.modMe fun y => first.foldl (fun z p =>
      z.modThread p.2.t fun q => { q with deferred := match p.1 with
        | some d => q.deferred.erase d
        | none => q.deferred }) y
    let active := (s.goers x).filter fun t => w.guarded x.h.g t && !w.guardPlated x.h t
    let p := body s2 active
    let hits := first.map (fun p => p.2) ++ p.2
    let s3 := (p.1.holdRepc (hits.map Hit.t)).take u.cl u.slot hits
    if x.h.sw && u.last then s3.mark (run.filter fun t => !(hits.map Hit.t).contains t) else s3

/-- ILLEGAL at fetch or decode, for the whole run (R39, R58). -/
def State.noWord (s : State) (addr : Nat) : State :=
  let x := (s.issued.holdRepc s.cur.run).holdLane s.cur.run.length
  x.take x.cur.cl x.cur.slot (hitsAt x x.cur.run Cause.illegal (BitVec.ofNat 64 addr))

/-- What one lane, or the one performance of a uniform word, comes to. -/
inductive LaneOut where
  | ok (s : State)
  /-- A cause; the state has the effects that go with the fault (R56), most often none. -/
  | hit (cause : Byte) (addr : Dword) (s : State)

/-- Each active thread in ascending order (R20). -/
def perLane (f : State → Nat → LaneOut) (s : State) (active : List Nat) : State × List Hit :=
  active.foldl (fun (p : State × List Hit) t =>
    match f p.1 t with
    | .ok s' => (s', p.2)
    | .hit cause addr s' => (s', p.2 ++ [{ t := t, cause := cause, addr := addr, pc := s.cur.pc }])) (s, [])

/-- Once for the run, if a thread is active (R25); a cause is raised for every active thread. -/
def perRun (f : State → List Nat → LaneOut) (s : State) (active : List Nat) : State × List Hit :=
  match active with
  | [] => (s, [])
  | _ :: _ =>
    match f s active with
    | .ok s' => (s', [])
    | .hit cause addr s' => (s', hitsAt s active cause addr)

/-- The taint of any of the threads (R64). -/
def Warp.anyTaint (w : Warp) (ts : List Nat) : Bool := ts.any fun t => (w.thread t).tt

/-- The tainted ones of some threads, as a mask. -/
def Warp.taints (w : Warp) (ts : List Nat) : Word := maskOf (ts.filter fun t => (w.thread t).tt)

/-- A fresh request number of the warp. -/
def State.freshId (s : State) : Nat × State := (s.me.nextId, s.modMe fun w => { w with nextId := w.nextId + 1 })

/-- A long result leaves for its registers: each gets its pending bit; it is written by LONG_RESULT_WRITE (R50). -/
def State.long (s : State) (ws : List LWrite) (flags : Word) : State :=
  let p := s.freshId
  (ws.foldl (fun x w => x.pend w.t w.dst) p.2).modMe fun w =>
    { w with longs := w.longs ++ [{ id := p.1, writes := ws, flags := flags }] }
/-- A value that the manual leaves open (log 6). -/
def State.free (s : State) : Dword × State := (Config.freeWord s.frees, { s with frees := s.frees + 1 })

/-- The cycle in which a thread of the run has its lane cycle: one after the other where the word is not uniform (R20). -/
def State.leaves (s : State) (t : Nat) (once : Bool) : Nat := s.myCluster.cyc + if once then 0 else s.cur.run.idxOf t
/-- The tick at which a cycle of the run's cluster begins, by its clock as it is now. -/
def State.tickOf (s : State) (cyc : Nat) : Nat := s.tick + s.myCluster.ticks (cyc - s.myCluster.cyc)
/-- REPC of a thread that meets a cause in this repeat (R55). -/
def Cur.faultRepc (u : Cur) : Option Word := u.rep.map fun p => BitVec.ofNat 32 (p.2 + 1 - p.1)
/-- The active threads park in WAIT (R22), from the lane cycle of the first of them; a withdrawn wait goes on waiting (R293). -/
def State.await (s : State) (ts : List Nat) (why : WaitFor) (once : Bool := true) : State :=
  let p := s.freshId
  let n := s.leaves (ts.headD 0) once
  let word := if s.cur.rep.isSome then ((s.me.rep.map fun r => r.word).getD 0) else s.cur.word
  p.2.modMe fun w =>
    { (ts.foldl (fun x t => x.modThread t fun y => { y with st := .wait }) w) with
      waits := w.waits ++ [{ id := p.1, threads := ts, why := why, leave := n
                             t0 := (s.cur.again.map fun a => a.1.t0).getD (s.tickOf n), pc := s.cur.pc
                             repc := s.cur.faultRepc, word := word }] }

/-- Threads leave a wait: READY, or SWITCH when the word carried the marker (R52). -/
def State.resume (s : State) (c k : Nat) (ts : List Nat) : State :=
  (s.modWarp c k fun w => ts.foldl (fun x t => x.modThread t fun y =>
    if y.st == .wait || y.st == .join || y.st == .bar then { y with st := if y.marked then .switch else .ready } else y) w).wake c k

/-- A doubleword with `n` bits at `lo` replaced. -/
def setField (d : Dword) (lo n v : Nat) : Dword := BitVec.ofNat 64 (d.toNat - field d lo n * 2 ^ lo + v % 2 ^ n * 2 ^ lo)

/-! ### Idle clusters (R286) -/

def Cluster.idle (x : Cluster) : Bool := x.slots.all (fun e => !e.2.v) && x.tracker.isEmpty && x.tiles.all fun t => !t.2.v
/-- A cluster that has become idle, which it was not as `old`, remembers since when. -/
def State.idleMark (s : State) (c : Nat) (old : Bool := false) : State :=
  if (s.cluster c).idle && !old then s.modCluster c fun x => { x with idleAt := s.tick } else s

end Sys2Proof.Machine
end

