-- ==== Sys2Proof/Machine/Array.lean ====
section
/-! DEFINITION. The array's queue in the cycles of its cluster: what an operation names, how long it takes and when it begins and
commits (R212, R226, R230, R231), and the order of a cycle's events on the rows (R232). -/

namespace Sys2Proof.Machine

/-! ### Operations (R212, R230, R231) -/

/-- The kept tiles of an MMAH: the bits of its hallmark register, from its first bit. -/
def keptTile (bits : BitVec 256) (bit j : Nat) : Bool := bits.getLsbD (bit + j)
def keptTiles (bits : BitVec 256) (bit n : Nat) : List Nat := (List.range n).filter fun j => keptTile bits bit j

/-- Destination rows, from the first up to the last. -/
def AOp.rows : AOp → Nat × Nat
  | .mma _ _ acc _ _ => (acc, acc + 128)
  | .mmas _ _ acc _ _ _ => (acc, acc + 128)
  | .mmah pv cnt _ _ _ acc _ _ _ _ => (acc, acc + (if pv then 128 else 128 * cnt))
  | .accz a b => (a, b)
  | .assay .. => (0, 0)
  | .accsig .. => (0, 0)
/-- Array cycles. -/
def AOp.cycles : AOp → Nat
  | .mma .. => 64
  | .mmas .. => 64
  | .mmah _ cnt _ _ _ _ _ _ bits bit => 64 * (keptTiles bits bit cnt).length
  | .assay _ _ cnt _ _ _ _ _ _ _ => 16 * cnt
  | .accz a b => (b - a + 63) / 64
  | .accsig a b => if a < b then 1 else 0
/-- Setting ready flags comes later in a cycle than the other commits (R232). -/
def AOp.isSig : AOp → Bool
  | .accsig .. => true
  | _ => false

def inRows (p : Nat × Nat) (r : Nat) : Bool := p.1 ≤ r && r < p.2
/-- The row is busy (R230). -/
def Cluster.busyRow (x : Cluster) (r : Nat) : Bool := x.queue.any fun e => inRows e.op.rows r
/-- One of the operation's destination rows is ready. -/
def Cluster.meetsReady (x : Cluster) (o : AOp) : Bool := x.rows.any fun e => e.2.ready && inRows o.rows e.1

/-- Kept tiles of an MMAH that have committed. -/
def AEnt.kept (e : AEnt) : Nat :=
  match e.op with
  | .mmah _ _ _ _ _ _ _ _ bits bit => (keptTiles bits bit e.tiles).length
  | _ => 0
/-- An MMAH has a tile left. -/
def AEnt.left (e : AEnt) : Bool :=
  match e.op with
  | .mmah _ cnt _ _ _ _ _ _ _ _ => decide (e.tiles < cnt)
  | _ => false
/-- Something of the operation commits in the cycle in which it begins: an end, or filled tiles before a kept one (R226). -/
def AEnt.early (e : AEnt) : Bool :=
  decide (e.op.cycles - 64 * e.base ≤ 1) || (match e.op with
    | .mmah pv _ _ fill _ _ _ _ bits bit => fill && !pv && e.base == 0 && !keptTile bits bit 0
    | _ => false)
/-- The cycle of the last of `n` cycles begun in cycle `b`. -/
def lastCycle (b n : Nat) : Nat := b + (n - 1)
/-- The cycle in which the operation, begun in cycle `b`, next commits. -/
def AEnt.nextCommit (e : AEnt) (b : Nat) : Nat :=
  lastCycle b (if e.left then 64 * (e.kept + 1 - e.base) else e.op.cycles - 64 * e.base)
/-- ST of the workgroup whose stream the Anvil serves (R154, R281): 1 where there is none. -/
def Cluster.streamSt (x : Cluster) : Nat :=
  match x.wgs.find? fun g => g.2.ae with
  | some g => (Tab.get {} x.slots g.1).st
  | none => 1
/-- The first cycle in which the head of the queue can begin (R212). -/
def Cluster.headFrom (x : Cluster) (e : AEnt) : Nat := max (e.entered + 1) x.arrayFree
/-- No ready row and no pause of its workgroup holds the head back (R231, R238, R289). -/
def Cluster.headGoes (x : Cluster) (e : AEnt) : Bool := x.streamSt != 2 && x.streamSt != 3 && !x.meetsReady e.op
/-- Cycles of the array's next act, and its place in the order of R232: 1 a commit, 4 an ACCSIG, 41 the begin check. -/
def Cluster.arrayDue (x : Cluster) : Option (Nat × Nat) :=
  match x.queue with
  | [] => none
  | e :: _ =>
    match e.began with
    | some b => some (e.nextCommit b, if e.op.isSig then 4 else if e.nextCommit b = b then 41 else 1)
    | none => if x.headGoes e then some (x.headFrom e, if e.op.isSig then 4 else 41) else none
/-- A row event of place `n` may happen now: the cycle's order has not come further, and no act of the array that is due in
this cycle comes before it. What commits as it begins is read by the cycle's ACCRDs (R232). -/
def Cluster.mayStage (x : Cluster) (n : Nat) : Bool :=
  decide (x.stage ≤ (if n = 40 then 41 else n)) && (match x.arrayDue with
    | none => true
    | some (c, p) => decide (x.cyc < c) || decide (n ≤ p && n != 40) ||
      (n == 40 && (match x.queue with
        | e :: _ => p == 41 && e.began.isNone && !e.early
        | [] => true)))
def Cluster.toStage (x : Cluster) (n : Nat) : Cluster := { x with stage := max x.stage n }
/-- The place of an ACCWR of a warp: in ascending warp number (R232). -/
def accwrStage (num : Nat) : Nat := 5 + num

end Sys2Proof.Machine
end

