-- ==== Sys2Proof/Decode.lean ====
section
/-! DEFINITION. The decoder and the encoder of instruction words (R39 to R49, R58 to R60). `parse` reads the fields an
instruction uses; a word is an instruction only if what was read is well formed and encodes to the same word again,
so every reserved bit and every unused field is checked in one place. -/

namespace Sys2Proof

/-- The fields of a full word (R40) as numbers. Stepped by REP, a register number can pass 255 (R54). -/
structure Fields where
  sw : Bool := false
  maj : Nat := 0
  fn : Nat := 0
  g : Nat := 0
  d : Nat := 0
  a : Nat := 0
  b : Nat := 0
  c : Nat := 0
  m : Nat := 0
  deriving DecidableEq, Repr, Inhabited

/-- The fields of a 64-bit word whose W is 0 (R40). -/
def Fields.ofWord (w : Nat) : Fields :=
  { sw := w / 2 ^ 63 % 2 == 1, maj := w / 2 ^ 54 % 256, fn := w / 2 ^ 50 % 16, g := w / 2 ^ 48 % 4,
    d := w / 2 ^ 40 % 256, a := w / 2 ^ 32 % 256, b := w / 2 ^ 24 % 256, c := w / 2 ^ 16 % 256, m := w % 2 ^ 16 }

/-- The word of the fields (R40). -/
def Fields.pack (x : Fields) : Nat :=
  x.sw.toNat * 2 ^ 63 + x.maj * 2 ^ 54 + x.fn * 2 ^ 50 + x.g * 2 ^ 48 + x.d * 2 ^ 40 + x.a * 2 ^ 32 +
    x.b * 2 ^ 24 + x.c * 2 ^ 16 + x.m

/-- Every register number fits its field. -/
def Fields.fits (x : Fields) : Bool :=
  decide (x.d < 256) && decide (x.a < 256) && decide (x.b < 256) && decide (x.c < 256)

/-- Why a word is no instruction; each raises ILLEGAL (R58). -/
inductive Reject where
  /-- The guard value 0b11 (R46). -/
  | guard
  /-- A major or a function that R60 does not list for the unit, or a field code without meaning. -/
  | noInstruction
  /-- An operand kind, a register number or a combination of fields that the instruction does not allow. -/
  | operands
  /-- A bit that must be 0, or an unused field that is not 0 (R41, R42). -/
  | bits
  deriving DecidableEq, Repr, Inhabited

/-! ### Codes of the shared lists (R46, R61, R66, R151, R187) -/

def Guard.code : Guard → Nat
  | .em => 0
  | .cm => 1
  | .ncm => 2
def Guard.ofCode : Nat → Option Guard
  | 0 => some .em
  | 1 => some .cm
  | 2 => some .ncm
  | _ => none

def Rnd.code : Rnd → Nat
  | .rn => 0
  | .rz => 1
  | .rd => 2
  | .ru => 3
def Rnd.ofCode : Nat → Option Rnd
  | 0 => some .rn
  | 1 => some .rz
  | 2 => some .rd
  | 3 => some .ru
  | _ => none

def ICond.code : ICond → Nat
  | .eq => 0
  | .ne => 1
  | .lt => 2
  | .le => 3
  | .gt => 4
  | .ge => 5
  | .ltN => 6
  | .leN => 7
  | .gtN => 8
  | .geN => 9
def ICond.ofCode : Nat → Option ICond
  | 0 => some .eq
  | 1 => some .ne
  | 2 => some .lt
  | 3 => some .le
  | 4 => some .gt
  | 5 => some .ge
  | 6 => some .ltN
  | 7 => some .leN
  | 8 => some .gtN
  | 9 => some .geN
  | _ => none

def FCond.code : FCond → Nat
  | .eq => 0
  | .ne => 1
  | .lt => 2
  | .le => 3
  | .gt => 4
  | .ge => 5
  | .ord => 6
  | .un => 7
  | .equ => 8
  | .neu => 9
  | .ltu => 10
  | .leu => 11
  | .gtu => 12
  | .geu => 13
def FCond.ofCode : Nat → Option FCond
  | 0 => some .eq
  | 1 => some .ne
  | 2 => some .lt
  | 3 => some .le
  | 4 => some .gt
  | 5 => some .ge
  | 6 => some .ord
  | 7 => some .un
  | 8 => some .equ
  | 9 => some .neu
  | 10 => some .ltu
  | 11 => some .leu
  | 12 => some .gtu
  | 13 => some .geu
  | _ => none

def WCond.code : WCond → Nat
  | .eq => 0
  | .ne => 1
  | .ge => 2
  | .lt => 3
def WCond.ofCode : Nat → Option WCond
  | 0 => some .eq
  | 1 => some .ne
  | 2 => some .ge
  | 3 => some .lt
  | _ => none

def Scope.code : Scope → Nat
  | .wg => 0
  | .cl => 1
  | .die => 2
  | .dev => 3
  | .pod => 4
  | .sys => 5
def Scope.ofCode : Nat → Option Scope
  | 0 => some .wg
  | 1 => some .cl
  | 2 => some .die
  | 3 => some .dev
  | 4 => some .pod
  | 5 => some .sys
  | _ => none

def Sr.code : Sr → Nat
  | .em => 0x00
  | .cm => 0x01
  | .cpm => 0x02
  | .pt => 0x03
  | .xi => 0x04
  | .st => 0x05
  | .repc => 0x06
  | .awb => 0x07
  | .awl => 0x08
  | .tt => 0x09
  | .tvec => 0x10
  | .tpc => 0x11
  | .tcause => 0x12
  | .taddr => 0x13
  | .tlanes => 0x14
  | .tb => 0x20
def Sr.ofCode : Nat → Option Sr
  | 0x00 => some .em
  | 0x01 => some .cm
  | 0x02 => some .cpm
  | 0x03 => some .pt
  | 0x04 => some .xi
  | 0x05 => some .st
  | 0x06 => some .repc
  | 0x07 => some .awb
  | 0x08 => some .awl
  | 0x09 => some .tt
  | 0x10 => some .tvec
  | 0x11 => some .tpc
  | 0x12 => some .tcause
  | 0x13 => some .taddr
  | 0x14 => some .tlanes
  | 0x20 => some .tb
  | _ => none

def RedOp.code : RedOp → Nat
  | .addI32 => 0
  | .addF32 => 1
  | .min => 2
  | .max => 3
  | .minN => 4
  | .maxN => 5
  | .fmin => 6
  | .fmax => 7
  | .and => 8
  | .or => 9
  | .xor => 10
def RedOp.ofCode : Nat → Option RedOp
  | 0 => some .addI32
  | 1 => some .addF32
  | 2 => some .min
  | 3 => some .max
  | 4 => some .minN
  | 5 => some .maxN
  | 6 => some .fmin
  | 7 => some .fmax
  | 8 => some .and
  | 9 => some .or
  | 10 => some .xor
  | _ => none

def HalfOp.code : HalfOp → Nat
  | .nop => 0x00
  | .iadd => 0x01
  | .isub => 0x02
  | .imul => 0x03
  | .imin => 0x04
  | .imax => 0x05
  | .iminN => 0x06
  | .imaxN => 0x07
  | .and => 0x08
  | .or => 0x09
  | .xor => 0x0A
  | .andn => 0x0B
  | .shl => 0x0C
  | .shr => 0x0D
  | .sar => 0x0E
  | .rot => 0x0F
  | .mov => 0x10
  | .fadd => 0x18
  | .fsub => 0x19
  | .fmul => 0x1A
  | .fmin => 0x1B
  | .fmax => 0x1C
  | .badd2 => 0x20
  | .bmul2 => 0x21
  | .bmin2 => 0x22
  | .bmax2 => 0x23
def HalfOp.ofCode : Nat → Option HalfOp
  | 0x00 => some .nop
  | 0x01 => some .iadd
  | 0x02 => some .isub
  | 0x03 => some .imul
  | 0x04 => some .imin
  | 0x05 => some .imax
  | 0x06 => some .iminN
  | 0x07 => some .imaxN
  | 0x08 => some .and
  | 0x09 => some .or
  | 0x0A => some .xor
  | 0x0B => some .andn
  | 0x0C => some .shl
  | 0x0D => some .shr
  | 0x0E => some .sar
  | 0x0F => some .rot
  | 0x10 => some .mov
  | 0x18 => some .fadd
  | 0x19 => some .fsub
  | 0x1A => some .fmul
  | 0x1B => some .fmin
  | 0x1C => some .fmax
  | 0x20 => some .badd2
  | 0x21 => some .bmul2
  | 0x22 => some .bmin2
  | 0x23 => some .bmax2
  | _ => none

/-! ### Reading fields -/

/-- Bits `[lo + w - 1 : lo]` of M. -/
def Fields.mb (x : Fields) (lo w : Nat) : Nat := x.m / 2 ^ lo % 2 ^ w
/-- Bit `i` of M. -/
def Fields.mt (x : Fields) (i : Nat) : Bool := x.m / 2 ^ i % 2 == 1

/-- The register operand in a field: `k` from its kind bit, `ix` when XIS names the field (R41, R44, R59). -/
def regOpd (u : Core) (k ix : Bool) (n : Nat) : Opd :=
  match u with
  | .acc => .g n
  | .bench => if k then .k n else if ix then .vx n else .v n

def Fields.opD (x : Fields) (u : Core) : Opd := regOpd u (x.mt 15) (x.mb 8 2 == 1) x.d
def Fields.opA (x : Fields) (u : Core) : Opd := regOpd u (x.mt 14) (x.mb 8 2 == 2) x.a
def Fields.opB (x : Fields) (u : Core) : Opd := regOpd u (x.mt 13) (x.mb 8 2 == 3) x.b
/-- B or the immediate (R43). -/
def Fields.opI (x : Fields) (u : Core) : Opd :=
  if x.mt 11 then .imm (BitVec.ofNat 16 (x.b * 256 + x.c)) (x.mt 10) else x.opB u
/-- Operands of words that have no index field. -/
def Fields.plD (x : Fields) (u : Core) : Opd := regOpd u (x.mt 15) false x.d
def Fields.plA (x : Fields) (u : Core) : Opd := regOpd u (x.mt 14) false x.a
def Fields.plB (x : Fields) (u : Core) : Opd := regOpd u (x.mt 13) false x.b
def Fields.plC (x : Fields) (u : Core) : Opd := regOpd u (x.mt 12) false x.c

/-- B:C:M as one 32-bit immediate (R45). -/
def Fields.imm32 (x : Fields) : BitVec 32 := BitVec.ofNat 32 (x.b * 2 ^ 24 + x.c * 2 ^ 16 + x.m)

/-- What C names in a weak load (R102): the limit, the guess or nothing. -/
def Fields.cref (x : Fields) : CRef :=
  let lim := x.mb 8 4
  let guess := x.mb 5 3 == 4 || x.mb 5 3 == 5
  if lim = 15 then (if guess then .v x.c else if x.mt 12 then .k x.c else .v x.c)
  else if lim ≠ 0 ∧ guess then .k x.c
  else .none

/-! ### From fields to an instruction -/

/-- Control words: majors 0x00 to 0x15. -/
def parseControl (u : Core) (h : Hdr) (x : Fields) : Option Instr :=
  match x.maj, x.fn with
  | 0x00, 0 => some (.nop h)
  | 0x01, 0 => some (.rep h.sw (x.mb 6 2) (x.mb 8 2) (x.mb 10 2) (x.mb 12 2) (x.mb 0 6))
  | 0x02, 0 => some (.bra h x.imm32)
  | 0x03, 0 => some (.brc h false (x.a == 1) x.imm32)
  | 0x03, 1 => some (.brc h true (x.a == 1) x.imm32)
  | 0x04, 0 => some (.jmpi h (x.plA u))
  | 0x05, 0 => some (.call h (regOpd u false false x.d) x.imm32)
  | 0x06, 0 => some (.ret h (x.plA u))
  | 0x07, 0 => some (.join h false)
  | 0x07, 1 => some (.join h true)
  | 0x08, 0 => some (.exit h)
  | 0x09, 0 => some (.tail h)
  | 0x0A, 0 => some (.yield h)
  | 0x0B, 0 => some (.trap h x.m)
  | 0x0C, 0 => some (.tretReplay h)
  | 0x0C, 1 => some (.tretResume h)
  | 0x0D, f =>
    match WCond.ofCode f, Scope.ofCode (x.mb 3 3) with
    | some cd, some sc => some (.waitw h cd (x.plD u) (x.plA u) (x.plB u) (x.plC u) (x.mb 8 4) (x.mb 6 2) sc)
    | _, _ => none
  | 0x0E, 0 => some (.barArriveWait h (x.mb 0 4))
  | 0x0E, 1 => some (.barArrive h (x.mb 0 4))
  | 0x0E, 2 => some (.barWait h (x.mb 0 4))
  | 0x0F, 0 => (Sr.ofCode (x.mb 0 8)).map fun r => .rdsr h (x.plD u) r
  | 0x0F, 1 => (Sr.ofCode (x.mb 0 8)).map fun r => .wrsr h r (x.plA u)
  | 0x10, 0 => some (.ems h.sw x.d)
  | 0x10, 1 => some (.eml h.sw (x.mt 0) x.a)
  | 0x10, 2 => some (.ema h.sw (x.mt 0))
  | 0x10, 3 => some (.emn h.sw (x.mt 0))
  | 0x10, 4 => some (.emo h.sw (x.mt 0))
  | 0x10, 5 => some (.cms h.sw (x.mt 0) x.d)
  | 0x10, 6 => some (.cml h.sw (x.mt 0) x.a)
  | 0x10, 7 => some (.cmx h.sw (x.mb 0 2) x.a)
  | 0x11, 0 => some (.part h (x.mb 0 3))
  | 0x12, 0 => if x.mt 8 then some (.xiset h (.imm (x.mb 0 8))) else some (.xiset h (.k x.a))
  | 0x13, 0 => some (.lnch h x.a)
  | 0x14, f => if f < 4 then some (.wcan h f x.a) else none
  | 0x15, 0 => some (.movwWrite h x.d x.a)
  | 0x15, 1 => some (.movwRead h x.d x.a)
  | _, _ => none

/-- Integer and address words: majors 0x20 to 0x34. -/
def parseInteger (u : Core) (h : Hdr) (x : Fields) : Option Instr :=
  let d := x.opD u
  let a := x.opA u
  let b := x.opI u
  let r := x.opB u
  let c := x.plC u
  match x.maj, x.fn with
  | 0x20, 0 => some (.iadd h d a b)
  | 0x20, 1 => some (.iaddc h d a b)
  | 0x21, 0 => some (.isub h d a b)
  | 0x21, 1 => some (.isubb h d a b)
  | 0x22, 0 => some (.imul h d a b)
  | 0x22, 1 => some (.imulh h d a b)
  | 0x22, 2 => some (.imulhN h d a b)
  | 0x23, 0 => some (.imad h d a r c)
  | 0x24, 0 => some (.imin h false d a b)
  | 0x24, 1 => some (.imin h true d a b)
  | 0x25, 0 => some (.imax h false d a b)
  | 0x25, 1 => some (.imax h true d a b)
  | 0x26, 0 => some (.iabs h d a)
  | 0x26, 1 => some (.ineg h d a)
  | 0x27, 0 => some (.idiv h d a b)
  | 0x27, 1 => some (.idivN h d a b)
  | 0x27, 2 => some (.irem h d a b)
  | 0x27, 3 => some (.iremN h d a b)
  | 0x28, 0 => some (.and h d a b)
  | 0x28, 1 => some (.or h d a b)
  | 0x28, 2 => some (.xor h d a b)
  | 0x28, 3 => some (.andn h d a b)
  | 0x28, 4 => some (.not h d a)
  | 0x29, 0 => some (.shl h d a b)
  | 0x29, 1 => some (.shr h d a b)
  | 0x29, 2 => some (.sar h d a b)
  | 0x29, 3 => some (.rot h d a b)
  | 0x2A, 0 => some (.bfx h false d a b)
  | 0x2A, 1 => some (.bfx h true d a b)
  | 0x2B, 0 => some (.bfi h d a r c)
  | 0x2C, 0 => some (.popc h d a)
  | 0x2C, 1 => some (.clz h d a)
  | 0x2C, 2 => some (.brev h d a)
  | 0x2D, 0 => if x.mt 0 then some (.selZ h d a r c) else some (.sel h d a r)
  | 0x2E, f => (ICond.ofCode f).map fun q => .iset h q (if x.mt 0 then some d else none) a b
  | 0x30, 0 => some (.mov h d a)
  | 0x30, 1 => some (.movi h (regOpd u (x.a / 128 == 1) false x.d) (BitVec.ofNat 2 x.a) x.imm32)
  | 0x30, 2 => some (.retag h (x.mb 0 2) d a)
  | 0x31, 0 => some (.cadd h d a b)
  | 0x32, 0 => some (.cmk h d a)
  | 0x33, 0 => some (.clen h d a)
  | 0x34, 0 => some (.crst h d a r)
  | _, _ => none

/-- Floating and special words: majors 0x40 to 0x54. -/
def parseFloat (u : Core) (h : Hdr) (x : Fields) : Option Instr :=
  let d := x.opD u
  let a := x.opA u
  let b := x.opB u
  let c := x.plC u
  let rnd := Rnd.ofCode x.fn
  match x.maj with
  | 0x40 => rnd.map fun r => .fadd h r d a b
  | 0x41 => rnd.map fun r => .fsub h r d a b
  | 0x42 => rnd.map fun r => .fmul h r d a b
  | 0x43 => rnd.map fun r => .ffma h r d a b c
  | 0x44 =>
    match x.fn with
    | 0 => some (.fmin h d a b)
    | 1 => some (.fmax h d a b)
    | 2 => some (.fminm h d a b)
    | 3 => some (.fmaxm h d a b)
    | _ => none
  | 0x45 => (FCond.ofCode x.fn).map fun q => .fset h q (if x.mt 0 then some d else none) a b
  | 0x46 => if x.fn = 0 then some (.fclass h d a) else none
  | 0x47 => rnd.map fun r => .frnd h r (x.mt 0) d a
  | 0x48 => rnd.map fun r => .f2i h r (x.mt 0) d a
  | 0x49 => rnd.map fun r => .i2f h r (x.mt 0) d a
  | 0x4A => rnd.map fun r => .fpk h r d a b
  | 0x4B => if x.fn < 2 then some (.fupk h (x.fn == 1) d a) else none
  | 0x4C => rnd.map fun r => .badd2 h r d a b
  | 0x4D => rnd.map fun r => .bmul2 h r d a b
  | 0x4E => rnd.map fun r => .bfma2 h r d a b c
  | 0x4F =>
    match x.fn with
    | 0 => some (.bmin2 h d a b)
    | 1 => some (.bmax2 h d a b)
    | _ => none
  | 0x50 => if x.fn = 0 then some (.ftwos h d a b) else none
  | 0x51 => if x.fn = 0 then some (.ftwop h d a b) else none
  | 0x52 =>
    match x.fn with
    | 0 => some (.frcp h d a)
    | 1 => some (.frsq h d a)
    | 2 => some (.fsqrt h d a)
    | 3 => some (.fexp2 h d a)
    | 4 => some (.flog2 h d a)
    | 5 => some (.fsint h d a)
    | 6 => some (.fcost h d a)
    | 7 => some (.ftanh h d a)
    | _ => none
  | 0x53 => if x.fn = 0 then some (.rota h d a b) else none
  | 0x54 => rnd.map fun r => .fdiv h r d a b
  | _ => none

/-- Cross-lane words: majors 0x60 to 0x65. -/
def parseCross (u : Core) (h : Hdr) (x : Fields) : Option Instr :=
  let d := x.opD u
  let a := x.opA u
  let b := x.opB u
  match x.maj, x.fn with
  | 0x60, 0 => some (.shflIdx h d a b)
  | 0x60, 1 => some (.shflUp h d a b)
  | 0x60, 2 => some (.shflDown h d a b)
  | 0x60, 3 => some (.shflXor h d a b)
  | 0x61, 0 => some (.pswp h .plain d a)
  | 0x61, 1 => some (.pswp h .lo d a)
  | 0x61, 2 => some (.pswp h .hi d a)
  | 0x62, 0 => some (.voteAny h (x.mt 0) d a)
  | 0x62, 1 => some (.voteAll h (x.mt 0) d a)
  | 0x62, 2 => some (.voteBallot h d a)
  | 0x63, 0 => some (.reduxAddI32 h d a)
  | 0x63, 1 => some (.reduxAddF32 h d a)
  | 0x63, 2 => some (.reduxMin h d a)
  | 0x63, 3 => some (.reduxMax h d a)
  | 0x63, 4 => some (.reduxMinN h d a)
  | 0x63, 5 => some (.reduxMaxN h d a)
  | 0x63, 6 => some (.reduxFmin h d a)
  | 0x63, 7 => some (.reduxFmax h d a)
  | 0x63, 8 => some (.reduxAnd h d a)
  | 0x63, 9 => some (.reduxOr h d a)
  | 0x63, 10 => some (.reduxXor h d a)
  | 0x64, 0 => (RedOp.ofCode (x.mb 0 4)).map fun o => .scan h false o d a
  | 0x64, 1 => (RedOp.ofCode (x.mb 0 4)).map fun o => .scan h true o d a
  | 0x65, 0 => some (.rdln h (x.mt 0) d)
  | _, _ => none

/-- Memory words: majors 0x70 to 0x7E. The function of a *mem* word holds its scale and its strong bit (R61). -/
def parseMemory (u : Core) (h : Hdr) (x : Fields) : Option Instr :=
  let d := x.plD u
  let a := x.plA u
  let b := x.plB u
  let c := x.plC u
  let scl := BitVec.ofNat 2 (x.fn / 2)
  let strong := x.fn % 2 == 1
  let conv : BitVec 5 := x.mb 0 5
  match x.maj with
  | 0x70 =>
    if strong then (Scope.ofCode (x.mb 8 3)).map fun sc => .ldStrong h scl sc conv d a b
    else some (.ld h scl (x.mb 8 4) (x.mb 5 3) conv d a b x.cref)
  | 0x71 =>
    if strong then (Scope.ofCode (x.mb 8 3)).map fun sc => .ldk h scl (.strong sc) conv d a b .none
    else some (.ldk h scl (.weak (x.mb 8 4) (x.mb 5 3)) conv d a b x.cref)
  | 0x72 =>
    if strong then (Scope.ofCode (x.mb 8 3)).map fun sc => .stStrong h scl sc (x.mt 11) (x.mt 5) conv a b c
    else some (.st h scl (x.mt 11) (x.mt 5) conv a b c)
  | 0x73 =>
    if strong then (Scope.ofCode (x.mb 8 3)).map fun sc => .stk h scl (some sc) (x.mt 11) (x.mt 5) conv a b c
    else some (.stk h scl none (x.mt 11) (x.mt 5) conv a b c)
  | 0x74 =>
    match x.fn with
    | 0 => some (.ldh h (x.mb 8 2) conv d a b)
    | 1 => some (.ldhWf h (x.mb 8 2) conv d a b)
    | 2 => some (.ldhWfe h (x.mb 8 2) conv d a b)
    | _ => none
  | 0x75 =>
    match x.fn with
    | 0 => some (.sth h (x.mb 8 2) (x.mt 11) conv a b c)
    | 1 => some (.sthSf h (x.mb 8 2) (x.mt 11) conv a b c)
    | 2 => some (.sthWesf h (x.mb 8 2) (x.mt 11) conv a b c)
    | _ => none
  | 0x76 => if x.fn = 0 then some (.smap h (x.mb 0 3) x.a x.b x.c) else none
  | 0x77 =>
    match x.fn with
    | 0 => some (.sunmap h (x.mb 0 3))
    | 1 => some (.sflush h (x.mb 0 3))
    | _ => none
  | 0x78 =>
    match x.fn with
    | 0 => some (.tpl h a)
    | 1 => some (.tplT h)
    | _ => none
  | 0x79 => if x.fn = 0 then some (.acpt h d) else none
  | 0x7A => if x.fn = 0 then some (.redem h d) else none
  | 0x7B => some (.pft h scl (x.mb 8 4) (x.mb 6 2) (x.mt 5) a b)
  | 0x7C => if x.fn = 0 then some (.gath h (x.mb 6 2) x.d x.a x.b x.c) else none
  | 0x7D =>
    match x.fn with
    | 0 => some (.scatAddF32 h x.d x.a x.b x.c)
    | 1 => some (.scatAddI32 h x.d x.a x.b x.c)
    | 2 => some (.scatMin h x.d x.a x.b x.c)
    | 3 => some (.scatMax h x.d x.a x.b x.c)
    | 4 => some (.scatOr h x.d x.a x.b x.c)
    | _ => none
  | 0x7E => if x.fn = 0 then some (.tclr h) else none
  | _ => none

/-- Atomic, synchronisation, tarnish and bench-side Anvil words: majors 0x90 to 0xB4. -/
def parseSync (u : Core) (h : Hdr) (x : Fields) : Option Instr :=
  let d := x.plD u
  let a := x.plA u
  let b := x.plB u
  let c := x.plC u
  let ty : BitVec 2 := x.mb 3 2
  let scl : BitVec 2 := x.mb 6 2
  let tscl : BitVec 2 := x.mb 8 2
  match x.maj, x.fn with
  | 0x90, 0 => (Scope.ofCode (x.mb 8 3)).map fun sc => .atAdd h sc scl ty d a b c
  | 0x90, 1 => (Scope.ofCode (x.mb 8 3)).map fun sc => .atMin h sc scl ty d a b c
  | 0x90, 2 => (Scope.ofCode (x.mb 8 3)).map fun sc => .atMax h sc scl ty d a b c
  | 0x90, 3 => (Scope.ofCode (x.mb 8 3)).map fun sc => .atAnd h sc scl ty d a b c
  | 0x90, 4 => (Scope.ofCode (x.mb 8 3)).map fun sc => .atOr h sc scl ty d a b c
  | 0x90, 5 => (Scope.ofCode (x.mb 8 3)).map fun sc => .atXor h sc scl ty d a b c
  | 0x90, 6 => (Scope.ofCode (x.mb 8 3)).map fun sc => .atExch h sc scl ty d a b c
  | 0x90, 7 => (Scope.ofCode (x.mb 8 3)).map fun sc => .atCas h sc scl ty d a b c
  | 0x91, 0 => (Scope.ofCode (x.mb 8 3)).map fun sc => .redAdd h sc scl ty a b c
  | 0x91, 1 => (Scope.ofCode (x.mb 8 3)).map fun sc => .redMin h sc scl ty a b c
  | 0x91, 2 => (Scope.ofCode (x.mb 8 3)).map fun sc => .redMax h sc scl ty a b c
  | 0x91, 3 => (Scope.ofCode (x.mb 8 3)).map fun sc => .redAnd h sc scl ty a b c
  | 0x91, 4 => (Scope.ofCode (x.mb 8 3)).map fun sc => .redOr h sc scl ty a b c
  | 0x91, 5 => (Scope.ofCode (x.mb 8 3)).map fun sc => .redXor h sc scl ty a b c
  | 0x92, 0 => if x.mt 0 then some (.bindUn h x.a) else some (.bind h x.d x.a x.b x.c)
  | 0x93, 0 => (Scope.ofCode (x.mb 3 3)).map fun sc => .acq h (x.mb 8 4) sc x.a x.b
  | 0x94, 0 => (Scope.ofCode (x.mb 3 3)).map fun sc => .rel h sc x.a
  | 0x95, 0 => (Scope.ofCode (x.mb 3 3)).map fun sc => .fence h sc
  | 0x96, 0 => some (.publ h x.a)
  | 0xA0, 0 => some (.tld h tscl (x.mb 0 5) d a b)
  | 0xA1, 0 => some (.tst h tscl (x.mt 11) (x.mb 0 5) a b c)
  | 0xA2, 0 => some (.burn h tscl a b)
  | 0xA3, 0 => some (.life h tscl d a b)
  | 0xA4, 0 => some (.tinit h tscl a b)
  | 0xB0, 0 => some (.ofill h (x.mt 11) (x.mt 10) (x.mt 9) (x.mb 0 5) x.d a b c)
  | 0xB0, 1 => some (.ofillAssay h x.d x.a c)
  | 0xB1, 0 => some (.awset h (x.mb 0 5) x.a x.b)
  | 0xB2, 0 => some (.accrd h d a b)
  | 0xB2, 1 => some (.accrdW h d a b)
  | 0xB3, 0 => some (.accwr h a b c)
  | 0xB4, 0 => some (.accrel h a)
  | _, _ => none

/-- Model, attention and fabric words: majors 0xC0 to 0xD3. -/
def parseModel (u : Core) (h : Hdr) (x : Fields) : Option Instr :=
  let d := x.plD u
  let a := x.plA u
  let b := x.plB u
  let c := x.plC u
  match x.maj, x.fn with
  | 0xC0, 0 => some (.lwait h (x.mb 8 4) d a b)
  | 0xC1, 0 => some (.ldone h a b)
  | 0xC2, 0 => some (.lqry h d a b)
  | 0xC3, 0 => some (.kvx h d x.a b c)
  | 0xC4, 0 => some (.pfxh h x.d x.a x.b)
  | 0xC5, 0 => some (.pfxm h x.d x.a x.b)
  | 0xC6, 0 => some (.pfxpPin h x.a x.b)
  | 0xC6, 1 => some (.pfxpUnpin h x.a x.b)
  | 0xC6, 2 => some (.pfxpInsert h x.a x.b x.c)
  | 0xC7, 0 => some (.wqpop h x.d)
  | 0xC8, 0 => (Scope.ofCode (x.mb 3 3)).map fun sc => .larr h sc x.d x.a x.b x.c
  | 0xC9, 0 => some (.rnext h x.d x.a x.b)
  | 0xD0, 0 => some (.xra h (x.mb 9 3) (x.mb 12 4) (x.mb 0 6) x.d x.a x.b x.c)
  | 0xD1, 0 => some (.xrc h x.a x.c)
  | 0xD2, 0 => some (.xrw h x.d x.a)
  | 0xD3, 0 => some (.xrf h x.a)
  | _, _ => none

/-- Words of the control core's own majors 0xF0 to 0xF9 (a bench has none, R58). -/
def parseAnvil (h : Hdr) (x : Fields) : Option Instr :=
  let fmt : BitVec 3 := x.mb 2 3
  let hr : BitVec 3 := x.mb 5 3
  match x.maj, x.fn with
  | 0xF0, 0 => some (.oclm h x.d (x.mb 0 7))
  | 0xF1, 0 => if x.mt 7 then some (.orelRe h x.a (x.mb 0 7)) else some (.orel h x.a (x.mb 0 7))
  | 0xF2, 0 => some (.owait h x.a (x.mb 0 7))
  | 0xF3, 0 => some (.mma h fmt (x.mt 0) x.d x.a x.b)
  | 0xF4, 0 => some (.mmas h (x.mb 5 2) fmt x.d x.a x.b x.c)
  | 0xF5, 0 => some (.mmah h (x.c / 128 == 1) (BitVec.ofNat 6 x.c) (x.mb 8 8) hr fmt (x.mt 1) (x.mt 0) x.d x.a x.b)
  | 0xF6, 0 => some (.assay h (x.mb 8 8) hr (x.mt 4) (x.mt 3) (x.mb 0 3) x.d x.a x.b x.c)
  | 0xF7, 0 => some (.hmopAnd h x.d x.a x.b)
  | 0xF7, 1 => some (.hmopOr h x.d x.a x.b)
  | 0xF7, 2 => some (.hmopAndn h x.d x.a x.b)
  | 0xF7, 3 => some (.hmopSet h x.d (x.mb 8 8) (x.mb 0 8))
  | 0xF7, 4 => some (.hmopClear h x.d (x.mb 8 8) (x.mb 0 8))
  | 0xF7, 5 => some (.hmopCount h x.d x.a (x.mb 8 8) (x.mb 0 8))
  | 0xF8, 0 => some (.accz h x.a x.b)
  | 0xF9, 0 => some (.accsig h x.a x.b)
  | _, _ => none

/-- The instruction whose fields stand in a full word, before the checks. -/
def parse (u : Core) (h : Hdr) (x : Fields) : Option Instr :=
  if x.maj < 0x20 then parseControl u h x
  else if x.maj < 0x40 then parseInteger u h x
  else if x.maj < 0x60 then parseFloat u h x
  else if x.maj < 0x70 then parseCross u h x
  else if x.maj < 0x80 then parseMemory u h x
  else if x.maj < 0xC0 then parseSync u h x
  else if x.maj < 0xE0 then parseModel u h x
  else if u == .acc then parseAnvil h x
  else none

/-! ### From an instruction to fields -/

def Opd.kind (o : Opd) : Nat := if o.isK then 1 else 0
/-- XIS (R44). -/
def xis (d a b : Opd) : Nat := if d.isIdx then 1 else if a.isIdx then 2 else if b.isIdx then 3 else 0

/-- A word with header, major and function. -/
def fields0 (h : Hdr) (maj fn : Nat) : Fields := { sw := h.sw, maj := maj, fn := fn, g := h.g.code }

def noOpd : Opd := .v 0

/-- A word of the classes that have XIS (R42), with `lo` its bits M[7:0]. -/
def fieldsX (h : Hdr) (maj fn : Nat) (d a b c : Opd) (lo : Nat) : Fields :=
  let mk := d.kind * 2 ^ 15 + a.kind * 2 ^ 14 + xis d a b * 2 ^ 8 + lo
  match b with
  | .imm v sx =>
    { fields0 h maj fn with
      d := d.num, a := a.num, b := v.toNat / 256, c := v.toNat % 256, m := mk + 2 ^ 11 + sx.toNat * 2 ^ 10 }
  | _ =>
    { fields0 h maj fn with
      d := d.num, a := a.num, b := b.num, c := c.num, m := mk + b.kind * 2 ^ 13 + c.kind * 2 ^ 12 }

/-- A word whose M has kind bits over `lo`, and no XIS. -/
def fieldsK (h : Hdr) (maj fn : Nat) (d a b c : Opd) (lo : Nat) : Fields :=
  { fields0 h maj fn with
    d := d.num, a := a.num, b := b.num, c := c.num
    m := d.kind * 2 ^ 15 + a.kind * 2 ^ 14 + b.kind * 2 ^ 13 + c.kind * 2 ^ 12 + lo }

/-- A word whose fields are numbers and whose M is fixed. -/
def fieldsN (h : Hdr) (maj fn d a b c m : Nat) : Fields :=
  { fields0 h maj fn with d := d, a := a, b := b, c := c, m := m }

/-- B:C:M from a 32-bit immediate (R45). -/
def fieldsI (h : Hdr) (maj fn d a : Nat) (v : BitVec 32) : Fields :=
  fieldsN h maj fn d a (v.toNat / 2 ^ 24) (v.toNat / 2 ^ 16 % 256) (v.toNat % 2 ^ 16)

def CRef.opd : CRef → Opd
  | .none => noOpd
  | .v n => .v n
  | .k n => .k n

/-- The *mem* function (R61). -/
def memFn (scl : BitVec 2) (strong : Bool) : Nat := scl.toNat * 2 + strong.toNat

def fieldsLoad (h : Hdr) (maj : Nat) (scl : BitVec 2) (mode : LdMode) (conv : BitVec 5) (d a b : Opd) (c : CRef) : Fields :=
  match mode with
  | .weak lim pred => fieldsK h maj (memFn scl false) d a b
      (if lim == 15 && (pred == 4 || pred == 5) then .v c.opd.num else c.opd) (lim.toNat * 2 ^ 8 + pred.toNat * 2 ^ 5 + conv.toNat)
  | .strong sc => fieldsK h maj (memFn scl true) d a b noOpd (sc.code * 2 ^ 8 + conv.toNat)

def fieldsStore (h : Hdr) (maj : Nat) (scl : BitVec 2) (mode : Option Scope) (acc ns : Bool) (conv : BitVec 5) (a b c : Opd) : Fields :=
  fieldsK h maj (memFn scl mode.isSome) noOpd a b c
    (acc.toNat * 2 ^ 11 + (match mode with
      | some sc => sc.code * 2 ^ 8
      | none => 0) + ns.toNat * 2 ^ 5 + conv.toNat)

def fieldsAt (h : Hdr) (maj fn : Nat) (sc : Scope) (scl ty : BitVec 2) (d a b c : Opd) : Fields :=
  fieldsK h maj fn d a b c (sc.code * 2 ^ 8 + scl.toNat * 2 ^ 6 + ty.toNat * 2 ^ 3)

/-- LDH and STH (R177). -/
def fieldsStash (h : Hdr) (maj fn : Nat) (scl : BitVec 2) (acc : Bool) (conv : BitVec 5) (d a b c : Opd) : Fields :=
  fieldsK h maj fn d a b c (acc.toNat * 2 ^ 11 + scl.toNat * 2 ^ 8 + conv.toNat)

/-- The fields of a full-word instruction; events and pair words have none. -/
def fieldsOf (i : Instr) : Option Fields :=
  match i with
  | .nop h => some (fields0 h 0x00 0)
  | .rep sw sd sa sb sc cnt => some (fieldsN ⟨sw, .em⟩ 0x01 0 0 0 0 0
      (sc.toNat * 2 ^ 12 + sb.toNat * 2 ^ 10 + sa.toNat * 2 ^ 8 + sd.toNat * 2 ^ 6 + cnt.toNat))
  | .bra h w => some (fieldsI h 0x02 0 0 0 w)
  | .brc h neg gf w => some (fieldsI h 0x03 neg.toNat 0 gf.toNat w)
  | .jmpi h a => some (fieldsK h 0x04 0 noOpd a noOpd noOpd 0)
  | .call h d w => some (fieldsI h 0x05 0 d.num 0 w)
  | .ret h a => some (fieldsK h 0x06 0 noOpd a noOpd noOpd 0)
  | .join h tile => some (fields0 h 0x07 tile.toNat)
  | .exit h => some (fields0 h 0x08 0)
  | .tail h => some (fields0 h 0x09 0)
  | .yield h => some (fields0 h 0x0A 0)
  | .trap h code => some (fieldsN h 0x0B 0 0 0 0 0 code.toNat)
  | .tretReplay h => some (fields0 h 0x0C 0)
  | .tretResume h => some (fields0 h 0x0C 1)
  | .waitw h cd d a b c tmo scl sc => some (fieldsK h 0x0D cd.code d a b c (tmo.toNat * 2 ^ 8 + scl.toNat * 2 ^ 6 + sc.code * 2 ^ 3))
  | .barArriveWait h n => some (fieldsN h 0x0E 0 0 0 0 0 n.toNat)
  | .barArrive h n => some (fieldsN h 0x0E 1 0 0 0 0 n.toNat)
  | .barWait h n => some (fieldsN h 0x0E 2 0 0 0 0 n.toNat)
  | .rdsr h d sr => some (fieldsK h 0x0F 0 d noOpd noOpd noOpd sr.code)
  | .wrsr h sr a => some (fieldsK h 0x0F 1 noOpd a noOpd noOpd sr.code)
  | .ems sw kd => some (fieldsN ⟨sw, .em⟩ 0x10 0 kd 0 0 0 0)
  | .eml sw gf ka => some (fieldsN ⟨sw, .em⟩ 0x10 1 0 ka 0 0 gf.toNat)
  | .ema sw gf => some (fieldsN ⟨sw, .em⟩ 0x10 2 0 0 0 0 gf.toNat)
  | .emn sw gf => some (fieldsN ⟨sw, .em⟩ 0x10 3 0 0 0 0 gf.toNat)
  | .emo sw gf => some (fieldsN ⟨sw, .em⟩ 0x10 4 0 0 0 0 gf.toNat)
  | .cms sw p kd => some (fieldsN ⟨sw, .em⟩ 0x10 5 kd 0 0 0 p.toNat)
  | .cml sw p ka => some (fieldsN ⟨sw, .em⟩ 0x10 6 0 ka 0 0 p.toNat)
  | .cmx sw op ka => some (fieldsN ⟨sw, .em⟩ 0x10 7 0 ka 0 0 op.toNat)
  | .part h sz => some (fieldsN h 0x11 0 0 0 0 0 sz.toNat)
  | .xiset h (.imm v) => some (fieldsN h 0x12 0 0 0 0 0 (2 ^ 8 + v.toNat))
  | .xiset h (.k n) => some (fieldsN h 0x12 0 0 n 0 0 0)
  | .lnch h ka => some (fieldsN h 0x13 0 0 ka 0 0 0)
  | .wcan h lvl ka => some (fieldsN h 0x14 lvl.toNat 0 ka 0 0 0)
  | .movwWrite h w k => some (fieldsN h 0x15 0 w k 0 0 0)
  | .movwRead h k w => some (fieldsN h 0x15 1 k w 0 0 0)
  | .iadd h d a b => some (fieldsX h 0x20 0 d a b noOpd 0)
  | .iaddc h d a b => some (fieldsX h 0x20 1 d a b noOpd 0)
  | .isub h d a b => some (fieldsX h 0x21 0 d a b noOpd 0)
  | .isubb h d a b => some (fieldsX h 0x21 1 d a b noOpd 0)
  | .imul h d a b => some (fieldsX h 0x22 0 d a b noOpd 0)
  | .imulh h d a b => some (fieldsX h 0x22 1 d a b noOpd 0)
  | .imulhN h d a b => some (fieldsX h 0x22 2 d a b noOpd 0)
  | .imad h d a b c => some (fieldsX h 0x23 0 d a b c 0)
  | .imin h n d a b => some (fieldsX h 0x24 n.toNat d a b noOpd 0)
  | .imax h n d a b => some (fieldsX h 0x25 n.toNat d a b noOpd 0)
  | .iabs h d a => some (fieldsX h 0x26 0 d a noOpd noOpd 0)
  | .ineg h d a => some (fieldsX h 0x26 1 d a noOpd noOpd 0)
  | .idiv h d a b => some (fieldsX h 0x27 0 d a b noOpd 0)
  | .idivN h d a b => some (fieldsX h 0x27 1 d a b noOpd 0)
  | .irem h d a b => some (fieldsX h 0x27 2 d a b noOpd 0)
  | .iremN h d a b => some (fieldsX h 0x27 3 d a b noOpd 0)
  | .and h d a b => some (fieldsX h 0x28 0 d a b noOpd 0)
  | .or h d a b => some (fieldsX h 0x28 1 d a b noOpd 0)
  | .xor h d a b => some (fieldsX h 0x28 2 d a b noOpd 0)
  | .andn h d a b => some (fieldsX h 0x28 3 d a b noOpd 0)
  | .not h d a => some (fieldsX h 0x28 4 d a noOpd noOpd 0)
  | .shl h d a b => some (fieldsX h 0x29 0 d a b noOpd 0)
  | .shr h d a b => some (fieldsX h 0x29 1 d a b noOpd 0)
  | .sar h d a b => some (fieldsX h 0x29 2 d a b noOpd 0)
  | .rot h d a b => some (fieldsX h 0x29 3 d a b noOpd 0)
  | .bfx h sg d a b => some (fieldsX h 0x2A sg.toNat d a b noOpd 0)
  | .bfi h d a b c => some (fieldsX h 0x2B 0 d a b c 0)
  | .popc h d a => some (fieldsX h 0x2C 0 d a noOpd noOpd 0)
  | .clz h d a => some (fieldsX h 0x2C 1 d a noOpd noOpd 0)
  | .brev h d a => some (fieldsX h 0x2C 2 d a noOpd noOpd 0)
  | .sel h d a b => some (fieldsX h 0x2D 0 d a b noOpd 0)
  | .selZ h d a b c => some (fieldsX h 0x2D 0 d a b c 1)
  | .iset h q none a b => some (fieldsX h 0x2E q.code noOpd a b noOpd 0)
  | .iset h q (some d) a b => some (fieldsX h 0x2E q.code d a b noOpd 1)
  | .mov h d a => some (fieldsX h 0x30 0 d a noOpd noOpd 0)
  | .movi h d tag v => some (fieldsI h 0x30 1 d.num (d.kind * 128 + tag.toNat) v)
  | .retag h tag d a => some (fieldsX h 0x30 2 d a noOpd noOpd tag.toNat)
  | .cadd h d a b => some (fieldsX h 0x31 0 d a b noOpd 0)
  | .cmk h d a => some (fieldsX h 0x32 0 d a noOpd noOpd 0)
  | .clen h d a => some (fieldsX h 0x33 0 d a noOpd noOpd 0)
  | .crst h d a b => some (fieldsX h 0x34 0 d a b noOpd 0)
  | .fadd h r d a b => some (fieldsX h 0x40 r.code d a b noOpd 0)
  | .fsub h r d a b => some (fieldsX h 0x41 r.code d a b noOpd 0)
  | .fmul h r d a b => some (fieldsX h 0x42 r.code d a b noOpd 0)
  | .ffma h r d a b c => some (fieldsX h 0x43 r.code d a b c 0)
  | .fmin h d a b => some (fieldsX h 0x44 0 d a b noOpd 0)
  | .fmax h d a b => some (fieldsX h 0x44 1 d a b noOpd 0)
  | .fminm h d a b => some (fieldsX h 0x44 2 d a b noOpd 0)
  | .fmaxm h d a b => some (fieldsX h 0x44 3 d a b noOpd 0)
  | .fset h q none a b => some (fieldsX h 0x45 q.code noOpd a b noOpd 0)
  | .fset h q (some d) a b => some (fieldsX h 0x45 q.code d a b noOpd 1)
  | .fclass h d a => some (fieldsX h 0x46 0 d a noOpd noOpd 0)
  | .frnd h r x d a => some (fieldsX h 0x47 r.code d a noOpd noOpd x.toNat)
  | .f2i h r n d a => some (fieldsX h 0x48 r.code d a noOpd noOpd n.toNat)
  | .i2f h r n d a => some (fieldsX h 0x49 r.code d a noOpd noOpd n.toNat)
  | .fpk h r d a b => some (fieldsX h 0x4A r.code d a b noOpd 0)
  | .fupk h hi d a => some (fieldsX h 0x4B hi.toNat d a noOpd noOpd 0)
  | .badd2 h r d a b => some (fieldsX h 0x4C r.code d a b noOpd 0)
  | .bmul2 h r d a b => some (fieldsX h 0x4D r.code d a b noOpd 0)
  | .bfma2 h r d a b c => some (fieldsX h 0x4E r.code d a b c 0)
  | .bmin2 h d a b => some (fieldsX h 0x4F 0 d a b noOpd 0)
  | .bmax2 h d a b => some (fieldsX h 0x4F 1 d a b noOpd 0)
  | .ftwos h d a b => some (fieldsX h 0x50 0 d a b noOpd 0)
  | .ftwop h d a b => some (fieldsX h 0x51 0 d a b noOpd 0)
  | .frcp h d a => some (fieldsX h 0x52 0 d a noOpd noOpd 0)
  | .frsq h d a => some (fieldsX h 0x52 1 d a noOpd noOpd 0)
  | .fsqrt h d a => some (fieldsX h 0x52 2 d a noOpd noOpd 0)
  | .fexp2 h d a => some (fieldsX h 0x52 3 d a noOpd noOpd 0)
  | .flog2 h d a => some (fieldsX h 0x52 4 d a noOpd noOpd 0)
  | .fsint h d a => some (fieldsX h 0x52 5 d a noOpd noOpd 0)
  | .fcost h d a => some (fieldsX h 0x52 6 d a noOpd noOpd 0)
  | .ftanh h d a => some (fieldsX h 0x52 7 d a noOpd noOpd 0)
  | .rota h d a b => some (fieldsX h 0x53 0 d a b noOpd 0)
  | .fdiv h r d a b => some (fieldsX h 0x54 r.code d a b noOpd 0)
  | .shflIdx h d a b => some (fieldsX h 0x60 0 d a b noOpd 0)
  | .shflUp h d a b => some (fieldsX h 0x60 1 d a b noOpd 0)
  | .shflDown h d a b => some (fieldsX h 0x60 2 d a b noOpd 0)
  | .shflXor h d a b => some (fieldsX h 0x60 3 d a b noOpd 0)
  | .pswp h .plain d a => some (fieldsX h 0x61 0 d a noOpd noOpd 0)
  | .pswp h .lo d a => some (fieldsX h 0x61 1 d a noOpd noOpd 0)
  | .pswp h .hi d a => some (fieldsX h 0x61 2 d a noOpd noOpd 0)
  | .voteAny h w d a => some (fieldsX h 0x62 0 d a noOpd noOpd w.toNat)
  | .voteAll h w d a => some (fieldsX h 0x62 1 d a noOpd noOpd w.toNat)
  | .voteBallot h d a => some (fieldsX h 0x62 2 d a noOpd noOpd 0)
  | .reduxAddI32 h d a => some (fieldsX h 0x63 0 d a noOpd noOpd 0)
  | .reduxAddF32 h d a => some (fieldsX h 0x63 1 d a noOpd noOpd 0)
  | .reduxMin h d a => some (fieldsX h 0x63 2 d a noOpd noOpd 0)
  | .reduxMax h d a => some (fieldsX h 0x63 3 d a noOpd noOpd 0)
  | .reduxMinN h d a => some (fieldsX h 0x63 4 d a noOpd noOpd 0)
  | .reduxMaxN h d a => some (fieldsX h 0x63 5 d a noOpd noOpd 0)
  | .reduxFmin h d a => some (fieldsX h 0x63 6 d a noOpd noOpd 0)
  | .reduxFmax h d a => some (fieldsX h 0x63 7 d a noOpd noOpd 0)
  | .reduxAnd h d a => some (fieldsX h 0x63 8 d a noOpd noOpd 0)
  | .reduxOr h d a => some (fieldsX h 0x63 9 d a noOpd noOpd 0)
  | .reduxXor h d a => some (fieldsX h 0x63 10 d a noOpd noOpd 0)
  | .scan h ex o d a => some (fieldsX h 0x64 ex.toNat d a noOpd noOpd o.code)
  | .rdln h tile d => some (fieldsX h 0x65 0 d noOpd noOpd noOpd tile.toNat)
  | .ld h scl lim pred conv d a b c => some (fieldsLoad h 0x70 scl (.weak lim pred) conv d a b c)
  | .ldStrong h scl sc conv d a b => some (fieldsLoad h 0x70 scl (.strong sc) conv d a b .none)
  | .ldk h scl mode conv d a b c => some (fieldsLoad h 0x71 scl mode conv d a b c)
  | .st h scl acc ns conv a b c => some (fieldsStore h 0x72 scl none acc ns conv a b c)
  | .stStrong h scl sc acc ns conv a b c => some (fieldsStore h 0x72 scl (some sc) acc ns conv a b c)
  | .stk h scl mode acc ns conv a b c => some (fieldsStore h 0x73 scl mode acc ns conv a b c)
  | .ldh h scl conv d a b => some (fieldsStash h 0x74 0 scl false conv d a b noOpd)
  | .ldhWf h scl conv d a b => some (fieldsStash h 0x74 1 scl false conv d a b noOpd)
  | .ldhWfe h scl conv d a b => some (fieldsStash h 0x74 2 scl false conv d a b noOpd)
  | .sth h scl acc conv a b c => some (fieldsStash h 0x75 0 scl acc conv noOpd a b c)
  | .sthSf h scl acc conv a b c => some (fieldsStash h 0x75 1 scl acc conv noOpd a b c)
  | .sthWesf h scl acc conv a b c => some (fieldsStash h 0x75 2 scl acc conv noOpd a b c)
  | .smap h n a b c => some (fieldsN h 0x76 0 0 a b c (0x7000 + n.toNat))
  | .sunmap h n => some (fieldsN h 0x77 0 0 0 0 0 n.toNat)
  | .sflush h n => some (fieldsN h 0x77 1 0 0 0 0 n.toNat)
  | .tpl h a => some (fieldsK h 0x78 0 noOpd a noOpd noOpd 0)
  | .tplT h => some (fields0 h 0x78 1)
  | .acpt h d => some (fieldsK h 0x79 0 d noOpd noOpd noOpd 0)
  | .redem h d => some (fieldsK h 0x7A 0 d noOpd noOpd noOpd 0)
  | .pft h scl lim lvl line a b => some (fieldsK h 0x7B (memFn scl false) noOpd a b noOpd
      (lim.toNat * 2 ^ 8 + lvl.toNat * 2 ^ 6 + line.toNat * 2 ^ 5))
  | .gath h esz d a b c => some (fieldsN h 0x7C 0 d a b c (0xF000 + esz.toNat * 2 ^ 6))
  | .scatAddF32 h d a b c => some (fieldsN h 0x7D 0 d a b c 0xF000)
  | .scatAddI32 h d a b c => some (fieldsN h 0x7D 1 d a b c 0xF000)
  | .scatMin h d a b c => some (fieldsN h 0x7D 2 d a b c 0xF000)
  | .scatMax h d a b c => some (fieldsN h 0x7D 3 d a b c 0xF000)
  | .scatOr h d a b c => some (fieldsN h 0x7D 4 d a b c 0xF000)
  | .tclr h => some (fields0 h 0x7E 0)
  | .atAdd h sc scl ty d a b c => some (fieldsAt h 0x90 0 sc scl ty d a b c)
  | .atMin h sc scl ty d a b c => some (fieldsAt h 0x90 1 sc scl ty d a b c)
  | .atMax h sc scl ty d a b c => some (fieldsAt h 0x90 2 sc scl ty d a b c)
  | .atAnd h sc scl ty d a b c => some (fieldsAt h 0x90 3 sc scl ty d a b c)
  | .atOr h sc scl ty d a b c => some (fieldsAt h 0x90 4 sc scl ty d a b c)
  | .atXor h sc scl ty d a b c => some (fieldsAt h 0x90 5 sc scl ty d a b c)
  | .atExch h sc scl ty d a b c => some (fieldsAt h 0x90 6 sc scl ty d a b c)
  | .atCas h sc scl ty d a b c => some (fieldsAt h 0x90 7 sc scl ty d a b c)
  | .redAdd h sc scl ty a b c => some (fieldsAt h 0x91 0 sc scl ty noOpd a b c)
  | .redMin h sc scl ty a b c => some (fieldsAt h 0x91 1 sc scl ty noOpd a b c)
  | .redMax h sc scl ty a b c => some (fieldsAt h 0x91 2 sc scl ty noOpd a b c)
  | .redAnd h sc scl ty a b c => some (fieldsAt h 0x91 3 sc scl ty noOpd a b c)
  | .redOr h sc scl ty a b c => some (fieldsAt h 0x91 4 sc scl ty noOpd a b c)
  | .redXor h sc scl ty a b c => some (fieldsAt h 0x91 5 sc scl ty noOpd a b c)
  | .bind h d a b c => some (fieldsN h 0x92 0 d a b c 0xF000)
  | .bindUn h a => some (fieldsN h 0x92 0 0 a 0 0 0x4001)
  | .acq h tmo sc a b => some (fieldsN h 0x93 0 0 a b 0 (0x6000 + tmo.toNat * 2 ^ 8 + sc.code * 2 ^ 3))
  | .rel h sc a => some (fieldsN h 0x94 0 0 a 0 0 (0x4000 + sc.code * 2 ^ 3))
  | .fence h sc => some (fieldsN h 0x95 0 0 0 0 0 (sc.code * 2 ^ 3))
  | .publ h a => some (fieldsN h 0x96 0 0 a 0 0 0x4000)
  | .tld h scl conv d a b => some (fieldsStash h 0xA0 0 scl false conv d a b noOpd)
  | .tst h scl acc conv a b c => some (fieldsStash h 0xA1 0 scl acc conv noOpd a b c)
  | .burn h scl a b => some (fieldsStash h 0xA2 0 scl false 0 noOpd a b noOpd)
  | .life h scl d a b => some (fieldsStash h 0xA3 0 scl false 0 d a b noOpd)
  | .tinit h scl a b => some (fieldsStash h 0xA4 0 scl false 0 noOpd a b noOpd)
  | .ofill h rf ns sb conv d a b c => some (fieldsK h 0xB0 0 (.k d) a b c
      (rf.toNat * 2 ^ 11 + ns.toNat * 2 ^ 10 + sb.toNat * 2 ^ 9 + conv.toNat))
  | .ofillAssay h d a c => some (fieldsK h 0xB0 1 (.k d) (.k a) noOpd c 0)
  | .awset h w a b => some (fieldsN h 0xB1 0 0 a b 0 (0x6000 + w.toNat))
  | .accrd h d a b => some (fieldsK h 0xB2 0 d a b noOpd 0)
  | .accrdW h d a b => some (fieldsK h 0xB2 1 d a b noOpd 0)
  | .accwr h a b c => some (fieldsK h 0xB3 0 noOpd a b c 0)
  | .accrel h a => some (fieldsK h 0xB4 0 noOpd a noOpd noOpd 0)
  | .lwait h tmo d a b => some (fieldsK h 0xC0 0 d a b noOpd (tmo.toNat * 2 ^ 8))
  | .ldone h a b => some (fieldsK h 0xC1 0 noOpd a b noOpd 0)
  | .lqry h d a b => some (fieldsK h 0xC2 0 d a b noOpd 0)
  | .kvx h d a b c => some (fieldsK h 0xC3 0 d (.k a) b c 0)
  | .pfxh h d a b => some (fieldsN h 0xC4 0 d a b 0 0xE000)
  | .pfxm h d a b => some (fieldsN h 0xC5 0 d a b 0 0xE000)
  | .pfxpPin h a b => some (fieldsN h 0xC6 0 0 a b 0 0x6000)
  | .pfxpUnpin h a b => some (fieldsN h 0xC6 1 0 a b 0 0x6000)
  | .pfxpInsert h a b c => some (fieldsN h 0xC6 2 0 a b c 0x7000)
  | .wqpop h d => some (fieldsN h 0xC7 0 d 0 0 0 0x8000)
  | .larr h sc d a b c => some (fieldsN h 0xC8 0 d a b c (0xF000 + sc.code * 2 ^ 3))
  | .rnext h d a b => some (fieldsN h 0xC9 0 d a b 0 0xE000)
  | .xra h op tmo n1 d a b c => some (fieldsN h 0xD0 0 d a b c (tmo.toNat * 2 ^ 12 + op.toNat * 2 ^ 9 + n1.toNat))
  | .xrc h a c => some (fieldsN h 0xD1 0 0 a 0 c 0)
  | .xrw h d a => some (fieldsN h 0xD2 0 d a 0 0 0)
  | .xrf h a => some (fieldsN h 0xD3 0 0 a 0 0 0)
  | .oclm h d n => some (fieldsN h 0xF0 0 d 0 0 0 n.toNat)
  | .orel h a n => some (fieldsN h 0xF1 0 0 a 0 0 n.toNat)
  | .orelRe h a n => some (fieldsN h 0xF1 0 0 a 0 0 (2 ^ 7 + n.toNat))
  | .owait h a n => some (fieldsN h 0xF2 0 0 a 0 0 n.toNat)
  | .mma h fmt mx d a b => some (fieldsN h 0xF3 0 d a b 0 (fmt.toNat * 2 ^ 2 + mx.toNat))
  | .mmas h pat fmt d a b c => some (fieldsN h 0xF4 0 d a b c (pat.toNat * 2 ^ 5 + fmt.toNat * 2 ^ 2))
  | .mmah h pv cnt1 bit hr fmt fill mx d a b => some (fieldsN h 0xF5 0 d a b (pv.toNat * 128 + cnt1.toNat)
      (bit.toNat * 2 ^ 8 + hr.toNat * 2 ^ 5 + fmt.toNat * 2 ^ 2 + fill.toNat * 2 + mx.toNat))
  | .assay h bit hr sink loc cnt1 d a b c => some (fieldsN h 0xF6 0 d a b c
      (bit.toNat * 2 ^ 8 + hr.toNat * 2 ^ 5 + sink.toNat * 2 ^ 4 + loc.toNat * 2 ^ 3 + cnt1.toNat))
  | .hmopAnd h d a b => some (fieldsN h 0xF7 0 d a b 0 0)
  | .hmopOr h d a b => some (fieldsN h 0xF7 1 d a b 0 0)
  | .hmopAndn h d a b => some (fieldsN h 0xF7 2 d a b 0 0)
  | .hmopSet h d lo n1 => some (fieldsN h 0xF7 3 d 0 0 0 (lo.toNat * 2 ^ 8 + n1.toNat))
  | .hmopClear h d lo n1 => some (fieldsN h 0xF7 4 d 0 0 0 (lo.toNat * 2 ^ 8 + n1.toNat))
  | .hmopCount h d a lo n1 => some (fieldsN h 0xF7 5 d a 0 0 (lo.toNat * 2 ^ 8 + n1.toNat))
  | .accz h a b => some (fieldsN h 0xF8 0 0 a b 0 0)
  | .accsig h a b => some (fieldsN h 0xF9 0 0 a b 0 0)
  | _ => none

/-! ### Pair words (R47 to R49) -/

/-- The instruction of a pair word with half H0 `op0`, `h0`. -/
def mkPair (sw : Bool) (op0 : HalfOp) (h0 : HalfArgs) (h1 : Half) : Instr :=
  match op0 with
  | .nop => .pairNop sw h1
  | .iadd => .pairIadd sw h0 h1
  | .isub => .pairIsub sw h0 h1
  | .imul => .pairImul sw h0 h1
  | .imin => .pairImin sw h0 h1
  | .imax => .pairImax sw h0 h1
  | .iminN => .pairIminN sw h0 h1
  | .imaxN => .pairImaxN sw h0 h1
  | .and => .pairAnd sw h0 h1
  | .or => .pairOr sw h0 h1
  | .xor => .pairXor sw h0 h1
  | .andn => .pairAndn sw h0 h1
  | .shl => .pairShl sw h0 h1
  | .shr => .pairShr sw h0 h1
  | .sar => .pairSar sw h0 h1
  | .rot => .pairRot sw h0 h1
  | .mov => .pairMov sw h0 h1
  | .fadd => .pairFadd sw h0 h1
  | .fsub => .pairFsub sw h0 h1
  | .fmul => .pairFmul sw h0 h1
  | .fmin => .pairFmin sw h0 h1
  | .fmax => .pairFmax sw h0 h1
  | .badd2 => .pairBadd2 sw h0 h1
  | .bmul2 => .pairBmul2 sw h0 h1
  | .bmin2 => .pairBmin2 sw h0 h1
  | .bmax2 => .pairBmax2 sw h0 h1

/-- A pair word taken apart again: its S, its H0 and its H1; none for anything else. -/
def unPair (u : Core) : Instr → Option (Bool × Half × Half)
  | .pairNop sw h1 => some (sw, ⟨.nop, HalfArgs.none u⟩, h1)
  | .pairIadd sw h0 h1 => some (sw, ⟨.iadd, h0⟩, h1)
  | .pairIsub sw h0 h1 => some (sw, ⟨.isub, h0⟩, h1)
  | .pairImul sw h0 h1 => some (sw, ⟨.imul, h0⟩, h1)
  | .pairImin sw h0 h1 => some (sw, ⟨.imin, h0⟩, h1)
  | .pairImax sw h0 h1 => some (sw, ⟨.imax, h0⟩, h1)
  | .pairIminN sw h0 h1 => some (sw, ⟨.iminN, h0⟩, h1)
  | .pairImaxN sw h0 h1 => some (sw, ⟨.imaxN, h0⟩, h1)
  | .pairAnd sw h0 h1 => some (sw, ⟨.and, h0⟩, h1)
  | .pairOr sw h0 h1 => some (sw, ⟨.or, h0⟩, h1)
  | .pairXor sw h0 h1 => some (sw, ⟨.xor, h0⟩, h1)
  | .pairAndn sw h0 h1 => some (sw, ⟨.andn, h0⟩, h1)
  | .pairShl sw h0 h1 => some (sw, ⟨.shl, h0⟩, h1)
  | .pairShr sw h0 h1 => some (sw, ⟨.shr, h0⟩, h1)
  | .pairSar sw h0 h1 => some (sw, ⟨.sar, h0⟩, h1)
  | .pairRot sw h0 h1 => some (sw, ⟨.rot, h0⟩, h1)
  | .pairMov sw h0 h1 => some (sw, ⟨.mov, h0⟩, h1)
  | .pairFadd sw h0 h1 => some (sw, ⟨.fadd, h0⟩, h1)
  | .pairFsub sw h0 h1 => some (sw, ⟨.fsub, h0⟩, h1)
  | .pairFmul sw h0 h1 => some (sw, ⟨.fmul, h0⟩, h1)
  | .pairFmin sw h0 h1 => some (sw, ⟨.fmin, h0⟩, h1)
  | .pairFmax sw h0 h1 => some (sw, ⟨.fmax, h0⟩, h1)
  | .pairBadd2 sw h0 h1 => some (sw, ⟨.badd2, h0⟩, h1)
  | .pairBmul2 sw h0 h1 => some (sw, ⟨.bmul2, h0⟩, h1)
  | .pairBmin2 sw h0 h1 => some (sw, ⟨.bmin2, h0⟩, h1)
  | .pairBmax2 sw h0 h1 => some (sw, ⟨.bmax2, h0⟩, h1)
  | _ => none

/-- A half from its 31 bits. -/
def Half.ofBits (u : Core) (x : Nat) : Option Half :=
  (HalfOp.ofCode (x / 2 ^ 25 % 64)).map fun op =>
    { op := op
      args := { core := u == .acc, d := x / 2 ^ 17 % 256
                src := if x / 2 ^ 7 % 2 = 1 then .imm (BitVec.ofNat 7 x)
                       else match u with
                         | .acc => .g (x / 2 ^ 9 % 256)
                         | .bench => if x / 2 ^ 8 % 2 = 1 then .k (x / 2 ^ 9 % 256) else .v (x / 2 ^ 9 % 256) } }

/-- The 31 bits of a half. -/
def Half.bits (x : Half) : Nat :=
  x.op.code * 2 ^ 25 + x.args.d * 2 ^ 17 +
  (match x.args.src with
   | .v n => n * 2 ^ 9
   | .k n => n * 2 ^ 9 + 2 ^ 8
   | .g n => n * 2 ^ 9
   | .imm v => 2 ^ 7 + v.toNat)

/-! ### The decoder and the encoder -/

/-- The instruction that fields decode to on unit `u`. -/
def decodeFields (u : Core) (x : Fields) : Except Reject Instr :=
  match Guard.ofCode x.g with
  | none => .error .guard
  | some g =>
    match parse u ⟨x.sw, g⟩ x with
    | none => .error .noInstruction
    | some i =>
      if !wf u i then .error .operands
      else if fieldsOf i = some x then .ok i
      else .error .bits

/-- The instruction of a pair word. -/
def decodePair (u : Core) (w : Nat) : Except Reject Instr :=
  match Half.ofBits u (w / 2 ^ 31 % 2 ^ 31), Half.ofBits u (w % 2 ^ 31) with
  | some x, some y =>
    let i := mkPair (w / 2 ^ 63 % 2 == 1) x.op x.args y
    if x.bits ≠ w / 2 ^ 31 % 2 ^ 31 || y.bits ≠ w % 2 ^ 31 then .error .bits
    else if unPair u i ≠ some (w / 2 ^ 63 % 2 == 1, x, y) then .error .bits
    else if !wf u i then .error .operands
    else .ok i
  | _, _ => .error .noInstruction

/-- Decoding is total: every 64-bit word is an instruction of the unit or is rejected by name. -/
def decode (u : Core) (w : Nat) : Except Reject Instr :=
  if w / 2 ^ 62 % 2 = 1 then decodePair u w else decodeFields u (Fields.ofWord w)

/-- The instruction has a word of its own: it is well formed and its register numbers fit their fields. -/
def encodable (u : Core) (i : Instr) : Bool :=
  wf u i && (match fieldsOf i with
    | some x => x.fits
    | none => true)

/-- The word of an instruction; 0 for an event. -/
def encode (u : Core) (i : Instr) : Nat :=
  match fieldsOf i with
  | some x => x.pack
  | none =>
    match unPair u i with
    | some (sw, x, y) => sw.toNat * 2 ^ 63 + 2 ^ 62 + x.bits * 2 ^ 31 + y.bits
    | none => 0

/-- Which of D, A, B, C the instruction uses as registers, for the instructions a REP can repeat (R54). -/
def repUse (u : Core) (i : Instr) : Option (Bool × Bool × Bool × Bool) :=
  match fieldsOf i with
  | none => none
  | some x =>
    let reg (o : Opd) : Bool := match o with
      | .imm _ _ => false
      | _ => true
    let inRange := match u with
      | .bench => decide (0x20 ≤ x.maj ∧ x.maj ≤ 0x7E) || decide (0xB0 ≤ x.maj ∧ x.maj ≤ 0xB4)
      | .acc => decide (0x20 ≤ x.maj ∧ x.maj ≤ 0x34)
    if !inRange then none
    else some (match i with
      | .iabs .. | .ineg .. | .not .. | .popc .. | .clz .. | .brev .. | .mov .. | .retag .. | .cmk .. | .clen ..
      | .fclass .. | .frnd .. | .f2i .. | .i2f .. | .fupk .. | .frcp .. | .frsq .. | .fsqrt .. | .fexp2 .. | .flog2 ..
      | .fsint .. | .fcost .. | .ftanh .. | .pswp .. | .voteAny .. | .voteAll .. | .voteBallot .. | .reduxAddI32 ..
      | .reduxAddF32 .. | .reduxMin .. | .reduxMax .. | .reduxMinN .. | .reduxMaxN .. | .reduxFmin .. | .reduxFmax ..
      | .reduxAnd .. | .reduxOr .. | .reduxXor .. | .scan .. => (true, true, false, false)
      | .movi .. | .rdln .. | .acpt .. | .redem .. => (true, false, false, false)
      | .imad .. | .bfi .. | .selZ .. | .ffma .. | .bfma2 .. | .gath .. | .scatAddF32 .. | .scatAddI32 .. | .scatMin ..
      | .scatMax .. | .scatOr .. | .ofill .. => (true, true, true, true)
      | .iset _ _ none _ b => (false, true, reg b, false)
      | .iset _ _ (some _) _ b => (true, true, reg b, false)
      | .fset _ _ none _ _ => (false, true, true, false)
      | .fset _ _ (some _) _ _ => (true, true, true, false)
      | .ld _ _ _ _ _ _ _ _ c | .ldk _ _ _ _ _ _ _ c => (true, true, true, c != .none)
      | .ldStrong .. | .ldh .. | .ldhWf .. | .ldhWfe .. | .accrd .. | .accrdW .. => (true, true, true, false)
      | .st .. | .stStrong .. | .stk .. | .sth .. | .sthSf .. | .sthWesf .. | .smap .. | .accwr .. => (false, true, true, true)
      | .sunmap .. | .sflush .. | .tplT .. | .tclr .. => (false, false, false, false)
      | .tpl .. | .accrel .. => (false, true, false, false)
      | .pft .. | .awset .. => (false, true, true, false)
      | .ofillAssay .. => (true, true, false, true)
      | .iadd _ _ _ b | .iaddc _ _ _ b | .isub _ _ _ b | .isubb _ _ _ b | .imul _ _ _ b | .imulh _ _ _ b
      | .imulhN _ _ _ b | .imin _ _ _ _ b | .imax _ _ _ _ b | .idiv _ _ _ b | .idivN _ _ _ b | .irem _ _ _ b
      | .iremN _ _ _ b | .and _ _ _ b | .or _ _ _ b | .xor _ _ _ b | .andn _ _ _ b | .shl _ _ _ b | .shr _ _ _ b
      | .sar _ _ _ b | .rot _ _ _ b | .bfx _ _ _ _ b | .cadd _ _ _ b => (true, true, reg b, false)
      | _ => (true, true, true, false))

/-- The fields stepped for repeat `i` (R54): code 3 steps by 4. -/
def stepOf (c : BitVec 2) : Nat := if c = 3 then 4 else c.toNat

def Fields.step (x : Fields) (sd sa sb sc : BitVec 2) (i : Nat) : Fields :=
  { x with
    d := x.d + i * stepOf sd, a := x.a + i * stepOf sa, b := x.b + i * stepOf sb, c := x.c + i * stepOf sc }

/-- The row is an event: it has no word (log 1). -/
def isEvent (i : Instr) : Bool := (fieldsOf i).isNone && (unPair .bench i).isNone

/-- The instruction that `nbits` bits `w` of the opcode table hold: a bench's, or else the control core's. -/
def decodeTableWord (nbits w : Nat) : Option Instr :=
  match decode .bench (w % 2 ^ nbits % 2 ^ 64) with
  | .ok i => some i
  | .error _ =>
    match decode .acc (w % 2 ^ nbits % 2 ^ 64) with
    | .ok i => some i
    | .error _ => none

end Sys2Proof
end

