-- ==== Sys2Proof/Machine/Flags.lean ====
section
/-! DEFINITION. The flags of ST (R67) and the floating formats (R129 to R131, R134): exact values, one rounding, and the
flags it raises. A finite value is kept exactly, as sign, natural significand and power of two. -/

namespace Sys2Proof.Machine

/-! ### Flags of ST -/

def Flag.nx : Word := 0x01
def Flag.uf : Word := 0x02
def Flag.of_ : Word := 0x04
def Flag.dz : Word := 0x08
def Flag.nv : Word := 0x10
def Flag.noLane : Word := 0x20
def flagIf (b : Bool) (f : Word) : Word := if b then f else 0

/-! ### Formats -/

/-- A floating format (R129): mantissa bits, bias, magnitude code of the largest finite value, that of infinity if it has
one, its canonical NaN if it has one, and the place of the sign bit. -/
structure Fmt where
  mb : Nat
  bias : Int
  top : Nat
  inf : Option Nat
  nan : Option Nat
  sign : Nat
  deriving DecidableEq, Repr, Inhabited

def fp32 : Fmt := { mb := 23, bias := 127, top := 0x7F7FFFFF, inf := some 0x7F800000, nan := some 0x7FC00000, sign := 31 }
def bf16 : Fmt := { mb := 7, bias := 127, top := 0x7F7F, inf := some 0x7F80, nan := some 0x7FC0, sign := 15 }
def e4m3 : Fmt := { mb := 3, bias := 7, top := 0x7E, inf := none, nan := some 0x7F, sign := 7 }
def e5m2 : Fmt := { mb := 2, bias := 15, top := 0x7B, inf := some 0x7C, nan := some 0x7E, sign := 7 }
def e3m2 : Fmt := { mb := 2, bias := 3, top := 0x1F, inf := none, nan := none, sign := 5 }
def e2m3 : Fmt := { mb := 3, bias := 1, top := 0x1F, inf := none, nan := none, sign := 5 }
def e2m1 : Fmt := { mb := 1, bias := 1, top := 0x7, inf := none, nan := none, sign := 3 }

/-- Power of two of the last place of the subnormals. -/
def Fmt.qmin (f : Fmt) : Int := 1 - f.bias - f.mb
/-- Magnitude code with a sign. -/
def Fmt.signed (f : Fmt) (neg : Bool) (c : Nat) : Nat := if neg then c + 2 ^ f.sign else c

/-- A value: a NaN, signalling or not; an infinity; or (−1)^neg · m · 2^e exactly. As the result of an operation,
`nan true` stands for a NaN that raises NV. -/
inductive FVal where
  | nan (nv : Bool)
  | inf (neg : Bool)
  | fin (neg : Bool) (m : Nat) (e : Int)
  deriving DecidableEq, Repr, Inhabited

/-- The value of a code (R129). -/
def Fmt.decode (f : Fmt) (code : Nat) : FVal :=
  let neg := code / 2 ^ f.sign % 2 == 1
  let c := code % 2 ^ f.sign
  let n := c % 2 ^ f.mb
  let e := c / 2 ^ f.mb
  if some c = f.inf then .inf neg
  else if c > f.top then .nan (n / 2 ^ (f.mb - 1) % 2 == 0)
  else if e = 0 then .fin neg n f.qmin
  else .fin neg (2 ^ f.mb + n) (f.qmin + e - 1)

/-! ### Rounding -/

/-- A significand divided by 2^`sh`, rounded by mode, and whether it is inexact. -/
def shiftRound (r : Rnd) (neg : Bool) (m sh : Nat) : Nat × Bool :=
  let d := 2 ^ sh
  let n := m / d
  let rem := m % d
  let up := match r with
    | .rn => decide (2 * rem > d) || (decide (2 * rem = d) && n % 2 == 1)
    | .rz => false
    | .rd => neg && rem != 0
    | .ru => !neg && rem != 0
  (if up then n + 1 else n, rem != 0)

/-- m · 2^e on the grid 2^q. -/
def onGrid (r : Rnd) (neg : Bool) (m : Nat) (e q : Int) : Nat × Bool :=
  if q ≤ e then (m * 2 ^ (e - q).toNat, false) else shiftRound r neg m (q - e).toNat

/-- What one rounding gives: the magnitude code with the exponent unbounded above, and whether it is inexact, beyond the
largest finite value, and tiny (R134: judged after rounding with the exponent unbounded below). -/
structure Rounded where
  code : Nat
  inexact : Bool
  ovf : Bool
  tiny : Bool
  deriving DecidableEq, Repr, Inhabited

def Fmt.round (f : Fmt) (r : Rnd) (neg : Bool) (m : Nat) (e : Int) : Rounded :=
  if m = 0 then { code := 0, inexact := false, ovf := false, tiny := false }
  else
    let free : Int := e + Nat.log2 m - f.mb
    let q := max free f.qmin
    let p := onGrid r neg m e q
    let code := (q - f.qmin).toNat * 2 ^ f.mb + p.1
    let u := onGrid r neg m e free
    { code := code, inexact := p.2, ovf := code > f.top
      tiny := decide (free < f.qmin) && !(decide (free + 1 = f.qmin) && u.1 == 2 ^ (f.mb + 1)) }

/-- The mode rounds away from zero where the value lies beyond the largest finite one (R131's table). -/
def awayAtTop (r : Rnd) (neg : Bool) : Bool :=
  match r with
  | .rn => true
  | .rz => false
  | .rd => neg
  | .ru => !neg

/-- A result in FP32 or BF16, with its flags (R134). -/
def Fmt.finish (f : Fmt) (r : Rnd) (x : FVal) : Nat × Word :=
  match x with
  | .nan nv => (f.nan.getD 0, flagIf nv Flag.nv)
  | .inf neg => (f.signed neg (f.inf.getD f.top), 0)
  | .fin neg m e =>
    let p := f.round r neg m e
    if p.ovf then
      (f.signed neg (if awayAtTop r neg then f.inf.getD f.top else f.top), Flag.of_ ||| Flag.nx)
    else (f.signed neg p.code, flagIf p.inexact Flag.nx ||| flagIf (p.inexact && p.tiny) Flag.uf)

/-- R131: a value narrowed to a memory format, with its flags. -/
def narrow (f : Fmt) (r : Rnd) (nsat : Bool) (x : FVal) : Nat × Word :=
  match x with
  | .nan nv =>
    match f.nan with
    | some c => (c, flagIf nv Flag.nv)
    | none => (0, Flag.nv)
  | .inf neg =>
    match f.inf with
    | some c => if f = bf16 || nsat then (f.signed neg c, 0) else (f.signed neg f.top, Flag.nx)
    | none =>
      match f.nan with
      | some c => if nsat then (c, Flag.nv) else (f.signed neg f.top, Flag.nv)
      | none => (f.signed neg f.top, Flag.nv)
  | .fin neg m e =>
    let p := f.round r neg m e
    if p.ovf then
      let c :=
        if f = bf16 then f.signed neg (if awayAtTop r neg then 0x7F80 else f.top)
        else if !nsat then f.signed neg f.top
        else match f.inf with
          | some c => f.signed neg c
          | none => f.nan.getD (f.signed neg f.top)
      (c, Flag.of_ ||| Flag.nx)
    else
      (f.signed neg p.code,
        flagIf p.inexact Flag.nx ||| flagIf (p.inexact && decide (p.code < 2 ^ f.mb)) Flag.uf)

/-! ### Exact arithmetic -/

def FVal.isNan : FVal → Bool
  | .nan _ => true
  | _ => false
/-- The NaN that two operands give, if one of them is a NaN. -/
def nanOf (a b : FVal) : Option FVal :=
  match a, b with
  | .nan x, .nan y => some (.nan (x || y))
  | .nan x, _ => some (.nan x)
  | _, .nan y => some (.nan y)
  | _, _ => none
def signOf : FVal → Bool
  | .nan _ => false
  | .inf n => n
  | .fin n _ _ => n
def FVal.negate : FVal → FVal
  | .nan x => .nan x
  | .inf n => .inf !n
  | .fin n m e => .fin (!n) m e

/-- The signed integer of a finite value on the grid 2^q, for q ≤ e. -/
def intOn (neg : Bool) (m : Nat) (e q : Int) : Int :=
  let x : Int := m * 2 ^ (e - q).toNat
  if neg then -x else x

/-- a + b exactly; an exact zero sum of opposite signs is +0, or −0 under `.rd` (R134). -/
def addX (r : Rnd) (a b : FVal) : FVal :=
  match nanOf a b with
  | some x => x
  | none =>
    match a, b with
    | .inf p, .inf q => if p = q then .inf p else .nan true
    | .inf p, _ => .inf p
    | _, .inf q => .inf q
    | .fin p m e, .fin q n g =>
      let lo := min e g
      let z := intOn p m e lo + intOn q n g lo
      if z = 0 then .fin (if m = 0 ∧ n = 0 ∧ p = q then p else r == .rd) 0 lo
      else .fin (z < 0) z.natAbs lo
    | .nan x, _ => .nan x
    | _, .nan y => .nan y

/-- a × b exactly. -/
def mulX (a b : FVal) : FVal :=
  match nanOf a b with
  | some x => x
  | none =>
    let s := signOf a != signOf b
    match a, b with
    | .fin _ m e, .fin _ n g => .fin s (m * n) (e + g)
    | .fin _ m _, .inf _ => if m = 0 then .nan true else .inf s
    | .inf _, .fin _ n _ => if n = 0 then .nan true else .inf s
    | _, _ => .inf s

/-- a × b + c exactly (R135). -/
def fmaX (r : Rnd) (a b c : FVal) : FVal := addX r (mulX a b) c

/-- a / b with a sticky last bit, which one rounding takes as the exact quotient; and DZ (R144). -/
def divX (a b : FVal) : FVal × Bool :=
  match nanOf a b with
  | some x => (x, false)
  | none =>
    let s := signOf a != signOf b
    match a, b with
    | .inf _, .inf _ => (.nan true, false)
    | .inf _, _ => (.inf s, false)
    | _, .inf _ => (.fin s 0 0, false)
    | .fin _ m e, .fin _ n g =>
      if n = 0 then (if m = 0 then (.nan true, false) else (.inf s, true))
      else if m = 0 then (.fin s 0 0, false)
      else
        let k := 60 + Nat.log2 n
        let x := m * 2 ^ k
        (.fin s (2 * (x / n) + (if x % n = 0 then 0 else 1)) (e - g - k - 1), false)
    | x, _ => (x, false)

/-- The larger whole number whose square is at most `n`, by bits from `k` down. -/
def sqrtBits (n : Nat) : Nat → Nat → Nat
  | 0, a => a
  | k + 1, a => sqrtBits n k (if (a + 2 ^ k) * (a + 2 ^ k) ≤ n then a + 2 ^ k else a)
def isqrt (n : Nat) : Nat := sqrtBits n (Nat.log2 n / 2 + 1) 0

/-- √a with a sticky last bit (R145). -/
def sqrtX (a : FVal) : FVal :=
  match a with
  | .nan x => .nan x
  | .inf n => if n then .nan true else .inf false
  | .fin n m e =>
    if m = 0 then .fin n 0 0
    else if n then .nan true
    else
      let p := if e % 2 = 0 then (m, e) else (2 * m, e - 1)
      let x := p.1 * 2 ^ 64
      let y := isqrt x
      .fin false (2 * y + (if y * y = x then 0 else 1)) ((p.2 - 64) / 2 - 1)

/-- Compare two values; none where one is a NaN. −0 equals +0. -/
def cmpX (a b : FVal) : Option Ordering :=
  match a, b with
  | .nan _, _ => none
  | _, .nan _ => none
  | .inf p, .inf q => some (if p = q then .eq else if p then .lt else .gt)
  | .inf p, _ => some (if p then .lt else .gt)
  | _, .inf q => some (if q then .gt else .lt)
  | .fin p m e, .fin q n g =>
    let lo := min e g
    some (compare (intOn p m e lo) (intOn q n g lo))

/-! ### Words -/

def f32 (w : Word) : FVal := fp32.decode w.toNat
/-- A rounded FP32 result. -/
def toF32 (r : Rnd) (x : FVal) : Word × Word :=
  let p := fp32.finish r x
  (BitVec.ofNat 32 p.1, p.2)
def lowHalf (w : Word) : Nat := w.toNat % 2 ^ 16
def highHalf (w : Word) : Nat := w.toNat / 2 ^ 16
def halves (lo hi : Nat) : Word := BitVec.ofNat 32 (lo % 2 ^ 16 + 2 ^ 16 * (hi % 2 ^ 16))
def canonNan : Word := 0x7FC00000

/-- The FP32 addition to nearest of AT, RED and SCAT (R182, R202): no flag. -/
def addF32 (a b : Word) : Word := (toF32 .rn (addX .rn (f32 a) (f32 b))).1

/-- FMIN, FMAX, FMINM, FMAXM (R136), on codes of a format: `mx` picks the larger, `prop` gives the NaN. -/
def minmaxCode (f : Fmt) (mx prop : Bool) (a b : Nat) : Nat × Word :=
  let x := f.decode a
  let y := f.decode b
  let nv := flagIf (x == .nan true || y == .nan true) Flag.nv
  match cmpX x y with
  | none =>
    if prop || (x.isNan && y.isNan) then (f.nan.getD 0, nv) else (if x.isNan then b else a, nv)
  | some o =>
    let less := o == .lt || (o == .eq && signOf x && !signOf y)
    (if less != mx then a else b, nv)

/-! ### Conversions of R98 -/

/-- A widened value of a memory format as FP32: exact, a NaN canonical. -/
def widen (f : Fmt) (code : Nat) : Word := (toF32 .rn (f.decode code)).1
/-- The upper half of an FP32 word, as a BF16 half: for values that BF16 holds exactly. -/
def upperHalf (w : Word) : Nat := w.toNat / 2 ^ 16

/-- E8M0 as FP32 (R98, R130). -/
def e8m0Word (b : Nat) : Word := if b = 0xFF then canonNan else (toF32 .rn (.fin false 1 ((b : Int) - 127))).1

/-- Bytes in memory of a conversion. -/
def convSize (c : Nat) : Nat :=
  match c with
  | 0x00 => 4 | 0x01 => 4 | 0x02 => 4 | 0x03 => 8
  | 0x06 => 2 | 0x07 => 2 | 0x08 => 2 | 0x0E => 2 | 0x0F => 2
  | _ => 1

/-- The tag a load writes. -/
def convTag (c : Nat) : BitVec 2 :=
  match c with
  | 0x01 => 1 | 0x08 => 1 | 0x09 => 1 | 0x0A => 1 | 0x0B => 1 | 0x0C => 1 | 0x10 => 1
  | 0x02 => 2 | 0x0D => 2 | 0x0E => 2 | 0x0F => 2
  | _ => 0

/-- The tag a store takes; none where it takes any. -/
def convTakes (c : Nat) : Option (BitVec 2) :=
  match c with
  | 0x00 => none | 0x03 => none | 0x04 => none | 0x05 => none | 0x06 => none | 0x07 => none
  | _ => some (convTag c)

/-- Sign-extend an `n`-bit number to a word. -/
def sext (n v : Nat) : Word := if v / 2 ^ (n - 1) % 2 = 1 then BitVec.ofInt 32 ((v : Int) - 2 ^ n) else BitVec.ofNat 32 v

/-- The word a load writes from the bytes read, as a number. -/
def convLoad (c v : Nat) : Word :=
  match c with
  | 0x05 => sext 8 v
  | 0x07 => sext 16 v
  | 0x08 => if v % 2 ^ 15 > 0x7F80 then canonNan else BitVec.ofNat 32 (v * 2 ^ 16)
  | 0x09 => widen e4m3 v
  | 0x0A => widen e5m2 v
  | 0x0B => widen e3m2 (v % 64)
  | 0x0C => widen e2m3 (v % 64)
  | 0x0D => halves (upperHalf (widen e2m1 (v % 16))) (upperHalf (widen e2m1 (v / 16)))
  | 0x0E => halves (upperHalf (widen e4m3 (v % 256))) (upperHalf (widen e4m3 (v / 256)))
  | 0x0F => halves (upperHalf (widen e5m2 (v % 256))) (upperHalf (widen e5m2 (v / 256)))
  | 0x10 => e8m0Word v
  | _ => BitVec.ofNat 32 v

/-- A BF16 half as a value. -/
def half16 (h : Nat) : FVal := bf16.decode h

/-- The number a store writes from the word, and its flags; `ns` is `.nsat`. -/
def convStore (c : Nat) (ns : Bool) (w : Word) : Nat × Word :=
  let pair (f : Fmt) (bits : Nat) : Nat × Word :=
    let lo := narrow f .rn ns (half16 (lowHalf w))
    let hi := narrow f .rn ns (half16 (highHalf w))
    (lo.1 + 2 ^ bits * hi.1, lo.2 ||| hi.2)
  match c with
  | 0x04 => (w.toNat % 2 ^ 8, 0)
  | 0x05 => (w.toNat % 2 ^ 8, 0)
  | 0x06 => (w.toNat % 2 ^ 16, 0)
  | 0x07 => (w.toNat % 2 ^ 16, 0)
  | 0x08 => narrow bf16 .rn ns (f32 w)
  | 0x09 => narrow e4m3 .rn ns (f32 w)
  | 0x0A => narrow e5m2 .rn ns (f32 w)
  | 0x0B => narrow e3m2 .rn ns (f32 w)
  | 0x0C => narrow e2m3 .rn ns (f32 w)
  | 0x0D => pair e2m1 4
  | 0x0E => pair e4m3 8
  | 0x0F => pair e5m2 8
  | _ => (w.toNat, 0)

end Sys2Proof.Machine
end

