-- ==== Sys2Proof/Machine/Operands.lean ====
section
/-! DEFINITION. The operand forms: sources under their tag disciplines with the checks of R57 and R64, words performed by
lane or once for the run (R25), and the frame of the register instructions (R69, R133). -/

namespace Sys2Proof.Machine

/-- What a source's tag must be (R64, R133): raw integer, anything but void, a given tag, or anything at all. -/
inductive Disc where
  | arith
  | bits
  | tagged (tag : BitVec 2)
  | move
  deriving DecidableEq, Repr, Inhabited

/-- A register source: the operand, its code for TADDR (1 A, 2 B, 3 C; R288), its discipline and its width. -/
structure Src where
  o : Opd
  code : Nat
  disc : Disc := .arith
  width : Nat := 1
  deriving DecidableEq, Repr, Inhabited

def Src.regs (x : Src) (w : Warp) (t : Nat) : List Reg := (List.range x.width).map fun j => w.readAt t x.o j
def isImm : Opd → Bool
  | .imm _ _ => true
  | _ => false

/-- A void source raises UNINIT, but for a transfer (R64). -/
def Src.void (x : Src) (w : Warp) (t : Nat) : Bool := x.disc != .move && (x.regs w t).any fun r => r.tag == 3
/-- A tag that the discipline does not take raises FORMAT. -/
def Src.mistagged (x : Src) (w : Warp) (t : Nat) : Bool :=
  w.unit == .bench && (match x.disc with
    | .arith => (x.regs w t).any fun r => r.tag != 0
    | .tagged g => !isImm x.o && (x.regs w t).any fun r => r.tag != g
    | .bits => false
    | .move => false)
def Src.plated (x : Src) (w : Warp) (t : Nat) : Bool := (x.regs w t).any fun r => r.plate

/-- UNINIT over every source in order, then FORMAT over every source in order (R57). -/
def checkSrcs (w : Warp) (t : Nat) (l : List Src) : Option (Byte × Dword) :=
  match l.find? fun x => x.void w t with
  | some x => some (Cause.uninit, BitVec.ofNat 64 x.code)
  | none =>
    match l.find? fun x => x.mistagged w t with
    | some x => some (Cause.format, BitVec.ofNat 64 x.code)
    | none => none

/-- PLATE_ADDR over the sources in order (R57). -/
def checkPlates (w : Warp) (t : Nat) (l : List Src) : Option (Byte × Dword) :=
  match l.find? fun x => x.plated w t with
  | some x => some (Cause.plateAddr, BitVec.ofNat 64 x.code)
  | none => none

/-- Every register operand is a k register (or a g register): the word is uniform (R25). -/
def uniform (l : List Opd) : Bool := l.all fun o => match o with
  | .v _ => false
  | .vx _ => false
  | _ => true

/-- By lane, or once at the lowest active thread for the whole run (R25); `f` gets the threads it acts for. -/
def lanes (once : Bool) (f : State → Nat → List Nat → LaneOut) : State → List Nat → State × List Hit :=
  if once then perRun fun s ts => f s (ts.headD 0) ts
  else perLane fun s t => f s t [t]

/-- Data of an operand. -/
def Warp.val (w : Warp) (t : Nat) (o : Opd) : Word := (w.read t o).data
/-- A register destination's code is 0 and its width 1 unless it is a pair. -/
def namedOf (d : Option (Opd × Nat)) (l : List Src) : List (Opd × Nat) := d.toList ++ l.map fun x => (x.o, x.width)

/-- Plate of a result: any plated source, or taint (R64). -/
def resultPlate (w : Warp) (t : Nat) (ts : List Nat) (l : List Src) : Bool := w.anyTaint ts || l.any fun x => x.plated w t

/-- THE INTEGER FRAME (R69): sources checked, one value written with its tag, plated as R64 gives. -/
def regWord (s : State) (h : Hdr) (d : Opd) (l : List Src) (tag : BitVec 2) (value : Warp → Nat → Word) : State :=
  let once := uniform (d :: l.map Src.o)
  issue s { h := h, named := namedOf (some (d, 1)) l, once := once }
    (lanes once fun x t ts =>
      match checkSrcs x.me t l with
      | some (cause, addr) => .hit cause addr x
      | none => .ok (x.writeReg t (x.me.dst d) (value x.me t) tag (resultPlate x.me t ts l)))

/-- A word with an immediate effect that is not a register result: checks, then `f`. -/
def plainWord (s : State) (x : Shape) (f : State → Nat → List Nat → LaneOut) : State := issue s x (lanes x.once f)

end Sys2Proof.Machine
end

