-- ==== Sys2Proof/Machine/Integer.lean ====
section
/-! DEFINITION. The integer, logic, shift, select, move and capability-arithmetic instructions (R69 to R81). -/

namespace Sys2Proof.Machine

def srcA (o : Opd) (disc : Disc := .arith) (width : Nat := 1) : Src := { o := o, code := 1, disc := disc, width := width }
def srcB (o : Opd) (disc : Disc := .arith) (width : Nat := 1) : Src := { o := o, code := 2, disc := disc, width := width }
def srcC (o : Opd) (disc : Disc := .arith) (width : Nat := 1) : Src := { o := o, code := 3, disc := disc, width := width }

/-- Two sources of one discipline. -/
def alu2 (s : State) (h : Hdr) (disc : Disc) (d a b : Opd) (op : Word → Word → Word) : State :=
  regWord s h d [srcA a disc, srcB b disc] 0 fun w t => op (w.val t a) (w.val t b)
def alu1 (s : State) (h : Hdr) (disc : Disc) (d a : Opd) (op : Word → Word) : State :=
  regWord s h d [srcA a disc] 0 fun w t => op (w.val t a)
def alu3 (s : State) (h : Hdr) (disc : Disc) (d a b c : Opd) (op : Word → Word → Word → Word) : State :=
  regWord s h d [srcA a disc, srcB b disc, srcC c disc] 0 fun w t => op (w.val t a) (w.val t b) (w.val t c)

/-! ### Values (R70, R72 to R76) -/

def mulHigh (a b : Word) : Word := BitVec.ofInt 32 (a.toInt * b.toInt / 2 ^ 32)
def mulHighN (a b : Word) : Word := BitVec.ofNat 32 (a.toNat * b.toNat / 2 ^ 32)
def minS (a b : Word) : Word := if a.slt b then a else b
def maxS (a b : Word) : Word := if a.slt b then b else a
def minN (a b : Word) : Word := if a.ult b then a else b
def maxN (a b : Word) : Word := if a.ult b then b else a
def absW (a : Word) : Word := if a.slt 0 then 0 - a else a
/-- The edge cases of R72. -/
def divS (a b : Word) : Word :=
  if b = 0 then (if a.slt 0 then 0x80000000 else 0x7FFFFFFF) else BitVec.ofInt 32 (a.toInt.tdiv b.toInt)
def divN (a b : Word) : Word := if b = 0 then 0xFFFFFFFF else BitVec.ofNat 32 (a.toNat / b.toNat)
def remS (a b : Word) : Word := if b = 0 then a else BitVec.ofInt 32 (a.toInt.tmod b.toInt)
def remN (a b : Word) : Word := if b = 0 then a else BitVec.ofNat 32 (a.toNat % b.toNat)
/-- The shift count is the whole of b (R74). -/
def shlW (a b : Word) : Word := if b.toNat ≥ 32 then 0 else a <<< b.toNat
def shrW (a b : Word) : Word := if b.toNat ≥ 32 then 0 else a >>> b.toNat
def sarW (a b : Word) : Word := a.sshiftRight (min b.toNat 32)
def rotW (a b : Word) : Word := a.rotateLeft (b.toNat % 32)
/-- Offset and width of a position word (R75). -/
def posOff (p : Word) : Nat := p.toNat % 64
def posWid (p : Word) : Nat := p.toNat / 256 % 64
def bfxW (sg : Bool) (a p : Word) : Word :=
  let off := posOff p
  let w := posWid p
  if w = 0 ∨ off ≥ 32 then 0
  else
    let n := min w (32 - off)
    let f := a.toNat / 2 ^ off % 2 ^ n
    if sg && f / 2 ^ (n - 1) % 2 == 1 then BitVec.ofInt 32 ((f : Int) - 2 ^ n) else BitVec.ofNat 32 f
def bfiW (a b p : Word) : Word :=
  let off := posOff p
  let w := posWid p
  if w = 0 ∨ off ≥ 32 then a
  else
    let m : Word := BitVec.ofNat 32 (2 ^ min w (32 - off) - 1) <<< off
    (a &&& ~~~m) ||| ((b <<< off) &&& m)
def popcW (a : Word) : Word := BitVec.ofNat 32 ((List.range 32).countP fun i => a.getLsbD i)
def clzW (a : Word) : Word := BitVec.ofNat 32 (((List.range 32).find? fun i => a.getLsbD (31 - i)).getD 32)
def brevW (a : Word) : Word := maskOf ((List.range 32).filter fun i => a.getLsbD (31 - i))

/-- The conditions of ISET (R61, R77). -/
def icond (c : ICond) (a b : Word) : Bool :=
  match c with
  | .eq => a == b
  | .ne => a != b
  | .lt => a.slt b
  | .le => a.sle b
  | .gt => b.slt a
  | .ge => b.sle a
  | .ltN => a.ult b
  | .leN => a.ule b
  | .gtN => b.ult a
  | .geN => b.ule a

def boolWord (b : Bool) : Word := if b then 0xFFFFFFFF else 0

/-! ### Add, subtract, multiply, divide -/

/-- IADD (R70). -/
def execIadd (h : Hdr) (d a b : Opd) (s : State) : Host.Outcome State Fault Refusal := .next (alu2 s h .arith d a b (· + ·))
/-- ISUB (R70). -/
def execIsub (h : Hdr) (d a b : Opd) (s : State) : Host.Outcome State Fault Refusal := .next (alu2 s h .arith d a b (· - ·))
/-- IMUL (R70). -/
def execImul (h : Hdr) (d a b : Opd) (s : State) : Host.Outcome State Fault Refusal := .next (alu2 s h .arith d a b (· * ·))
/-- IMULH (R70). -/
def execImulh (h : Hdr) (d a b : Opd) (s : State) : Host.Outcome State Fault Refusal := .next (alu2 s h .arith d a b mulHigh)
/-- IMULH.n (R70). -/
def execImulhN (h : Hdr) (d a b : Opd) (s : State) : Host.Outcome State Fault Refusal := .next (alu2 s h .arith d a b mulHighN)
/-- IMAD (R70). -/
def execImad (h : Hdr) (d a b c : Opd) (s : State) : Host.Outcome State Fault Refusal :=
  .next (alu3 s h .arith d a b c fun x y z => x * y + z)

/-- A word that chains a carry through CM (R71): `op` gives the result and the carry out. A uniform word takes the carry
in of its lowest active thread and writes the carry out to every active thread. -/
def carryWord (s : State) (h : Hdr) (d a b : Opd) (op : Word → Word → Bool → Word × Bool) : State :=
  let l := [srcA a, srcB b]
  let once := uniform [d, a, b]
  issue s { h := h, named := namedOf (some (d, 1)) l, cm := true, once := once }
    (lanes once fun x t ts =>
      match checkSrcs x.me t l with
      | some (cause, addr) => .hit cause addr x
      | none =>
        let w := x.me
        let r := op (w.val t a) (w.val t b) (bitOf w.cm t)
        let q := resultPlate w t ts l || bitOf w.cpm t
        .ok (ts.foldl (fun y u => y.writeCm u r.2 q) (x.writeReg t (w.dst d) r.1 0 q)))

/-- IADDC (R71). -/
def execIaddc (h : Hdr) (d a b : Opd) (s : State) : Host.Outcome State Fault Refusal :=
  .next (carryWord s h d a b fun x y c =>
    let n := x.toNat + y.toNat + c.toNat
    (BitVec.ofNat 32 n, decide (n ≥ 2 ^ 32)))
/-- ISUBB (R71). -/
def execIsubb (h : Hdr) (d a b : Opd) (s : State) : Host.Outcome State Fault Refusal :=
  .next (carryWord s h d a b fun x y c =>
    (x - y - (if c then 1 else 0), decide (x.toNat < y.toNat + c.toNat)))

/-- IMIN, IMIN.n (R73). -/
def execImin (h : Hdr) (nat : Bool) (d a b : Opd) (s : State) : Host.Outcome State Fault Refusal :=
  .next (alu2 s h .arith d a b (if nat then minN else minS))
/-- IMAX, IMAX.n (R73). -/
def execImax (h : Hdr) (nat : Bool) (d a b : Opd) (s : State) : Host.Outcome State Fault Refusal :=
  .next (alu2 s h .arith d a b (if nat then maxN else maxS))
/-- IABS (R73). -/
def execIabs (h : Hdr) (d a : Opd) (s : State) : Host.Outcome State Fault Refusal := .next (alu1 s h .arith d a absW)
/-- INEG (R73). -/
def execIneg (h : Hdr) (d a : Opd) (s : State) : Host.Outcome State Fault Refusal := .next (alu1 s h .arith d a fun x => 0 - x)
/-- IDIV (R72). -/
def execIdiv (h : Hdr) (d a b : Opd) (s : State) : Host.Outcome State Fault Refusal := .next (alu2 s h .arith d a b divS)
/-- IDIV.n (R72). -/
def execIdivN (h : Hdr) (d a b : Opd) (s : State) : Host.Outcome State Fault Refusal := .next (alu2 s h .arith d a b divN)
/-- IREM (R72). -/
def execIrem (h : Hdr) (d a b : Opd) (s : State) : Host.Outcome State Fault Refusal := .next (alu2 s h .arith d a b remS)
/-- IREM.n (R72). -/
def execIremN (h : Hdr) (d a b : Opd) (s : State) : Host.Outcome State Fault Refusal := .next (alu2 s h .arith d a b remN)

/-! ### Logic, shifts, fields (R74 to R76): the bitwise discipline -/

/-- AND (R74). -/
def execAnd (h : Hdr) (d a b : Opd) (s : State) : Host.Outcome State Fault Refusal := .next (alu2 s h .bits d a b (· &&& ·))
/-- OR (R74). -/
def execOr (h : Hdr) (d a b : Opd) (s : State) : Host.Outcome State Fault Refusal := .next (alu2 s h .bits d a b (· ||| ·))
/-- XOR (R74). -/
def execXor (h : Hdr) (d a b : Opd) (s : State) : Host.Outcome State Fault Refusal := .next (alu2 s h .bits d a b (· ^^^ ·))
/-- ANDN (R74). -/
def execAndn (h : Hdr) (d a b : Opd) (s : State) : Host.Outcome State Fault Refusal :=
  .next (alu2 s h .bits d a b fun x y => x &&& ~~~y)
/-- NOT (R74). -/
def execNot (h : Hdr) (d a : Opd) (s : State) : Host.Outcome State Fault Refusal := .next (alu1 s h .bits d a fun x => ~~~x)
/-- SHL (R74). -/
def execShl (h : Hdr) (d a b : Opd) (s : State) : Host.Outcome State Fault Refusal := .next (alu2 s h .bits d a b shlW)
/-- SHR (R74). -/
def execShr (h : Hdr) (d a b : Opd) (s : State) : Host.Outcome State Fault Refusal := .next (alu2 s h .bits d a b shrW)
/-- SAR (R74). -/
def execSar (h : Hdr) (d a b : Opd) (s : State) : Host.Outcome State Fault Refusal := .next (alu2 s h .bits d a b sarW)
/-- ROT (R74). -/
def execRot (h : Hdr) (d a b : Opd) (s : State) : Host.Outcome State Fault Refusal := .next (alu2 s h .bits d a b rotW)
/-- BFX (R75). -/
def execBfx (h : Hdr) (sg : Bool) (d a b : Opd) (s : State) : Host.Outcome State Fault Refusal :=
  .next (alu2 s h .bits d a b (bfxW sg))
/-- BFI (R75). -/
def execBfi (h : Hdr) (d a b c : Opd) (s : State) : Host.Outcome State Fault Refusal := .next (alu3 s h .bits d a b c bfiW)
/-- POPC (R76). -/
def execPopc (h : Hdr) (d a : Opd) (s : State) : Host.Outcome State Fault Refusal := .next (alu1 s h .bits d a popcW)
/-- CLZ (R76). -/
def execClz (h : Hdr) (d a : Opd) (s : State) : Host.Outcome State Fault Refusal := .next (alu1 s h .bits d a clzW)
/-- BREV (R76). -/
def execBrev (h : Hdr) (d a : Opd) (s : State) : Host.Outcome State Fault Refusal := .next (alu1 s h .bits d a brevW)

/-! ### Compare, select, move -/

/-- A compare (R77, R137): CM and CPM of the active threads, and D under WD. -/
def compareWord (s : State) (h : Hdr) (d : Option Opd) (l : List Src) (f : State → Nat → Bool × State) : State :=
  let once := uniform (d.toList ++ l.map Src.o)
  issue s { h := h, named := namedOf (d.map fun o => (o, 1)) l, cm := true, once := once }
    (lanes once fun x t ts =>
      match checkSrcs x.me t l with
      | some (cause, addr) => .hit cause addr x
      | none =>
        let p := resultPlate x.me t ts l
        let r := f x t
        let y := ts.foldl (fun z u => z.writeCm u r.1 p) r.2
        match d with
        | some o => .ok (y.writeReg t (y.me.dst o) (boolWord r.1) 0 p)
        | none => .ok y)

/-- ISET (R77). -/
def execIset (h : Hdr) (c : ICond) (d : Option Opd) (a b : Opd) (s : State) : Host.Outcome State Fault Refusal :=
  .next (compareWord s h d [srcA a, srcB b] fun x t => (icond c (x.me.val t a) (x.me.val t b), x))

/-- SEL (R78): CM picks the source; the source that is not chosen is not read. R78 does not say whose CM and CPM bits a uniform SEL takes:
those of the lowest-numbered active thread, as R71 says of IADDC (DESIGN CHOICE, log 87). -/
def execSel (h : Hdr) (d a b : Opd) (s : State) : Host.Outcome State Fault Refusal :=
  let once := uniform [d, a, b]
  .next (issue s { h := h, named := [(d, 1), (a, 1), (b, 1)], cm := true, once := once }
    (lanes once fun x t ts =>
      let w := x.me
      let r := w.read t (if bitOf w.cm t then a else b)
      .ok (x.writeReg t (w.dst d) r.data r.tag (w.anyTaint ts || r.plate || bitOf w.cpm t))))

/-- SEL.z (R78): C ≠ 0 picks the source. -/
def execSelZ (h : Hdr) (d a b c : Opd) (s : State) : Host.Outcome State Fault Refusal :=
  let once := uniform [d, a, b, c]
  .next (issue s { h := h, named := [(d, 1), (a, 1), (b, 1), (c, 1)], once := once }
    (lanes once fun x t ts =>
      let w := x.me
      match checkSrcs w t [srcC c] with
      | some (cause, addr) => .hit cause addr x
      | none =>
        let r := w.read t (if w.val t c != 0 then a else b)
        .ok (x.writeReg t (w.dst d) r.data r.tag (w.anyTaint ts || r.plate || (w.read t c).plate))))

/-- MOV (R79): data, tag and plate. -/
def execMov (h : Hdr) (d a : Opd) (s : State) : Host.Outcome State Fault Refusal :=
  let once := uniform [d, a]
  .next (issue s { h := h, named := [(d, 1), (a, 1)], once := once }
    (lanes once fun x t ts =>
      let r := x.me.read t a
      .ok (x.writeReg t (x.me.dst d) r.data r.tag (x.me.anyTaint ts || r.plate))))

/-- MOVI (R45, R79). -/
def execMovi (h : Hdr) (d : Opd) (tag : BitVec 2) (imm : BitVec 32) (s : State) : Host.Outcome State Fault Refusal :=
  .next (regWord s h d [] tag fun _ _ => imm)

/-- RETAG (R79). -/
def execRetag (h : Hdr) (tag : BitVec 2) (d a : Opd) (s : State) : Host.Outcome State Fault Refusal :=
  .next (regWord s h d [srcA a .bits] tag fun w t => w.val t a)

/-! ### Capabilities in registers (R80, R81) -/

/-- Object number, rights and offset of a capability (R80). -/
def capObj (c : Dword) : Nat := field c 40 24
def capRights (c : Dword) : Nat := field c 36 4
def capOff (c : Dword) : Nat := field c 0 36
def mkCap (obj rights off : Nat) : Dword := BitVec.ofNat 64 (obj % 2 ^ 24 * 2 ^ 40 + rights % 16 * 2 ^ 36 + off % 2 ^ 36)

/-- A word that writes a pair (R81): both halves raw integer, plated alike. -/
def pairWord (s : State) (h : Hdr) (d : Opd) (l : List Src) (extra : Warp → Nat → Option (Byte × Dword))
    (value : State → Nat → Dword) : State :=
  let once := uniform (d :: l.map Src.o)
  issue s { h := h, named := namedOf (some (d, 2)) l, once := once }
    (lanes once fun x t ts =>
      match checkSrcs x.me t l with
      | some (cause, addr) => .hit cause addr x
      | none =>
        match extra x.me t with
        | some (cause, addr) => .hit cause addr x
        | none =>
          let p := resultPlate x.me t ts l
          let v := value x t
          let e := x.me.dst d
          .ok ((x.writeReg t e (loWord v) 0 p).writeReg t (e.plus 1) (hiWord v) 0 p))

def noCause (_ : Warp) (_ : Nat) : Option (Byte × Dword) := none

/-- CADD (R81): the offset moves by the signed b modulo 2^36. -/
def execCadd (h : Hdr) (d a b : Opd) (s : State) : Host.Outcome State Fault Refusal :=
  .next (pairWord s h d [srcA a .arith 2, srcB b] noCause fun x t =>
    let c := x.me.readPair t a
    mkCap (capObj c) (capRights c) (((capOff c : Int) + (x.me.val t b).toInt) % 2 ^ 36).toNat)

/-- CRST (R81): the rights shrink to those of b[3:0]. -/
def execCrst (h : Hdr) (d a b : Opd) (s : State) : Host.Outcome State Fault Refusal :=
  .next (pairWord s h d [srcA a .arith 2, srcB b] noCause fun x t =>
    let c := x.me.readPair t a
    mkCap (capObj c) (Nat.land (capRights c) ((x.me.val t b).toNat % 16)) (capOff c))

end Sys2Proof.Machine
end

