-- ==== Sys2Proof/Machine/Memory.lean ====
section
/-! DEFINITION. Objects and the memory hierarchy (R159 to R175, R184, R185, R187 to R190): descriptors, the checks of an
access, translation at the memory port, the tier's memory-side cache, home slices with L1 ownership, the stash and its
mappings, and the performance of weak and strong accesses. -/

namespace Sys2Proof.Machine

/-! ### Descriptors (R159 to R163) -/

/-- The object number of a workgroup's own stash (R159, R163). -/
def stashObj : Nat := 0xFFFFFF

/-- Physical address of an object's entry. -/
def State.descAt (s : State) (ctx obj : Nat) : Nat := (s.ctx ctx).table + 32 * obj

/-- The descriptor of an object; an entry that breaks R161, R248 or R315 is invalid. -/
def State.desc (s : State) (ctx obj : Nat) : Desc :=
  if obj = 0 ∨ obj ≥ stashObj then {}
  else
    let a := s.descAt ctx obj
    let d0 := s.pd a 0
    let d3 := s.pd a 3
    let kind := field d0 60 3
    let plc := field d0 51 2
    let len := field d0 0 36
    let sound := kind != 7 && (kind != 4 || len == 20) && plc != 3 && field d0 49 2 != 3 &&
      (kind != 1 || (len % 4096 == 0 && plc != 0 && field d0 54 2 == 0 && field d0 53 1 == 0 && field d0 49 2 == 0 &&
        field (s.pd a 2) 0 52 == 0))
    { valid := d0.getLsbD 63 && sound, kind := kind, rights := field d0 56 4, home := field d0 54 2, pg := field d0 53 1, plc := plc
      migp := field d0 49 2, len := len, xlist := field (s.pd a 1) 0 52, shadow := field (s.pd a 2) 0 52
      robj := field d3 40 24, peer := field d3 32 6, gen := field d3 0 32 }

/-- The descriptor as a cluster sees it for a workgroup: with the workgroup's stash (R163). -/
def State.descFor (s : State) (g : Wg) (obj : Nat) : Desc :=
  if obj = stashObj then { valid := true, kind := 8, rights := 14, len := 4096 * g.stn } else s.desc g.ctx obj

/-- What BOUNDS and its like leave in TADDR (R288). -/
def objAddr (obj off : Nat) : Dword := BitVec.ofNat 64 (obj % 2 ^ 24 * 2 ^ 40 + off % 2 ^ 36)

/-- What an access needs: rights as RD WR AM EG in bits 3 to 0, the object kinds that admit it, its size. -/
structure Need where
  rights : Nat
  kinds : List Nat
  size : Nat
  deriving DecidableEq, Repr, Inhabited

/-- All the bits of `need` are among those of `have_`. -/
def hasRights (have_ need : Nat) : Bool := Nat.land have_ need == need

/-- A live read-only mapping of the workgroup meets a range of its stash (R174). -/
def Wg.readOnlyAt (g : Wg) (off n : Nat) : Bool :=
  g.maps.any fun m => m.2.live && m.2.ro && decide (off < m.2.soff + m.2.len ∧ m.2.soff < off + n)

/-- The checks of a range from byte `ea` of a capability's object, from NULLCAP to ALIGN at `al` (R57, R95). -/
def State.checkRange (s : State) (g : Wg) (cap : Dword) (ea : Nat) (n : Need) (al : Nat) : Option (Byte × Dword) :=
  let obj := capObj cap
  let d := s.descFor g obj
  let here := objAddr obj ea
  if obj = 0 || !d.valid then some (Cause.nullCap, here)
  else if !hasRights (capRights cap) n.rights || !hasRights d.rights n.rights || !n.kinds.contains d.kind then
    some (Cause.rights, here)
  else if d.kind = 8 && hasRights n.rights 8 == false && g.readOnlyAt ea n.size then some (Cause.rights, here)
  else if ea + n.size > d.len then
    some (if obj = stashObj then (Cause.stashBounds, BitVec.ofNat 64 ea) else (Cause.bounds, here))
  else if ea % al ≠ 0 then some (Cause.align, here)
  else none
/-- The checks of an access at byte `ea`, aligned to its size. -/
def State.checkAccess (s : State) (g : Wg) (cap : Dword) (ea : Nat) (n : Need) : Option (Byte × Dword) :=
  s.checkRange g cap ea n n.size

/-- The address of a memory operand: the capability's offset plus the scaled signed offset, modulo 2^36 (R95). -/
def effAddr (cap : Dword) (off : Word) (scl : BitVec 2) : Nat :=
  (((capOff cap : Int) + off.toInt * 2 ^ scl.toNat) % 2 ^ 36).toNat

/-! ### Ports (R303 to R306) -/

/-- How a device or the host can be reached. -/
inductive Reach where
  | open_ | waits | down
  deriving DecidableEq, Repr, Inhabited

def Port.reach (p : Port) : Reach := if p.down || !p.trained then .down else if p.retrain.isSome then .waits else .open_
def State.port (s : State) (p : Nat) : Port := Tab.get {} s.ports p
/-- The port that joins the module to a device. -/
def State.portTo (s : State) (dev : Nat) : Option Port :=
  ((s.ports.filter fun e => some e.1 != s.hostPort && e.2.trained && e.2.dev == dev).map fun e => e.2).head?
def State.reach (s : State) (dev : Nat) : Reach :=
  match s.portTo dev with
  | some p => p.reach
  | none => .down
def State.hostReach (s : State) : Reach :=
  match s.hostPort with
  | some p => (Tab.get {} s.ports p).reach
  | none => .down

/-! ### Translation (R162, R165) -/

/-- Where the bytes of an access lie; or the cause it waits for (TRANSLATION, MIGRATION); or the cause it meets. -/
inductive Place where
  | found (a : Nat)
  | waits (cause : Byte)
  | fails (cause : Byte)
  deriving DecidableEq, Repr, Inhabited

/-- The address of a space (log 4): 0 HBM, 1 tier, 2 host, 3 + d pages of peer d, 64 + d objects of peer d. -/
def spaceAddr (space pa : Nat) : Nat := space * 2 ^ 64 + pa
def pageSize (pg : Nat) : Nat := if pg = 0 then 2 ^ 16 else 2 ^ 21

def Reach.place (r : Reach) (a : Nat) : Place :=
  match r with
  | .open_ => .found a
  | .waits => .waits Cause.migration
  | .down => .fails Cause.fabric

/-- Bytes of HBM in service: those of retired pseudo-channels are left out, from the top (R3, R323; log 77). -/
def State.hbmTop (s : State) : Nat := Config.hbmBytes - Config.channelBytes * s.channelsOut
/-- Where the memory-side cache begins, the highest part of HBM (R184). -/
def State.hbmUse (s : State) : Nat := s.hbmTop - s.mscGiB * 2 ^ 30

/-- The place an extent entry gives to byte `off` (R162). A PA beyond its home's space, or in the
memory-side cache's part (R184), waits for system software as a page
that is not present does (log 13). -/
def State.extent (s : State) (e : Dword) (off pg : Nat) : Place :=
  let pa := field e 0 52 + off % pageSize pg
  if !e.getLsbD 63 then .waits Cause.translation
  else if field e 59 2 = 1 ∨ field e 59 2 = 3 then .waits Cause.migration
  else match field e 61 2 with
    | 0 => if pa < s.hbmUse then .found (spaceAddr 0 pa) else .waits Cause.translation
    | 1 => if pa < Config.tierBytes then .found (spaceAddr 1 pa) else .waits Cause.translation
    | 2 => s.hostReach.place (spaceAddr 2 pa)
    | _ => (s.reach (field e 53 6)).place (spaceAddr (3 + field e 53 6) pa)

/-- The place that an extent entry names, whatever its P and PST are. -/
def namedPlace (e : Dword) (off pg : Nat) : Nat :=
  spaceAddr (if field e 61 2 = 3 then 3 + field e 53 6 else field e 61 2) (field e 0 52 + off % pageSize pg)
/-- Translation of byte `off` of an object under an extent list. -/
def State.translateBy (s : State) (d : Desc) (list off : Nat) : Place :=
  if d.kind = 5 then
    (s.reach d.peer).place (spaceAddr (64 + d.peer) (d.robj * 2 ^ 36 + off))
  else if off ≥ d.len then .waits Cause.translation
  else s.extent (s.pd (list + 8 * (off / pageSize d.pg)) 0) off d.pg

def State.translate (s : State) (ctx obj off : Nat) : Place :=
  let d := s.desc ctx obj
  if !d.valid then .waits Cause.translation else s.translateBy d d.xlist off

/-! ### The memory-side cache of the tier (R184, R185) -/

/-- Sets of the cache. -/
def State.mscSets (s : State) : Nat := s.mscGiB * 2 ^ 30 / 2048
/-- Where a set's sector lies in HBM. -/
def State.mscBase (s : State) (set : Nat) : Nat := s.hbmUse + 2048 * set
def State.mscSet (s : State) (a : Nat) : Nat := a / 2048 % s.mscSets
def State.mscTag (s : State) (a : Nat) : Nat := a / 2048 / s.mscSets
def State.mscByte (s : State) (a : Nat) : Byte := Tab.get 0 s.msc (s.mscSet a)
def mscV (b : Byte) : Bool := b.getLsbD 7
def mscD (b : Byte) : Bool := b.getLsbD 6
def mscT (b : Byte) : Nat := b.toNat % 64
def State.mscHit (s : State) (a : Nat) : Bool :=
  s.mscSets != 0 && mscV (s.mscByte a) && mscT (s.mscByte a) == s.mscTag a

/-- Copy `n` bytes within the sparse memory. -/
def memCopy (m : List Host.Cell) (src dst n : Nat) : List Host.Cell := memPutBytes m dst (memBytes m src n)

/-- Fill the sector of a tier address, after writing a dirty victim back (R185). Counts as the access that missed. -/
def State.mscFill (s : State) (a : Nat) : State :=
  let set := s.mscSet a
  let b := s.mscByte a
  let dirty := mscV b && mscD b
  let m := if dirty then memCopy s.mem (s.mscBase set) (spaceAddr 1 ((mscT b * s.mscSets + set) * 2048)) 2048 else s.mem
  { (s.count 130 (if dirty then .mscDirtyVictims else .mscCleanMisses) 1) with
    mem := memCopy m (spaceAddr 1 (a / 2048 * 2048)) (s.mscBase set) 2048
    clusters := s.clusters.map fun e =>
      (e.1, { e.2 with pf := e.2.pf.filter fun p => !(p.lvl == 2 && s.mscSet (p.place % 2 ^ 64) == set) })
    msc := Tab.put s.msc set (BitVec.ofNat 8 (128 + s.mscTag a)) }

/-- A demand access meets what prefetches brought to a level, each of them that `hit` tells: it is used at its first demand, and timely,
since it came before (R121). -/
def State.usedAt (s : State) (lvl : Nat) (hit : Prefetched → Bool) : State :=
  s.clusters.foldl (fun x e =>
    let n := e.2.pf.countP fun p => p.lvl == lvl && hit p
    if n = 0 then x
    else ((x.modCluster e.1 fun y => { y with pf := y.pf.filter fun p => !(p.lvl == lvl && hit p) }).count e.1 .pftUsed n).count e.1
      .pftTimely n) s
/-- The tier controller holds the sector of a physical address: a hit, or a miss that fills first (R185). -/
def State.mscFetch (s : State) (a : Nat) : State :=
  if a / 2 ^ 64 ≠ 1 ∨ s.mscSets = 0 then s
  else if s.mscHit (a % 2 ^ 64) then s.count 130 .mscHits 1 else s.mscFill (a % 2 ^ 64)
/-- The tier controller serves a read at a physical address (R185), which is a demand of what prefetches brought there. -/
def State.mscServe (s : State) (a : Nat) : State :=
  (s.usedAt 2 fun p => p.place / 2048 == a / 2048).mscFetch a
/-- It serves each 64 bytes of a range. -/
def State.mscReads (s : State) (a n : Nat) : State :=
  (List.range ((a % 64 + n + 63) / 64)).foldl (fun x i => x.mscServe (a / 64 * 64 + 64 * i)) s
/-- A byte at a physical address; a tier byte comes from the cache where it holds the sector. -/
def State.physByte (s : State) (a : Nat) : Byte :=
  if a / 2 ^ 64 = 1 ∧ s.mscHit (a % 2 ^ 64) then
    memGet s.mem (s.mscBase (s.mscSet (a % 2 ^ 64)) + a % 2048)
  else memGet s.mem a
/-- The cache holds the sector of the tier address, filled if need be. -/
def State.mscReady (s : State) (t : Nat) : State := if s.mscHit t then s else s.mscFill t
/-- Write a byte of a sector that the cache holds; the sector is dirty after it. -/
def State.mscWrite (s : State) (t : Nat) (b : Byte) : State :=
  { s with
    mem := memPut s.mem (s.mscBase (s.mscSet t) + t % 2048) b
    msc := Tab.put s.msc (s.mscSet t) ((s.mscByte t) ||| 0x40) }
/-- Write a byte at a physical address; a tier byte is written back through the cache (R185). -/
def State.putPhys (s : State) (a : Nat) (b : Byte) : State :=
  if a / 2 ^ 64 = 1 ∧ s.mscSets ≠ 0 then (s.mscReady (a % 2 ^ 64)).mscWrite (a % 2 ^ 64) b
  else { s with mem := memPut s.mem a b }
def State.physBytes (s : State) (a : Nat) : Nat → List Byte
  | 0 => []
  | n + 1 => s.physByte a :: s.physBytes (a + 1) n
def State.putPhysAt (s : State) (a : Nat) : List Byte → State
  | [] => s
  | b :: r => ((if a % 64 = 0 then s.mscServe a else s).putPhys a b).putPhysAt (a + 1) r
/-- Write bytes at a physical address: the tier controller serves each 64 bytes of them as one write-back (R185, R186). -/
def State.putPhysBytes (s : State) (a : Nat) (l : List Byte) : State :=
  (if a % 64 = 0 || l.isEmpty then s else s.mscServe a).putPhysAt a l

/-- The tier address of the sector that a byte of the cache's part of HBM is of, with the byte's place; none where its set holds
no sector. -/
def State.mscHome (s : State) (pa : Nat) : Option Nat :=
  let set := (pa - s.mscBase 0) / 2048
  let b := Tab.get 0 s.msc set
  if s.mscBase 0 ≤ pa ∧ pa < s.mscBase s.mscSets ∧ mscV b = true then
    some (spaceAddr 1 ((mscT b * s.mscSets + set) * 2048 + (pa - s.mscBase 0) % 2048))
  else none
/-- The home slices hold sectors no longer, of those that `gone` picks by key and place, nor what prefetches brought of them (R121). -/
def State.l2Drop (s : State) (gone : Nat → Nat → Bool) : State :=
  let lost := (s.l2.filter fun e => gone e.1 e.2).map fun e => e.1
  if lost.isEmpty then s
  else
    { s with
      l2 := s.l2.filter fun e => !gone e.1 e.2
      clusters := s.clusters.map fun e => (e.1, { e.2 with
        pf := (e.2.pf.map fun p =>
          if p.lvl = 1 then { p with words := p.words.filter fun k => !lost.contains (k / 16 * 16) } else p).filter
            fun p => !p.words.isEmpty }) }
/-- A range of the module's memory is zeroed, and what the memory-side cache holds of it (R327); the home slices hold nothing of it any
longer, and no object is its last owner. -/
def State.zeroAt (s : State) (a n : Nat) : State :=
  { s.l2Drop fun _ p => decide (a ≤ p ∧ p < a + n) with
    mem := s.mem.filter fun c => !(decide (a ≤ c.1 ∧ c.1 < a + n) || (match s.mscHome c.1 with
      | some t => decide (a ≤ t ∧ t < a + n)
      | none => false))
    frames := s.frames.filter fun e => !decide (a ≤ e.1 * 2 ^ 16 ∧ e.1 * 2 ^ 16 < a + n) }

/-! ### Causes met at memory -/

/-- Layer `l` of model `m`: the address of its entry (R255, R256). -/
def State.modelAt (s : State) (ctx m : Nat) : Nat := (s.ctx ctx).models + 64 * m
def State.modelValid (s : State) (ctx m : Nat) : Bool :=
  let d := s.pd (s.modelAt ctx m) 0
  decide (m < 64) && d.getLsbD 63 && field d 50 4 / 8 == field d 54 1
def State.layerCount (s : State) (ctx m : Nat) : Nat := field (s.pd (s.modelAt ctx m) 0) 40 10 + 1
def State.layerAt (s : State) (ctx m l : Nat) : Nat := field (s.pd (s.modelAt ctx m) 1) 0 52 + 32 * l
def State.layerState (s : State) (ctx m l : Nat) : Nat := field (s.pd (s.layerAt ctx m l) 0) 62 2
def State.layerObj (s : State) (ctx m l : Nat) : Nat := field (s.pd (s.layerAt ctx m l) 0) 0 24

/-- Layers of the context's models whose weights object is `obj`. -/
def State.layersOf (s : State) (ctx obj : Nat) : List (Nat × Nat) :=
  ((List.range 64).filter fun m => s.modelValid ctx m).flatMap fun m =>
    ((List.range (s.layerCount ctx m)).filter fun l => s.layerObj ctx m l == obj).map fun l => (m, l)

/-- SWAP (R243): the layer is not RESIDENT, or the warp's hold on it is revoked. -/
def State.swapped (s : State) (w : Warp) (ctx obj : Nat) : Bool :=
  (s.desc ctx obj).kind == 2 && (s.layersOf ctx obj).any fun p =>
    s.layerState ctx p.1 p.2 != 2 || w.holds.any fun h => h.model == p.1 && h.layer == p.2 && !h.live

/-- A 64-byte line with an uncorrected error (R323). -/
def State.poisoned (s : State) (a n : Nat) : Bool := s.poison.any fun l => l * 64 < a + n && a < l * 64 + 64

/-- The place of `n` bytes of an object for a warp, or the cause met or waited for (R57, R110). A request that reaches a peer may be
refused there (R304). -/
def State.place (s : State) (w : Warp) (ctx obj off n : Nat) : Place :=
  if s.swapped w ctx obj then .fails Cause.swap
  else
    let d := w.under.getD (s.desc ctx obj)
    match (if w.under.isSome then s.translateBy d d.xlist off else s.translate ctx obj off) with
    | .found a => if d.kind = 5 ∧ Config.peerRefuses s.tick d.peer d.robj w.wants off n = true then .fails Cause.fabric
      else if s.poisoned a n then .fails Cause.poison else .found a
    | p => p

/-! ### Words, owners and home slices (R167 to R170, R183) -/

/-- The lines of a table by word keys, each once. -/
def linesOf {α : Type} : Tab α → List Nat
  | [] => []
  | e :: r =>
    match linesOf r with
    | [] => [e.1 / 64]
    | n :: q => if n = e.1 / 64 then n :: q else e.1 / 64 :: n :: q
def keyCtx (k : Nat) : Nat := k / 2 ^ 58
def keyObj (k : Nat) : Nat := k / 2 ^ 34 % 2 ^ 24
def keyWord (k : Nat) : Nat := k % 2 ^ 34
/-- The key of word `i` (offset 4·i) of an object in the structures above the memory port (R160). -/
def wordKey (ctx obj i : Nat) : Nat := (ctx * 2 ^ 24 + obj) * 2 ^ 34 + i

/-- Byte `off` of a workgroup's stash in the cluster. -/
def Wg.stashAt (g : Wg) (off : Nat) : Nat := 4096 * g.stb + off
/-- The stash words of live mappings of a cluster that stand for word `i` of an object (R174). -/
def Cluster.mapWords (x : Cluster) (ctx obj i : Nat) : List Nat :=
  x.wgs.flatMap fun e =>
    if e.2.ctx != ctx then []
    else e.2.maps.flatMap fun m =>
      let base := capOff m.2.cap
      if m.2.live && capObj m.2.cap == obj && decide (base ≤ 4 * i ∧ 4 * i < base + m.2.len) then
        [(4096 * e.2.stb + m.2.soff + (4 * i - base)) / 4]
      else []

def Cluster.stashByte (x : Cluster) (a : Nat) : Byte := Tab.get 0 x.stash a
def Cluster.putStash (x : Cluster) (a : Nat) (b : Byte) : Cluster := { x with stash := Tab.put x.stash a b }
def Cluster.stashBytes (x : Cluster) (a n : Nat) : List Byte := (List.range n).map fun i => x.stashByte (a + i)
def Cluster.putStashBytes (x : Cluster) (a : Nat) : List Byte → Cluster
  | [] => x
  | b :: r => (x.putStash a b).putStashBytes (a + 1) r
def Cluster.stashWord (x : Cluster) (i : Nat) : Word := BitVec.ofNat 32 (leNat (x.stashBytes (4 * i) 4))

/-- The owned copy of a word in a cluster: in its L1, or in a mapped stash line. -/
def Cluster.owned (x : Cluster) (ctx obj i : Nat) : Option Word :=
  let k := wordKey ctx obj i
  let e := Tab.get {} x.l1 k
  if e.own then some e.data
  else match (x.mapWords ctx obj i).find? fun j => (Tab.get {} x.mapped j).own with
    | some j => some (x.stashWord j)
    | none => none
/-- The live mapping's word that a stash word of the cluster stands for: context, object and word (R174). -/
def Cluster.globalOf (x : Cluster) (j : Nat) : Option (Nat × Nat × Nat) :=
  x.wgs.findSome? fun e => e.2.maps.findSome? fun m =>
    let b := e.2.stashAt m.2.soff
    if m.2.live && decide (b ≤ 4 * j ∧ 4 * j < b + m.2.len) then
      some (e.2.ctx, capObj m.2.cap, (capOff m.2.cap + (4 * j - b)) / 4)
    else none
/-- A selection of keys, for a mapped stash word. -/
def Cluster.mappedIn (x : Cluster) (sel : Nat → Bool) (j : Nat) : Bool :=
  match x.globalOf j with
  | some (ctx, obj, i) => sel (wordKey ctx obj i)
  | none => false
/-- The copies that a cluster owns of a word, in its L1 and in mapped lines. -/
def Cluster.copies (x : Cluster) (ctx obj i : Nat) : List L1Word :=
  (Tab.get {} x.l1 (wordKey ctx obj i) :: (x.mapWords ctx obj i).map fun j => Tab.get {} x.mapped j).filter fun e => e.own
/-- Who wrote the word into them. -/
def Cluster.writersOf (x : Cluster) (ctx obj i : Nat) : List (Nat × Nat) := (x.copies ctx obj i).flatMap fun e => e.writers
/-- The cluster owns the word by a store that its home slice has not been told of. -/
def Cluster.lateAt (x : Cluster) (ctx obj i : Nat) : Bool := (x.copies ctx obj i).any fun e => e.late
/-- The value of the word's registered owner, if it has one (R169). -/
def State.ownerValue (s : State) (ctx obj i : Nat) : Option Word :=
  s.clusters.findSome? fun e => e.2.owned ctx obj i
/-- A range of keys without the keys from `lo` to `hi`. -/
def cutRange (l : List (Nat × Nat)) (lo hi : Nat) : List (Nat × Nat) :=
  l.flatMap fun r =>
    (if r.1 < lo then [(r.1, min r.2 (lo - 1))] else []) ++ (if hi < r.2 then [(max r.1 (hi + 1), r.2)] else [])
def inRanges (l : List (Nat × Nat)) (k : Nat) : Bool := l.any fun r => r.1 ≤ k && k ≤ r.2

/-- The indices of the words of an access. -/
def wordCount (size : Nat) : Nat := (size + 3) / 4
def wordList (off size : Nat) : List Nat := (List.range (wordCount size)).map fun j => off / 4 + j

/-! ### Clock-ratio handshakes (R321) -/

/-- A clock-ratio handshake holds what leaves the cluster, and what arrives at it. -/
def Cluster.crossing (x : Cluster) : Bool := !x.shakes.isEmpty
/-- A snoop for one of the words would have to reach a cluster in a handshake, other than `c`. -/
def State.snoopWaits (s : State) (c ctx obj off n : Nat) : Bool :=
  s.clusters.any fun e => e.1 != c && e.2.crossing && (wordList off n).any fun i => (e.2.owned ctx obj i).isSome
/-- Where an access that leaves cluster `c` is performed; it waits at the station while a handshake lasts, its own or that of
a cluster that it must snoop. -/
def State.placeFrom (s : State) (c : Nat) (w : Warp) (ctx obj off n : Nat) : Place :=
  if (s.cluster c).crossing || s.snoopWaits c ctx obj off n then .waits Cause.migration else s.place w ctx obj off n

/-! ### The L2 level (R167) -/

/-- What an access at memory comes to: done, with the state and what it read; or it waits or fails with a cause. -/
inductive Got (α : Type) where
  | ok (s : State) (x : α)
  | waits (cause : Byte)
  | fails (cause : Byte)
  deriving Inhabited

/-- The place of byte `off` of an object by its extent entry, whatever the entry's state; none for what no home slice of the module
keeps. -/
def State.entryPlace (s : State) (ctx obj off : Nat) : Option Nat :=
  let d := s.desc ctx obj
  if !d.valid || d.kind == 1 || d.kind == 5 || decide (off ≥ d.len) then none
  else some (namedPlace (s.pd (d.xlist + 8 * (off / pageSize d.pg)) 0) off d.pg)
/-- The home slice of a line (R168): by a hash over the 192 of both dies under PLC 0, over the 96 of the named die under 1 or 2. -/
def State.sliceOf (s : State) (line : Nat) : Nat :=
  let k := 64 * line
  let h := Config.lineHash (keyCtx k) (keyObj k) (keyWord k / 64)
  match (s.desc (keyCtx k) (keyObj k)).plc with
  | 0 => h % Config.slices
  | p => Config.dieSlices * (p - 1) + h % Config.dieSlices
/-- Room for a line in its home slice (R167, R171): beyond the data entries two lines share one where both compress, which a free value
says, up to the tags; where there is no room a line leaves the slice, of those it holds, by a free value (DESIGN CHOICE, log 101). -/
def State.l2Room (s : State) (line : Nat) : State :=
  if s.l2.length < Config.sliceEntries then s
  else
    let lines := linesOf s.l2
    let mates := lines.filter fun l => s.sliceOf l == s.sliceOf line
    if lines.contains line || mates.length < Config.sliceEntries then s
    else
      let f := s.free
      if mates.length < Config.sliceTags && f.1.getLsbD 0 then f.2
      else
        let out := mates.getD (f.1.toNat / 2 % mates.length) 0
        f.2.l2Drop fun k _ => k / 64 == out
/-- The home slices keep the sectors of `n` bytes from byte `off`, whose place is `a`. -/
def State.l2Keep (s : State) (ctx obj off n a : Nat) : State :=
  if (s.entryPlace ctx obj off) != some a then s
  else (List.range ((off % 64 + n + 63) / 64)).foldl (fun x i =>
    let k := wordKey ctx obj (16 * (off / 64 + i))
    let y := x.l2Room (k / 64)
    { y with l2 := Tab.put y.l2 k (a - off % 64 + 64 * i) }) s
/-- The home slices hold every sector of the bytes, at the place that the object has them at. -/
def State.l2Holds (s : State) (ctx obj off n : Nat) : Bool :=
  (List.range ((off % 64 + n + 63) / 64)).all fun i =>
    match look s.l2 (wordKey ctx obj (16 * (off / 64 + i))) with
    | some a => s.entryPlace ctx obj (off / 64 * 64 + 64 * i) == some a
    | none => false
/-- The sectors of `n` bytes from byte `off`, by the keys of their words. -/
def sectorKeys (ctx obj off n k : Nat) : Bool :=
  decide (wordKey ctx obj (off / 64 * 16) ≤ k ∧ k < wordKey ctx obj ((off + n + 63) / 64 * 16))
/-- What prefetches brought to the home slices of the sectors is in demand now. -/
def State.l2Used (s : State) (ctx obj off n : Nat) : State := s.usedAt 1 fun p => p.words.any (sectorKeys ctx obj off n)
/-- An access that reaches its home slices (R167): where they hold its sectors it is served there and asks no port, unless a free value
has them evicted; otherwise the memory port finds the place, the tier controller serves it, and the slices keep it. A write of whole
words (`write`) reads no memory, and asks the slices where the port does not let it go on. -/
def State.slice (s : State) (c : Nat) (w : Warp) (ctx obj off n : Nat) (write : Bool := false) : Got Nat :=
  let kept := !((s.cluster c).crossing || s.snoopWaits c ctx obj off n || s.swapped w ctx obj || w.under.isSome) && s.l2Holds ctx obj off n
  let serve : Got Nat := .ok (s.free.2.l2Used ctx obj off n) ((s.entryPlace ctx obj off).getD 0)
  if kept && !write && s.free.1.getLsbD 0 then serve
  else
    let x := if kept && !write then s.free.2.l2Drop fun k _ => sectorKeys ctx obj off n k else s
    match x.placeFrom c w ctx obj off n with
    | .found a => .ok (if write then x.l2Used ctx obj off n else (x.mscReads a n).l2Keep ctx obj off n a) a
    | .waits cause => if kept && write && s.free.1.getLsbD 0 then serve else .waits cause
    | .fails cause => if kept && write && s.free.1.getLsbD 0 then serve else .fails cause

/-! ### Recalls, and collected updates -/

/-- Words leave the L1, and what prefetches brought of them (R121). -/
def Cluster.dropWords (x : Cluster) (gone : Nat → L1Word → Bool) : Cluster :=
  let lost := (x.l1.filter fun e => gone e.1 e.2).map fun e => e.1
  { x with
    l1 := x.l1.filter fun e => !gone e.1 e.2
    pf := (x.pf.map fun p => if p.lvl = 0 then { p with words := p.words.filter fun k => !lost.contains k } else p).filter
      fun p => !p.words.isEmpty }
/-- The other word of an aligned doubleword. -/
def mateWord (i : Nat) : Nat := if i % 2 = 0 then i + 1 else i - 1
/-- The word `i`, or the unowned other half of its doubleword: both go together, so that no later read mixes a half that is read
anew with an older one (R123). -/
def losesWith (k i : Nat) (e : L1Word) : Bool := if k = i then e.own else k == mateWord i && !e.own
/-- The home slice is told of a late store where `sel` picks the word, or the other word of a store of 8 bytes (R123). -/
def L1Word.told (e : L1Word) (sel : Nat → Bool) (k : Nat) : L1Word :=
  if e.late && (sel k || (e.both && sel (mateWord k))) then { e with late := false, both := false } else e
def Cluster.anyLate (x : Cluster) : Bool := x.l1.any (fun e => e.2.late) || x.mapped.any fun e => e.2.late
def Cluster.told (x : Cluster) (sel : Nat → Bool) : Cluster :=
  if x.anyLate then
    { x with
      l1 := x.l1.map fun e => (e.1, e.2.told sel e.1)
      mapped := x.mapped.map fun e => (e.1, match x.globalOf e.1 with
        | some (ctx, obj, i) => e.2.told sel (wordKey ctx obj i)
        | none => e.2) }
  else x
/-- Mapped words go, each with the unowned other half of its doubleword, so that a later touch mixes no two reads (R123). -/
def Cluster.dropMapped (x : Cluster) (js : List Nat) : Tab L1Word :=
  x.mapped.filter fun e => !(js.contains e.1 || (js.contains (mateWord e.1) && !e.2.own))
/-- The cluster gives the word up; its next fill of the word comes from the home slice. -/
def Cluster.dropOwned (x0 : Cluster) (ctx obj i : Nat) : Cluster :=
  match x0.owned ctx obj i with
  | none => x0
  | some _ =>
    let k := wordKey ctx obj i
    let x := x0.told fun q => q == k
    let y := x.dropWords fun j e => losesWith j k e
    { y with
      mapped := y.mapped.filter fun e => !(x.mapWords ctx obj i).any fun j => losesWith e.1 j e.2
      homeOnly := (k, k) :: x.homeOnly }
/-- Mapped words that stand for the word and hold a write not written back. -/
def Cluster.mappedDirty (x : Cluster) (ctx obj i : Nat) : Nat :=
  (x.mapWords ctx obj i).countP fun j => (Tab.get {} x.mapped j).own && (Tab.get {} x.mapped j).dirty
/-- Every owner but cluster `c` gives the word up; one that held it in a mapped line counts a write-back (R186). -/
def State.dropOwners (s : State) (c ctx obj i : Nat) : State :=
  s.clusters.foldl (fun x e => if e.1 = c then x else x.count e.1 .stashWritebacks (e.2.mappedDirty ctx obj i))
    { s with clusters := s.clusters.map fun e => (e.1, if e.1 = c then e.2 else e.2.dropOwned ctx obj i) }
/-- Copies that an L1 holds of words, of ranges of keys, are not forwarded to a cluster any more. -/
def Cluster.barFor (x : Cluster) (c : Nat) (rs : List (Nat × Nat)) : Cluster :=
  { x with l1 := x.l1.map fun e =>
      (e.1, if inRanges rs e.1 && !e.2.bars.contains c then { e.2 with bars := c :: e.2.bars } else e.2) }
/-- The next fills of the words by the cluster come from their home slices (R170, R198), and no copy that another L1 holds of them now,
nor a copy of that copy, is forwarded to it. -/
def State.homeNext (s : State) (c : Nat) (rs : List (Nat × Nat)) : State :=
  let x : State := { s with clusters := s.clusters.map fun e => (e.1, if e.1 = c then e.2 else e.2.barFor c rs) }
  x.modCluster c fun q => { q with homeOnly := rs ++ q.homeOnly }
/-- The range of keys of an access. -/
def accessKeys (ctx obj off size : Nat) : Nat × Nat := (wordKey ctx obj (off / 4), wordKey ctx obj (off / 4 + wordCount size - 1))
/-- An acquire by a cluster of ranges of words (R197, R198, R269, R299): it drops its unowned words there, in the L1 and in the mapped
lines among stash words `lo` to `hi`, with the halves of doublewords that the ranges cut. -/
def State.acquireKeys (s : State) (c lo hi : Nat) (rs : List (Nat × Nat)) : State :=
  let sel (k : Nat) : Bool := inRanges rs k || inRanges rs (mateWord k)
  (s.modCluster c fun x =>
    { x.dropWords fun k e => !e.own && sel k with
      mapped := x.mapped.filter fun p => p.2.own || !decide (lo ≤ p.1 ∧ p.1 < hi) || !x.mappedIn sel p.1 }).homeNext c rs

/-- An acquire by a workgroup of the cluster, whose stash's mapped lines are those it drops words of. -/
def State.acquireIn (s : State) (c : Nat) (g : Wg) (rs : List (Nat × Nat)) : State :=
  s.acquireKeys c (g.stashAt 0 / 4) (g.stashAt 0 / 4 + 1024 * g.stn) rs
/-- The keys of a context; and of an object. -/
def ctxKeys (ctx : Nat) : Nat × Nat := (ctx * 2 ^ 58, ctx * 2 ^ 58 + 2 ^ 58 - 1)
def objKeys (ctx obj : Nat) : Nat × Nat := (wordKey ctx obj 0, wordKey ctx obj (2 ^ 34 - 1))

/-- One SCAT update (R180, R182): 0 add.f32, 1 add.i32, 2 min, 3 max, 4 or. -/
def scatOp (fn : Nat) (w y : Word) : Word :=
  match fn with
  | 0 => addF32 w y
  | 1 => w + y
  | 2 => minS w y
  | 3 => maxS w y
  | _ => w ||| y

/-- Updates that a home slice has collected for a word (R183). -/
def State.ups (s : State) (ctx obj i : Nat) : List (Nat × Word) :=
  s.scats.flatMap fun p => if p.ctx = ctx ∧ p.obj = obj ∧ p.word = i then p.ups else []
def State.dropUps (s : State) (ctx obj i : Nat) : State :=
  { s with scats := s.scats.filter fun p => !(p.ctx == ctx && p.obj == obj && p.word == i) }

/-- The value of a word with GLOBAL at 1 where the hardware holds it so (R275, R314). -/
def State.globalHeld (s : State) (ctx obj i : Nat) (v : Word) : Word := if s.globals.contains (ctx, obj, i) then v ||| 1 else v
/-- From now on GLOBAL of the counter at `off` is held at 1; and no longer. -/
def State.holdGlobal (s : State) (ctx obj off : Nat) : State :=
  if s.globals.contains (ctx, obj, off / 4 + 1) then s else { s with globals := (ctx, obj, off / 4 + 1) :: s.globals }
def State.freeGlobal (s : State) (ctx obj off : Nat) : State :=
  { s with globals := s.globals.filter fun p => p != (ctx, obj, off / 4 + 1) }

/-- The word at a physical address. -/
def State.memWord (s : State) (a : Nat) : Word := BitVec.ofNat 32 (leNat (s.physBytes a 4))
/-- The word as its home slice answers for it: its owner's value, or what it holds dirty, or memory's, with the collected updates merged
(R169, R183). -/
def State.homeWord (s : State) (ctx obj i a : Nat) : Word :=
  s.globalHeld ctx obj i (match s.ownerValue ctx obj i with
    | some v => v
    | none => (s.ups ctx obj i).foldl (fun w u => scatOp u.1 w u.2) ((look s.l2Dirty (wordKey ctx obj i)).getD (s.memWord a)))

/-- The number read at byte `off`, `size` bytes, from words given by their index. -/
def wordsNat (f : Nat → Word) (off size : Nat) : Nat :=
  let n := (List.range (wordCount size)).foldr (fun j acc => (f (off / 4 + j)).toNat + 2 ^ 32 * acc) 0
  n / 2 ^ (8 * (off % 4)) % 2 ^ (8 * size)
/-- Word `i` of an object after the number `v` is stored at byte `off`. -/
def storeWord (old : Word) (off size v i : Nat) : Word :=
  if size ≥ 4 then BitVec.ofNat 32 (v / 2 ^ (32 * (i - off / 4)))
  else
    let m : Word := BitVec.ofNat 32 (2 ^ (8 * size) - 1) <<< (8 * (off % 4))
    (old &&& ~~~m) ||| ((BitVec.ofNat 32 v <<< (8 * (off % 4))) &&& m)
/-! ### At the home slice -/

/-- The number read at the home slice; `a` is the place of byte `off`. -/
def State.homeNat (s : State) (ctx obj off size a : Nat) : Nat :=
  wordsNat (fun i => s.homeWord ctx obj i (a - off % 4 + 4 * (i - off / 4))) off size
/-- The word's page can be reached by its extent entry. -/
def State.pageFound (s : State) (ctx obj off : Nat) : Option Nat := match s.translate ctx obj off with
  | .found a => some a
  | _ => none
/-- A word's new value at its place `a`: written there, or, where the home slice was asked and the page cannot be reached, held by the
slice until it can (R165, R167). -/
def State.putWord (s : State) (ctx obj i a : Nat) (v : Word) : State :=
  if (s.pageFound ctx obj (4 * i)).isNone && s.entryPlace ctx obj (4 * i) == some a then
    { s with l2Dirty := Tab.put s.l2Dirty (wordKey ctx obj i) v }
  else ({ s with l2Dirty := Tab.del s.l2Dirty (wordKey ctx obj i) } : State).putPhysBytes a (leBytes 4 v.toNat)
/-- What the home slices hold dirty is written back, of the pages that can be reached now. -/
def State.wash (s : State) : State :=
  s.l2Dirty.foldl (fun x e => match x.pageFound (keyCtx e.1) (keyObj e.1) (4 * keyWord e.1) with
    | some a => x.putWord (keyCtx e.1) (keyObj e.1) (keyWord e.1) a e.2
    | none => x) s
/-- Where a word that leaves a cluster goes: to its place, or to the home slice that holds its sector. -/
def State.backPlace (s : State) (ctx obj i : Nat) : Option Nat :=
  match s.pageFound ctx obj (4 * i) with
  | some a => some a
  | none => if s.l2Holds ctx obj (4 * i) 4 then s.entryPlace ctx obj (4 * i) else none
/-- A write performed at the home slice: the owner is recalled, collected updates merge before it. -/
def State.homePut (s : State) (ctx obj off size a v : Nat) : State :=
  (wordList off size).foldl (fun x i =>
    let p := a - off % 4 + 4 * (i - off / 4)
    let w := storeWord (x.homeWord ctx obj i p) off size v i
    ((x.dropOwners Config.clusters ctx obj i).dropUps ctx obj i).putWord ctx obj i p w) s
/-- The cluster's own copies of words written past its L1, in the L1 and in mapped lines, are given up. -/
def State.forget (s : State) (c ctx obj off size : Nat) : State :=
  (s.modCluster c fun x =>
    { x.dropWords fun k _ => (wordList off size).any fun i => k == wordKey ctx obj i with
      mapped := x.dropMapped ((wordList off size).flatMap fun i => x.mapWords ctx obj i) }).homeNext c
    [accessKeys ctx obj off size]

/-! ### In the L1 (R167, R169, R170) -/

/-- The number read from the L1, if it holds every word. -/
def Cluster.l1Nat (x : Cluster) (ctx obj off size : Nat) : Option Nat :=
  if (wordList off size).all fun i => (look x.l1 (wordKey ctx obj i)).isSome then
    some (wordsNat (fun i => (Tab.get {} x.l1 (wordKey ctx obj i)).data) off size)
  else none

/-- Lines that the L1 has room for: what the stash part leaves of the cluster memory of 1 MiB (R2, R167). -/
def Cluster.l1Lines (x : Cluster) : Nat := (2 ^ 20 - 4096 * x.spart) / 256
/-- A line leaves the L1, its owned dirty words written back (R169); none where one of them cannot be. The next fills of the words that
it owned come from their home slices (R170). -/
def State.evict (s : State) (c line : Nat) : Option State :=
  let x := s.cluster c
  let own := x.l1.filter fun e => e.1 / 64 == line && e.2.own
  let out := own.filter fun e => e.2.dirty
  let place (k : Nat) : Option Nat := s.backPlace (keyCtx k) (keyObj k) (keyWord k)
  if (x.crossing && !out.isEmpty) || out.any fun e => (place e.1).isNone then none
  else some ((out.foldl (fun y e => y.putWord (keyCtx e.1) (keyObj e.1) (keyWord e.1) ((place e.1).getD 0) e.2.data) s).modCluster c fun y =>
    { y.dropWords fun k _ => k / 64 == line with homeOnly := (own.map fun e => (e.1, e.1)) ++ y.homeOnly })
/-- The L1 has room for the line of a word, or holds the line. -/
def Cluster.takes (x : Cluster) (key : Nat) : Bool :=
  (linesOf x.l1).contains (key / 64) || decide ((linesOf x.l1).length < x.l1Lines)
/-- Room in the L1 for the line of a word: where it is full, a line leaves, of those that can, by a free value (R3, R169; log 80). -/
def State.room (s : State) (c key : Nat) : Option State :=
  let x := s.cluster c
  let l := linesOf x.l1
  if x.takes key then some s
  else
    let f := s.free
    let n := f.1.toNat % l.length
    (l.drop n ++ l.take n).findSome? fun line => f.2.evict c line

/-- Put 16 words of a sector into an L1, but for the words it owns, each with the clusters to which it is not forwarded. -/
def Cluster.putSector (x : Cluster) (ctx obj b : Nat) (f : Nat → Word) (bars : Nat → List Nat) (fromHome : Bool) : Cluster :=
  { x with
    l1 := (List.range 16).foldl (fun l j =>
      let k := wordKey ctx obj (b + j)
      if (Tab.get {} l k).own then l else Tab.put l k { data := f (b + j), bars := bars (b + j) }) x.l1
    homeOnly :=
      if fromHome then cutRange x.homeOnly (wordKey ctx obj b) (wordKey ctx obj (b + 15)) else x.homeOnly }

/-- Clusters whose store to a word the home slice was not told of as it answered: owners in `s`, none in `seen`. -/
def State.missed (s seen : State) (c ctx obj i : Nat) : List Nat :=
  (s.clusters.filter fun e => e.1 != c && e.2.lateAt ctx obj i && ((seen.cluster e.1).owned ctx obj i).isNone).map fun e => e.1
/-- Fill the sector of byte `off`, whose place is `a`, from the home slice as it sees the module `seen`; an L1 that has no room keeps
nothing of it. -/
def State.fillSector (s seen : State) (c ctx obj off a : Nat) : State :=
  let b := off / 64 * 16
  match s.room c (wordKey ctx obj b) with
  | some y => y.modCluster c fun x => x.putSector ctx obj b (fun i => seen.homeWord ctx obj i (a - off % 64 + 4 * (i - b)))
      (fun i => s.missed seen c ctx obj i) true
  | none => s

/-- What a read brings into the L1: nothing where it goes by a descriptor that its object has no longer (R164). -/
def State.filled (s seen : State) (c : Nat) (w : Warp) (ctx obj off a : Nat) : State :=
  if w.under.isSome then s else s.fillSector seen c ctx obj off a

/-- A peer's L1 supplies the sector (R170): it is on the die, holds the sector valid and owns none of its words; and it is not asked
for what the cluster reads at home next, nor for copies that may be older than the cluster may read. -/
def State.peerSupplies (s : State) (c peer ctx obj off : Nat) : Bool :=
  let b := off / 64 * 16
  peer != c && dieOf peer == dieOf c &&
  (List.range 16).all fun j =>
    let k := wordKey ctx obj (b + j)
    (match look (s.cluster peer).l1 k with
      | some e => !e.bars.contains c
      | none => false) && ((s.cluster peer).owned ctx obj (b + j)).isNone && !inRanges (s.cluster c).homeOnly k

/-- The sector comes from a peer's L1; an L1 that has no room keeps nothing of it. -/
def State.fillFromPeer (s : State) (c peer ctx obj off : Nat) : State :=
  let b := off / 64 * 16
  let e (i : Nat) : L1Word := Tab.get {} (s.cluster peer).l1 (wordKey ctx obj i)
  match s.room c (wordKey ctx obj b) with
  | some y => y.modCluster c fun x => x.putSector ctx obj b (fun i => (e i).data) (fun i => (e i).bars) false
  | none => s

/-- A miss of the L1 that the home slice answers: a peer, by the forward predictor's choice (log 6), has been asked and has
declined, unless forwarding is bypassed or PEER_PROBE has told of it already (R170, R186). -/
def State.probeMiss (s : State) (c ctx obj off : Nat) : State :=
  let k := wordKey ctx obj (off / 64 * 16)
  let x := s.cluster c
  if (List.range 16).any fun j => inRanges x.homeOnly (k + j) then s
  else if x.probed.contains k then s.modCluster c fun y => { y with probed := y.probed.filter fun i => i != k }
  else
    let lo := Config.dieClusters * dieOf c
    let peers := (List.range Config.dieClusters).filterMap fun i =>
      if lo + i = c ∨ s.peerSupplies c (lo + i) ctx obj off then none else some (lo + i)
    let f := s.free
    match peers[f.1.toNat % peers.length]? with
    | some p => (f.2.count c .peerProbes 1).count p .forwardsDeclined 1
    | none => s

/-- The cluster becomes the owner of a word with a value (R169): every other copy that is owned goes, updates merged; a copy in
a mapped line of the cluster is filled anew at its next touch. `late` tells that the home slice is not told yet, `both` that the store
is of 8 bytes. -/
def State.ownWord (s : State) (c ctx obj i : Nat) (v : Word) (by_ : Option (Nat × Nat)) (late both : Bool := false) : State :=
  let k := wordKey ctx obj i
  let old := (s.cluster c).copies ctx obj i
  let e : L1Word :=
    { data := s.globalHeld ctx obj i v, own := true, dirty := true, writers := (by_.toList ++ (s.cluster c).writersOf ctx obj i).eraseDups
      late := late, both := late && (both || old.any fun q => q.both) }
  (((s.dropOwners c ctx obj i).dropUps ctx obj i).homeNext c [(k, k)]).modCluster c fun x =>
    let y := if late then x else x.told fun q => q == k
    { y with
      l1 := Tab.put y.l1 k e
      mapped := y.dropMapped (y.mapWords ctx obj i)
      homeOnly := cutRange y.homeOnly k k }

/-- The value an L1 store builds on: the cluster's own, or the home slice's. -/
def State.baseWord (s : State) (c ctx obj i a : Nat) : Word :=
  ((s.cluster c).owned ctx obj i).getD (s.homeWord ctx obj i a)
/-- The unowned halves of doublewords whose other word is read anew (R123). -/
def State.loseMates (s : State) (c ctx obj off size : Nat) : State :=
  s.modCluster c fun x =>
    let js := (wordList off size).flatMap fun i => x.mapWords ctx obj i
    { x.dropWords fun k e => !e.own && (wordList off size).any fun i => k == mateWord (wordKey ctx obj i) with
      mapped := x.mapped.filter fun e => e.2.own || !js.contains (mateWord e.1) }

/-- A store of the cluster to the words may stay untold for a while: nobody else owns one, the home slice has collected no updates of
them, and it has not been told of a copy that the cluster owns. -/
def State.hidable (s : State) (c ctx obj off size : Nat) : Bool :=
  (wordList off size).all fun i => (s.ups ctx obj i).isEmpty && s.clusters.all fun e =>
    (e.2.owned ctx obj i).isNone || (e.1 == c && e.2.lateAt ctx obj i)
/-- A store into the L1 (R169); `a` is the place of byte `off`, which a store of whole words does not use. -/
def State.l1Put (s : State) (c ctx obj off size a v : Nat) (by_ : Option (Nat × Nat)) (late : Bool := false) : State :=
  (wordList off size).foldl (fun x i =>
    let w := storeWord (x.baseWord c ctx obj i (a - off % 4 + 4 * (i - off / 4))) off size v i
    x.ownWord c ctx obj i w by_ late (size == 8)) s
/-- A store into the L1. Where the home slice need not be told at once, a free value says whether it is: until then, another cluster's
weak read may miss the store (R189; log 80). -/
def State.l1Store (s : State) (c ctx obj off size a v : Nat) (by_ : Option (Nat × Nat)) : State :=
  if s.hidable c ctx obj off size then
    let f := s.free
    f.2.l1Put c ctx obj off size a v by_ (f.1.getLsbD 0)
  else s.l1Put c ctx obj off size a v by_
/-- The home slice is told of the late stores to the words that `sel` picks by their keys. -/
def State.tellKeys (s : State) (sel : Nat → Bool) : State :=
  if s.clusters.any fun e => e.2.anyLate then { s with clusters := s.clusters.map fun e => (e.1, e.2.told sel) } else s
/-- The home slice is told of every store of a range, before what an access there answers with it. -/
def State.telling (s : State) (ctx obj off size : Nat) : State := s.tellKeys fun k => inRanges [accessKeys ctx obj off size] k
/-- Another cluster holds a store of the sectors that the home slice has not been told of. -/
def State.untold (s : State) (c ctx obj off size : Nat) : Bool :=
  s.clusters.any fun e => e.1 != c && (e.2.l1.any (fun w => w.2.late && sectorKeys ctx obj off size w.1) ||
    e.2.mapped.any fun w => w.2.late && e.2.mappedIn (sectorKeys ctx obj off size) w.1)
/-- The module as the home slice sees it that is not told of the stores of other clusters than `c` that `hid` picks. -/
def State.withoutLate (s : State) (c : Nat) (hid : Nat → Bool) : State :=
  { s with clusters := s.clusters.map fun e =>
      (e.1, if e.1 = c then e.2 else { e.2 with
        l1 := e.2.l1.filter fun w => !(w.2.late && hid w.1)
        mapped := e.2.mapped.filter fun w => !(w.2.late && e.2.mappedIn hid w.1) }) }
/-- A weak read that reaches its home slices: of each doubleword of the sectors a free value says whether the slice is told of late
stores there first, or misses them (R123, R189; log 80). The place, and the module as the slices see it. -/
def State.weakSlice (s : State) (c : Nat) (w : Warp) (ctx obj off n : Nat) : Got (Nat × State) :=
  let f := s.free
  let open_ := s.untold c ctx obj off n
  let hid (k : Nat) : Bool := open_ && sectorKeys ctx obj off n k && f.1.getLsbD (k / 2 % 64)
  match (if open_ then f.2.tellKeys fun k => sectorKeys ctx obj off n k && !hid k else s).slice c w ctx obj off n with
  | .ok x a => .ok x (a, if open_ then x.withoutLate c hid else x)
  | .waits cause => .waits cause
  | .fails cause => .fails cause

/-! ### The stash and its mappings (R172 to R175) -/

/-- The live mapping of a workgroup that holds stash byte `off`. -/
def Wg.mapAt (g : Wg) (off : Nat) : Option Map :=
  (g.maps.find? fun m => m.2.live && decide (m.2.soff ≤ off ∧ off < m.2.soff + m.2.len)).map fun m => m.2
/-- Object and offset that an access stands for: in a mapped line, those of the global bytes (R175). -/
def Wg.standsFor (g : Wg) (obj off : Nat) : Nat × Nat :=
  match (if obj = stashObj then g.mapAt off else none) with
  | some m => (capObj m.cap, capOff m.cap + (off - m.soff))
  | none => (obj, off)

/-- A demand access meets what prefetches brought to the cluster's L1 (R121). -/
def State.demand (s : State) (c : Nat) (w : Warp) (obj off size : Nat) : State :=
  let keys := (wordList off size).map fun i => wordKey (s.wg c w.entry).ctx obj i
  let hit (p : Prefetched) : Bool := p.lvl == 0 && keys.any fun k => p.words.contains k
  let n := (s.cluster c).pf.countP hit
  if n = 0 then s
  else ((s.modCluster c fun y => { y with pf := y.pf.filter fun p => !hit p }).count c .pftUsed n).count c .pftTimely n
/-- The first touch of a mapped line fills it from the global range, but for the words it holds (R175). A line that is filled already is the
workgroup's own copy: its reads meet no SWAP until the layer's leaving has purged it (R243; DEDUCED, log 89). -/
def State.touch (s : State) (c : Nat) (w : Warp) (off : Nat) : Got Unit :=
  let g := s.wg c w.entry
  match g.mapAt off with
  | none => .ok s ()
  | some m =>
    let lo := off / 256 * 256
    let j0 := g.stashAt lo / 4
    let missing := (List.range 64).filter fun j => (look (s.cluster c).mapped (j0 + j)).isNone
    let obj := capObj m.cap
    let goff := capOff m.cap + (lo - m.soff)
    match missing with
    | [] => .ok s ()
    | _ :: _ =>
      match (s.demand c w obj goff 256).weakSlice c w g.ctx obj goff 256 with
      | .waits cause => .waits cause
      | .fails cause => .fails cause
      | .ok z (a, seen) =>
        .ok ((z.modCluster c fun x => missing.foldl (fun y j =>
          let v := seen.homeWord g.ctx obj (goff / 4 + j) (a + 4 * j)
          { (y.putStashBytes (4 * (j0 + j)) (leBytes 4 v.toNat)) with mapped := Tab.put y.mapped (j0 + j) { data := v } }) x).count
            c .stashFills 1) ()

def State.stashNat (s : State) (c : Nat) (g : Wg) (off size : Nat) : Nat :=
  leNat ((s.cluster c).stashBytes (g.stashAt off) size)

/-- A read of the stash. -/
def State.stashRead (s : State) (c : Nat) (w : Warp) (off size : Nat) : Got Nat :=
  match s.touch c w off with
  | .ok x _ => .ok x (x.stashNat c (x.wg c w.entry) off size)
  | .waits cause => .waits cause
  | .fails cause => .fails cause

/-- The mapped word at stash word `j` becomes the owner of its global word (R175); no other copy of it stays in the cluster. -/
def State.ownMapped (s : State) (c j : Nat) (by_ : Option (Nat × Nat)) (late both : Bool) : State :=
  match (s.cluster c).globalOf j with
  | none => s
  | some (ctx, obj, i) =>
    let k := wordKey ctx obj i
    let old := (s.cluster c).copies ctx obj i
    let ws := (by_.toList ++ (s.cluster c).writersOf ctx obj i).eraseDups
    (((s.dropOwners c ctx obj i).dropUps ctx obj i).homeNext c [(k, k)]).modCluster c fun x =>
      let y := (if late then x else x.told fun q => q == k).dropWords fun q _ => q == k
      let e : L1Word :=
        { data := y.stashWord j, own := true, dirty := true, writers := ws, late := late
          both := late && (both || old.any fun q => q.both) }
      { y with mapped := Tab.put (y.dropMapped ((y.mapWords ctx obj i).filter fun q => q != j)) j e }
/-- The global words that mapped stash words from `j` on stand for may stay untold. -/
def State.hidableMapped (s : State) (c j n : Nat) : Bool :=
  (List.range n).all fun i => match (s.cluster c).globalOf (j + i) with
    | some (ctx, obj, k) => s.hidable c ctx obj (4 * k) 4
    | none => false

/-- Bring the current global value under a mapped word that a short store will change, unless it is owned. -/
def State.freshen (s : State) (c : Nat) (w : Warp) (j : Nat) : Got Unit :=
  match (s.cluster c).globalOf j with
  | none => .ok s ()
  | some (ctx, obj, i) =>
    if (Tab.get {} (s.cluster c).mapped j).own then .ok s ()
    else match (s.telling ctx obj (4 * i) 4).slice c w ctx obj (4 * i) 4 with
      | .waits cause => .waits cause
      | .fails cause => .fails cause
      | .ok x a =>
        let v := x.homeWord ctx obj i a
        .ok ((x.loseMates c ctx obj (4 * i) 4).modCluster c fun y => y.putStashBytes (4 * j) (leBytes 4 v.toNat)) ()

/-- A write of the stash. Where a mapping made since the access was checked is read-only, it meets RIGHTS (R174; log 81). -/
def State.stashWrite (s : State) (c : Nat) (w : Warp) (off size v : Nat) (by_ : Option (Nat × Nat)) : Got Unit :=
  if (s.wg c w.entry).readOnlyAt off size then .fails Cause.rights
  else match s.touch c w off with
  | .waits cause => .waits cause
  | .fails cause => .fails cause
  | .ok x _ =>
    let a := (x.wg c w.entry).stashAt off
    match (if size < 4 then x.freshen c w (a / 4) else .ok x ()) with
    | .waits cause => .waits cause
    | .fails cause => .fails cause
    | .ok y _ =>
      let hides := y.hidableMapped c (a / 4) (wordCount size)
      let f := y.free
      let z := (if hides then f.2 else y).modCluster c fun q => q.putStashBytes a (leBytes size v)
      .ok ((List.range (wordCount size)).foldl (fun q j => q.ownMapped c (a / 4 + j) by_ (hides && f.1.getLsbD 0) (size == 8)) z) ()

/-! ### Performing accesses (R168, R189, R190) -/

/-- Who writes: the entry of the workgroup and the thread's number in it. -/
def Warp.writer (w : Warp) (t : Nat) : Nat × Nat := (w.entry, 32 * w.num + t)
/-- The scope's point of coherence is the cluster's L1 (R168). -/
def nearScope : Scope → Bool
  | .wg => true
  | .cl => true
  | _ => false

/-- A weak read by a warp; none where the L1 or the peer named cannot supply it. -/
def State.weakRead (s : State) (c : Nat) (w : Warp) (obj off size : Nat) (via : Via) : Option (Got Nat) :=
  if obj = stashObj then some (s.stashRead c w off size)
  else
    let ctx := (s.wg c w.entry).ctx
    if s.swapped w ctx obj then some (.fails Cause.swap)
    else match via with
      | .l1 => ((s.cluster c).l1Nat ctx obj off size).map fun v => .ok s v
      | .peer p =>
        if s.peerSupplies c p ctx obj off && !(s.cluster c).crossing && !(s.cluster p).crossing then
          let v := wordsNat (fun i => ((s.cluster c).owned ctx obj i).getD (Tab.get {} (s.cluster p).l1 (wordKey ctx obj i)).data) off size
          some (.ok (((s.fillFromPeer c p ctx obj off).count c .peerProbes 1).count p .forwardsSupplied 1) v)
        else none
      | .home =>
        match s.weakSlice c w ctx obj off size with
        | .waits cause => some (.waits cause)
        | .fails cause => some (.fails cause)
        | .ok x (a, seen) => some (.ok (x.probeMiss c ctx obj off |>.filled seen c w ctx obj off a) (seen.homeNat ctx obj off size a))

/-- A weak read from the nearest level that serves it (R167). -/
def State.anyRead (s : State) (c : Nat) (w : Warp) (obj off size : Nat) : Got Nat :=
  match s.weakRead c w obj off size .l1 with
  | some g => g
  | none => (s.weakRead c w obj off size .home).getD (.waits Cause.translation)

/-- The cluster owns every word of an access. -/
def State.ownsAll (s : State) (c ctx obj off size : Nat) : Bool :=
  (wordList off size).all fun i => ((s.cluster c).owned ctx obj i).isSome

/-- A store of whole words into the L1, or of part of a word that the cluster owns: it reads nothing. A cause that memory would report is met here
(log 14). During a handshake only words that the cluster owns can be written: the registering of an owner leaves the cluster (R321). It
waits while an L1 that is full has no line that can leave. -/
def State.putNear (s : State) (c : Nat) (w : Warp) (ctx obj off size v : Nat) (by_ : Option (Nat × Nat)) : Got Unit :=
  if ((s.cluster c).crossing || s.snoopWaits c ctx obj off size) && !s.ownsAll c ctx obj off size then .waits Cause.migration
  else match s.place w ctx obj off size with
    | .fails cause => .fails cause
    | p => match s.room c (wordKey ctx obj (off / 4)) with
      | some x => .ok (x.l1Store c ctx obj off size 0 v by_) ()
      | none => .waits (match p with
        | .waits cause => cause
        | _ => Cause.migration)
/-- A store, or an atomic, that builds on what the bytes held (R169, R203): the words that the cluster does not own are fetched from
their home slice, and the unowned halves of their doublewords go (R123). The old number is given. -/
def State.modNear (s : State) (c : Nat) (w : Warp) (ctx obj off size : Nat) (f : Nat → Option Nat) (by_ : Option (Nat × Nat)) : Got Nat :=
  let step (x : State) (a : Nat) : Got Nat :=
    let v := wordsNat (fun i => x.baseWord c ctx obj i (a - off % 4 + 4 * (i - off / 4))) off size
    match x.room c (wordKey ctx obj (off / 4)) with
    | some y => .ok (y.l1Store c ctx obj off size a ((f v).getD v) by_) v
    | none => .waits Cause.migration
  if s.ownsAll c ctx obj off size then (if s.swapped w ctx obj then .fails Cause.swap else step s 0)
  else match (s.telling ctx obj off size).slice c w ctx obj off size with
    | .waits cause => .waits cause
    | .fails cause => .fails cause
    | .ok x a => step (x.loseMates c ctx obj off size) a
/-- What an access comes to, its number left out. -/
def Got.done {α : Type} : Got α → Got Unit
  | .ok s _ => .ok s ()
  | .waits cause => .waits cause
  | .fails cause => .fails cause
/-- A weak write by a thread (R169). -/
def State.weakWrite (s : State) (c : Nat) (w : Warp) (t obj off size v : Nat) : Got Unit :=
  let ctx := (s.wg c w.entry).ctx
  if obj = stashObj then s.stashWrite c w off size v (some (w.writer t))
  else if size < 4 then (s.modNear c w ctx obj off size (fun _ => some v) (some (w.writer t))).done
  else s.putNear c w ctx obj off size v (some (w.writer t))

/-- The host holds the page of an object's byte: the host adapter's port is its point of coherence at `.sys` (R168). -/
def State.hostPage (s : State) (ctx obj off : Nat) : Bool :=
  let d := s.desc ctx obj
  d.valid && d.kind != 1 && d.kind != 5 && decide (off < d.len) && field (s.pd (d.xlist + 8 * (off / pageSize d.pg)) 0) 61 2 == 2
/-- A strong access at the near scopes, whose point of coherence is the L1 (R168, R190, R203): a read of what the L1 does not hold fills it from
the home slice. -/
def State.strongNear (s : State) (c : Nat) (w : Warp) (ctx obj off size : Nat) (rmw : Bool) (f : Nat → Option Nat) : Got Nat :=
  match (if rmw then none else f 0) with
  | some v =>
    if size ≥ 4 then (match s.putNear c w ctx obj off size v none with
      | .ok x _ => .ok x 0
      | .waits cause => .waits cause
      | .fails cause => .fails cause)
    else s.modNear c w ctx obj off size f none
  | none =>
    if rmw then s.modNear c w ctx obj off size f none
    else if s.swapped w ctx obj then .fails Cause.swap
    else match (s.cluster c).l1Nat ctx obj off size with
      | some v => .ok s v
      | none => match s.weakSlice c w ctx obj off size with
        | .waits cause => .waits cause
        | .fails cause => .fails cause
        | .ok x (a, seen) => .ok (x.filled seen c w ctx obj off a) (seen.homeNat ctx obj off size a)
/-- A strong access at a wider scope, performed at the home slice, or for a host page at `.sys` past it (R168, R190, R203). -/
def State.strongFar (s : State) (c : Nat) (w : Warp) (ctx obj off size : Nat) (sc : Scope) (f : Nat → Option Nat) : Got Nat :=
  let x := s.telling ctx obj off size
  match (if sc = .sys ∧ s.hostPage ctx obj off = true then (x.l2Drop fun k _ => sectorKeys ctx obj off size k) else x).slice c w ctx obj off
      size with
  | .waits cause => .waits cause
  | .fails cause => .fails cause
  | .ok y a =>
    let v := y.homeNat ctx obj off size a
    match f v with
    | none => .ok y v
    | some u => .ok ((y.homePut ctx obj off size a u).forget c ctx obj off size) v
/-- A strong access in one step: the number read, and what it writes, if anything (R190, R203). `rmw` tells an atomic, before
which the L1 registers ownership of its words at the near scopes, whether it then writes or not. -/
def State.strongStep (s : State) (c : Nat) (w : Warp) (obj off size : Nat) (sc : Scope) (rmw : Bool) (f : Nat → Option Nat) :
    Got Nat :=
  let ctx := (s.wg c w.entry).ctx
  if obj = stashObj then
    match s.stashRead c w off size with
    | .ok x v =>
      match f v with
      | none => .ok x v
      | some u =>
        match x.stashWrite c w off size u none with
        | .ok y _ => .ok y v
        | .waits cause => .waits cause
        | .fails cause => .fails cause
    | g => g
  else if nearScope sc then s.strongNear c w ctx obj off size rmw f
  else s.strongFar c w ctx obj off size sc f

def State.strongRead (s : State) (c : Nat) (w : Warp) (obj off size : Nat) (sc : Scope) : Got Nat :=
  s.strongStep c w obj off size sc false fun _ => none
def State.strongWrite (s : State) (c : Nat) (w : Warp) (obj off size : Nat) (sc : Scope) (v : Nat) : Got Nat :=
  s.strongStep c w obj off size sc false fun _ => some v

/-- Where hardware outside the clusters finds bytes of an object: nowhere where their page has no place, or while a cluster that owns a
word of them is in a handshake (R321). -/
def State.objPlace (s : State) (ctx obj off size : Nat) : Option Nat :=
  match s.translate ctx obj off with
  | .found a => if s.snoopWaits Config.clusters ctx obj off size then none else some a
  | _ => none
/-- A read or a write of an object by such hardware, strong at `.dev` or wider. -/
def State.objRead (s : State) (ctx obj off size : Nat) : Option Nat :=
  (s.objPlace ctx obj off size).map fun a => s.homeNat ctx obj off size a
/-- Such a read reaches the home slices, which are told of the stores there, and the tier controller serves it (R169, R185). -/
def State.served (s : State) (ctx obj off size : Nat) : State :=
  (List.range ((off % 64 + size + 63) / 64)).foldl (fun x i => match x.translate ctx obj (off / 64 * 64 + 64 * i) with
    | .found a => x.mscServe a
    | _ => x) (s.telling ctx obj off size)
def State.objWrite (s : State) (ctx obj off size v : Nat) : Option State :=
  (s.objPlace ctx obj off size).map fun a => s.homePut ctx obj off size a v

/-! ### Write-backs (R169, R196, R199, R205) -/

/-- Write an owned word back, to its place or to its home slice. -/
def State.flushWord (s : State) (c : Nat) (w : Warp) (ctx obj i : Nat) (v : Word) : Got Unit :=
  match s.slice c { w with wants := 4 } ctx obj (4 * i) 4 true with
  | .ok x a => .ok ((x.putWord ctx obj i a v).modCluster c fun q => q.told fun k => k == wordKey ctx obj i) ()
  | .waits cause => .waits cause
  | .fails cause => .fails cause

/-- A word that has been written back. -/
def L1Word.clean (e : L1Word) : L1Word := { e with dirty := false, writers := [], late := false, both := false }
/-- Write back the dirty words of the L1 that `sel` picks; the address of a word that met a cause is given with it. -/
def State.flushL1 (s : State) (c : Nat) (w : Warp) (sel : Nat → Nat → Nat → L1Word → Bool) :
    List (Nat × L1Word) → Got Unit × Dword
  | [] => (.ok s (), 0)
  | (k, e) :: r =>
    if e.own && e.dirty && sel (keyCtx k) (keyObj k) (keyWord k) e then
      match s.flushWord c w (keyCtx k) (keyObj k) (keyWord k) e.data with
      | .ok x _ => (x.modCluster c fun q => { q with l1 := Tab.put q.l1 k e.clean }).flushL1 c w sel r
      | .waits cause => (.waits cause, objAddr (keyObj k) (4 * keyWord k))
      | .fails cause => (.fails cause, objAddr (keyObj k) (4 * keyWord k))
    else s.flushL1 c w sel r

/-- The same for mapped stash words. R186 does not say what one write-back is: each word counts (DESIGN CHOICE, log 71). -/
def State.flushMapped (s : State) (c : Nat) (w : Warp) (sel : Nat → Nat → Nat → L1Word → Bool) :
    List (Nat × L1Word) → Got Unit × Dword
  | [] => (.ok s (), 0)
  | (j, e) :: r =>
    match (s.cluster c).globalOf j with
    | none => s.flushMapped c w sel r
    | some (ctx, obj, i) =>
      if e.own && e.dirty && sel ctx obj i e then
        match s.flushWord c w ctx obj i ((s.cluster c).stashWord j) with
        | .ok x _ =>
          ((x.modCluster c fun q => { q with mapped := Tab.put q.mapped j e.clean }).count c .stashWritebacks 1).flushMapped c w sel r
        | .waits cause => (.waits cause, objAddr obj (4 * i))
        | .fails cause => (.fails cause, objAddr obj (4 * i))
      else s.flushMapped c w sel r

/-- Write back every dirty word of a cluster that `sel` picks. -/
def State.flush (s : State) (c : Nat) (w : Warp) (sel : Nat → Nat → Nat → L1Word → Bool) : Got Unit × Dword :=
  match s.flushL1 c w sel (s.cluster c).l1 with
  | (.ok x _, _) => x.flushMapped c w sel (x.cluster c).mapped
  | p => p

/-- Words written by given threads of a workgroup. -/
def L1Word.byAny (e : L1Word) (who : List (Nat × Nat)) : Bool := e.writers.any fun p => who.contains p

/-- A dirty word that `sel` picks whose page is not present: its object and offset (R165). -/
def State.stuckWord (s : State) (c : Nat) (w : Warp) (sel : Nat → Nat → Nat → L1Word → Bool) : Option (Nat × Nat) :=
  let x := s.cluster c
  let l := (x.l1.map fun e => (some (keyCtx e.1, keyObj e.1, keyWord e.1), e.2)) ++ x.mapped.map fun e => (x.globalOf e.1, e.2)
  l.findSome? fun e => match e.1 with
    | some (ctx, obj, i) =>
      if e.2.own && e.2.dirty && sel ctx obj i e.2 then
        match s.placeFrom c w ctx obj (4 * i) 4 with
        | .waits cause => if cause = Cause.translation then some (obj, 4 * i) else none
        | _ => none
      else none
    | none => none

/-! ### Recalls (R169) -/

/-- The owner of a word writes it back and gives it up. -/
def State.recallWord (s : State) (c ctx obj i : Nat) : State :=
  let x := s.cluster c
  match x.owned ctx obj i, s.backPlace ctx obj i with
  | some v, some a =>
    ((s.putWord ctx obj i a v).modCluster c fun y => y.dropOwned ctx obj i).count c .stashWritebacks (x.mappedDirty ctx obj i)
  | _, _ => s
/-- The owned words of a cluster: context, object and word. -/
def Cluster.ownedWords (x : Cluster) : List (Nat × Nat × Nat) :=
  (x.l1.filterMap fun e => if e.2.own then some (keyCtx e.1, keyObj e.1, keyWord e.1) else none) ++
    x.mapped.filterMap fun e => if e.2.own then x.globalOf e.1 else none
/-- The owned words whose place meets a range of memory, with their clusters. -/
def State.ownersAt (s : State) (a n : Nat) : List (Nat × Nat × Nat × Nat) :=
  s.clusters.flatMap fun e => (e.2.ownedWords.filter fun p => match s.translate p.1 p.2.1 (4 * p.2.2) with
    | .found b => decide (b < a + n ∧ a < b + 4)
    | _ => false).map fun p => (e.1, p)
/-- An access that names a place of memory and no word of an object recalls what meets it. -/
def State.recallAt (s : State) (a n : Nat) : State :=
  (s.ownersAt a n).foldl (fun x p => x.recallWord p.1 p.2.1 p.2.2.1 p.2.2.2) s

/-! ### Where an access goes (R305) -/

/-- The access goes to a device, or with none named to the host. -/
def State.goesTo (s : State) (w : Warp) (ctx obj off : Nat) (dev : Option Nat) : Bool :=
  let d := w.under.getD (s.desc ctx obj)
  let e := s.pd (d.xlist + 8 * (off / pageSize d.pg)) 0
  if obj = stashObj || !d.valid || d.kind == 1 then false
  else if d.kind = 5 then dev == some d.peer
  else e.getLsbD 63 && (match dev with
    | some p => field e 61 2 == 3 && field e 53 6 == p
    | none => field e 61 2 == 2)

/-! ### Binding regions (R194, R195) -/

/-- Regions bound to a synchronisation object: object, offset, length. -/
def State.regions (s : State) (ctx sobj soff : Nat) : List (Nat × Nat × Nat) :=
  (List.range 256).filterMap fun i =>
    let a := (s.ctx ctx).binds + 32 * i
    let d3 := s.pd a 3
    if (s.pd a 0).getLsbD 63 && field d3 36 24 == sobj && field d3 0 36 == soff then
      some (field (s.pd a 0) 0 24, field (s.pd a 1) 0 36, field (s.pd a 2) 0 32)
    else none
/-- Word `i` of an object lies in one of the regions. -/
def inRegions (l : List (Nat × Nat × Nat)) (obj i : Nat) : Bool :=
  l.any fun r => r.1 == obj && r.2.1 < 4 * i + 4 && 4 * i < r.2.1 + r.2.2

/-! ### Requests and the order of one thread's accesses (R122, R190) -/

def Load.size (l : Load) : Nat := convSize l.conv
/-- The load has not been performed. -/
def Load.open_ (l : Load) : Bool := !l.finished && l.fixed.isNone
def Req.open_ (r : Req) : Bool := match r.op with
  | .failed _ => false
  | .back => false
  | .accrd .. => false
  | .accrel _ => false
  | _ => true
/-- Two accesses keep their order: the same bytes, or both strong. -/
def ordered (obj off size : Nat) (strong : Bool) (obj' off' size' : Nat) (strong' : Bool) : Bool :=
  (obj == obj' && off < off' + size' && off' < off + size) || (strong && strong')

/-- An earlier load of one of the threads must be performed before the access. -/
def Load.before (l : Load) (id : Nat) (ts : List Nat) (obj off size : Nat) (strong : Bool) : Bool :=
  l.open_ && (l.threads.any fun t => ts.contains t) && l.id < id && ordered obj off size strong l.obj l.off l.size l.strong.isSome
/-- The request comes before every later access of its threads: an LARR may turn out to merge (R270). -/
def Req.first (r : Req) : Bool := match r.op with
  | .larr .. => true
  | _ => false
def Req.before (r : Req) (id : Nat) (ts : List Nat) (obj off size : Nat) (strong : Bool) : Bool :=
  r.open_ && (r.threads.any fun t => ts.contains t) && r.id < id &&
    (r.first || ordered obj off size strong r.obj r.off r.size r.strong.isSome)
def Warp.blocked (w : Warp) (id : Nat) (ts : List Nat) (obj off size : Nat) (strong : Bool) : Bool :=
  w.loads.any (fun l => l.before id ts obj off size strong) || w.reqs.any fun r => r.before id ts obj off size strong

/-- Read what a load reads, at a level that can serve it, or at the nearest, under the descriptor that it was checked against
(R164). A load whose port went down meets FABRIC (R305). -/
def State.readLoad (s : State) (c : Nat) (w : Warp) (l : Load) (via : Option Via) : Option (Got Nat) :=
  let v := { w with under := l.old }
  let x := if (l.strong.map nearScope).getD true then s.demand c w l.obj l.off l.size else s
  if l.lost then some (.fails Cause.fabric)
  else match l.strong with
    | none => match via with
      | some p => x.weakRead c v l.obj l.off l.size p
      | none => some (x.anyRead c v l.obj l.off l.size)
    | some sc => some (x.strongRead c v l.obj l.off l.size sc)

/-- Perform a load now, so that its reply carries the value read here (R99, R122; log 15). A peer that can supply the sector may do
so, by a free value. -/
def State.fixLoad (s : State) (c k : Nat) (l : Load) : State :=
  let w := s.warp c k
  if w.blocked l.id l.threads l.obj l.off l.size l.strong.isSome then s
  else
    let peers := (List.range Config.dieClusters).filter fun i =>
      s.peerSupplies c (Config.dieClusters * dieOf c + i) (s.wg c w.entry).ctx l.obj l.off
    let f := s.free
    let via := if peers.isEmpty then none
      else ((peers.map fun i => some (Via.peer (Config.dieClusters * dieOf c + i))) ++ [none])[f.1.toNat % (peers.length + 1)]?.join
    match (if peers.isEmpty then s else f.2).readLoad c w l (if ((s.cluster c).l1Nat (s.wg c w.entry).ctx l.obj l.off l.size).isSome then none
        else via) with
    | some (.ok x v) =>
      x.modWarp c k fun y =>
        { y with loads := y.loads.map fun z => if z.id = l.id then { z with fixed := some (BitVec.ofNat 64 v) } else z }
    | _ => s

/-- A request of a warp is done. -/
def Warp.dropReq (w : Warp) (id : Nat) : Warp := { w with reqs := w.reqs.filter fun r => r.id != id }

/-- The new value of an atomic; none where it writes nothing (R203). -/
def atomNew (fn ty : Nat) (old x y : Nat) : Option Nat :=
  let o := BitVec.ofNat 32 old
  let a := BitVec.ofNat 32 x
  let m := 2 ^ 64
  match fn with
  | 0 => some (if ty = 2 then (addF32 o a).toNat else if ty = 3 then (old + x) % m else (o + a).toNat)
  | 1 => some (if ty = 2 then (minmaxCode fp32 false false old x).1 else if ty = 1 then (minS o a).toNat else (minN o a).toNat)
  | 2 => some (if ty = 2 then (minmaxCode fp32 true false old x).1 else if ty = 1 then (maxS o a).toNat else (maxN o a).toNat)
  | 3 => some (Nat.land old x)
  | 4 => some (Nat.lor old x)
  | 5 => some (Nat.xor old x)
  | 6 => some x
  | _ => if old = x then some y else none

end Sys2Proof.Machine
end

