-- ==== Sys2Proof/Machine/Barrier.lean ====
section
/-! DEFINITION. Threads that wait for each other: JOIN (R28), BAR (R29), what both order in memory (R200), the exit of a
thread and the retirement of a warp (R31 to R33); and the sending of stores and atomics (R100, R203, R204). -/

namespace Sys2Proof.Machine

/-! ### Tiles (R27) -/

def Warp.tileSize (w : Warp) : Nat := 2 ^ (w.pt.toNat % 8)
/-- The threads of a thread's tile. -/
def Warp.tile (w : Warp) (t : Nat) : List Nat :=
  (List.range w.tileSize).map fun i => t - t % w.tileSize + i

/-! ### Accesses of a thread that are not performed -/

/-- Numbers of the accesses of a thread that have not been performed. -/
def Warp.openOf (w : Warp) (t : Nat) : List Nat :=
  ((w.loads.filter fun l => l.open_ && l.threads.contains t).map fun l => l.id) ++
  ((w.reqs.filter fun r => r.open_ && r.threads.contains t).map fun r => r.id)
/-- The access is not performed yet. -/
def Warp.isOpen (w : Warp) (id : Nat) : Bool :=
  (w.loads.any fun l => l.open_ && l.id == id) || w.reqs.any fun r => r.open_ && r.id == id

/-! ### JOIN -/

/-- The members of the JOIN that thread `t` waits at (R28). -/
def Warp.joinGroup (w : Warp) (t : Nat) : List Nat :=
  if (w.thread t).jt then w.members.filter fun u => (w.tile t).contains u else w.members
/-- Every member of the group is in JOIN with the same JT. -/
def Warp.joined (w : Warp) (t : Nat) : Bool :=
  (w.thread t).st == .join &&
  (w.joinGroup t).all fun u => (w.thread u).st == .join && (w.thread u).jt == (w.thread t).jt

/-- Release the JOINs of a warp that are full, once their members' accesses are performed (R28, R200). -/
def State.joinCheck (s : State) (c k : Nat) : State :=
  (List.range 32).foldl (fun x t =>
    let w := x.warp c k
    if w.joined t then
      let g := w.joinGroup t
      if g.all fun u => (w.openOf u).isEmpty then x.resume c k g else x
    else x) s

/-! ### BAR -/

/-- Warp slots of a resident workgroup, benches' first. -/
def Cluster.slotsOf (x : Cluster) (e : Nat) : List Nat := (x.warps.filter fun p => p.2.entry == e).map fun p => p.1
/-- The bench warps of a workgroup. -/
def Cluster.benchOf (x : Cluster) (e : Nat) : List Nat := (x.slotsOf e).filter fun k => k != Config.coreSlot
/-- Members of a barrier, as 32·slot + thread. -/
def Cluster.barMembers (x : Cluster) (e : Nat) : List Nat :=
  (x.benchOf e).flatMap fun k => (x.warp k).members.map fun t => 32 * k + t

def State.bar (s : State) (c e b : Nat) : Bar := Tab.get {} (s.wg c e).bars b
def State.setBar (s : State) (c e b : Nat) (x : Bar) : State := s.modWg c e fun g => { g with bars := Tab.put g.bars b x }

/-- Open accesses of threads, as (slot, access). -/
def Cluster.openAt (x : Cluster) (l : List Nat) : List (Nat × Nat) :=
  l.flatMap fun p => ((x.warp (p / 32)).openOf (p % 32)).map fun id => (p / 32, id)

/-- A generation completes when every member has arrived (R29). R20 gives each thread of a run its own lane cycle, and R29 does not say in
which of them a thread's BAR arrival, or its exit, counts: all those of a run count in the cycle in which it issues (DESIGN CHOICE,
log 84). -/
def State.barComplete (s : State) (c e b : Nat) : State :=
  let x := s.bar c e b
  let m := (s.cluster c).barMembers e
  if x.arrived.isEmpty || !(m.all fun p => x.arrived.contains p) then s
  else s.setBar c e b { x with gen := x.gen + 1, arrived := [], doneAt := (s.cluster c).cyc }

/-- Threads that wait at barrier `b` for a generation that is complete: not in the cycle of its completion (R29), nor while an
access made before an arrival in it is open (R200). -/
def Cluster.leavesBar (x : Cluster) (b : Nat) (y : Bar) (w : Warp) : List Nat :=
  (List.range 32).filter fun t =>
    let g := Tab.get 0 (w.thread t).gens b
    (w.thread t).st == .bar && (w.thread t).bid.toNat == b && decide (g < y.gen + 1) &&
      (decide (g < y.gen) || decide (y.doneAt < x.cyc)) && !(y.held.any fun p => p.1 + 1 == g)
/-- Waiters of completed generations leave (R29, R200). -/
def State.barRelease (s : State) (c e b : Nat) : State :=
  let x := s.bar c e b
  let held := x.held.filter fun p => ((s.cluster c).warp p.2.1).isOpen p.2.2
  let s1 := if held == x.held then s else s.setBar c e b { x with held := held }
  ((s1.cluster c).benchOf e).foldl (fun y k =>
    match (y.cluster c).leavesBar b { x with held := held } (y.warp c k) with
    | [] => y
    | go => y.resume c k go) s1

def State.barCheck (s : State) (c e : Nat) : State :=
  (s.wg c e).bars.foldl (fun x p => (x.barComplete c e p.1).barRelease c e p.1) s

/-- What follows from a change of a warp's results, states or accesses: threads leave SWITCH and FAULT, full JOINs and
completed barriers release. -/
def State.stir (s : State) (c k : Nat) : State := ((s.wake c k).joinCheck c k).barCheck c (s.warp c k).entry

/-- The arrival of a thread at a barrier (R29): a second arrival in one generation is not counted. A thread records the
generation of its last arrival, kept plus one so that 0 stands for never. Its accesses before a first arrival that are
not performed yet hold the generation's waiters (R200). -/
def State.arrive (s : State) (c k t b : Nat) : State :=
  let e := (s.warp c k).entry
  let x := s.bar c e b
  let s1 := if x.arrived.contains (32 * k + t) then s
    else s.setBar c e b { x with
      arrived := x.arrived ++ [32 * k + t]
      held := x.held ++ ((s.cluster c).openAt [32 * k + t]).map fun p => (x.gen, p) }
  s1.modThread c k t fun z => { z with gens := Tab.put z.gens b (x.gen + 1) }

/-! ### Exit and retirement (R31) -/

/-- A thread ends: its arrivals are taken from the barriers, and what it accessed before them still counts (R29). -/
def State.exitThread (s : State) (c k t : Nat) : State :=
  let e := (s.warp c k).entry
  let s1 := (s.wg c e).bars.foldl (fun x p =>
    if p.2.arrived.contains (32 * k + t) then
      x.setBar c e p.1 { p.2 with arrived := p.2.arrived.filter fun q => q != 32 * k + t }
    else x) s
  s1.modThread c k t fun y => { y with st := .exited, marked := false, atPort := [] }

/-- The request is a load, which a retiring warp gives up; a tarnish access is performed all the same (R252). -/
def Req.isLoad (r : Req) : Bool := match r.op with
  | .ldh .. => true
  | .accrd .. => true
  | .kvx .. => true
  | .pfxh .. => true
  | .rnext .. => true
  | _ => false

/-- Loads and tickets of a retiring warp are discarded (R31, R109). -/
def State.discard (s : State) (c k : Nat) : State :=
  let w := s.warp c k
  let n := (w.tickets.map fun p => if p.2.valid then (List.range 32).countP (fun t => bitOf p.2.lanes t) else 0).sum
  (s.setWarp c k { w with
    loads := [], longs := [], tickets := [], waits := [], reqs := w.reqs.filter fun r => !r.isLoad }).count c .guessesDiscarded n

/-- An ACCRD.w of a row by a thread of an ACCREL of it that stands after it: it waits for a later cycle than the ACCREL's. -/
def Req.readsAfter (q r : Req) (row : Nat) : Bool := decide (r.id < q.id) && (q.threads.any fun t => r.threads.contains t) && (match q.op with
  | .accrd row' _ _ => row' == row
  | _ => false)
/-- ACCRELs whose earlier reads of the row are performed clear the row's flag, if it is not too late for that in this cycle
(R231, R232). -/
def State.release (s : State) (c k : Nat) : State :=
  if !(s.cluster c).mayStage 3 then s
  else (s.warp c k).reqs.foldl (fun x r =>
    match r.op with
    | .accrel row =>
      let held := (x.warp c k).reqs.any fun q => decide (q.id < r.id) && (q.threads.any fun t => r.threads.contains t) &&
        (match q.op with
          | .accrd row' _ _ => row' == row
          | _ => false)
      if held || decide ((x.cluster c).cyc < r.leave) then x
      else
        let next (q : Req) : Req := if q.readsAfter r row then { q with leave := max q.leave ((x.cluster c).cyc + 1) } else q
        (x.modWarp c k fun w => { w with reqs := (w.reqs.filter fun q => q.id != r.id).map next }).modCluster c fun y =>
          (y.setReady row false).toStage 3
    | _ => x) s

/-- The same of every warp of the cluster, and of the entries of its retirement tracker. -/
def State.releaseAll (s : State) (c : Nat) : State :=
  let x := s.cluster c
  (x.warps ++ x.tracker.map fun p => (trackSlot + p.1, p.2)).foldl (fun q p => q.release c p.1) s
/-- Work that keeps a warp's slot or a tracker entry (R31). -/
def Warp.unfinished (w : Warp) : Bool := !w.reqs.isEmpty || !w.cmds.isEmpty

/-- The warp retires when its last thread has exited (R31). By EXIT it keeps its slot until its work is performed. -/
def State.retireByExit (s : State) (c k : Nat) : State :=
  if (s.warp c k).members.isEmpty then ((s.discard c k).release c k).modWarp c k fun w => { w with retiring := true }
  else s

/-- A free entry of the retirement tracker (R32). -/
def Cluster.freeTracker (x : Cluster) : Option Nat := (List.range 64).find? fun i => (look x.tracker i).isNone

/-- Accesses that barriers wait for are those of the entry now (R29, R200). -/
def Cluster.moveHeld (x : Cluster) (e k k' : Nat) : Cluster :=
  x.setWg e { x.wg e with bars := (x.wg e).bars.map fun b =>
    (b.1, { b.2 with held := b.2.held.map fun p => if p.2.1 = k then (p.1, k', p.2.2) else p }) }
/-- By TAIL a warp hands its work to the tracker and frees its slot (R31, R32). -/
def State.retireByTail (s : State) (c k : Nat) : State :=
  if (s.warp c k).members.isEmpty then
    let x := (s.discard c k).release c k
    let w := x.warp c k
    x.modCluster c fun q =>
      let free := { q with warps := Tab.del q.warps k }
      if w.unfinished then
        match q.freeTracker with
        | some i =>
          { (free.moveHeld w.entry k (trackSlot + i)) with
            tracker := Tab.put q.tracker i
              { unit := w.unit, entry := w.entry, num := w.num, holds := w.holds, reqs := w.reqs, cmds := w.cmds, left := k
                nextId := w.nextId } }
        | none => free
      else free
  else s

/-- Exit the threads one after the other; then the groups they were members of are seen again. -/
def State.exitAll (s : State) (c k : Nat) (ts : List Nat) : State :=
  let e := (s.warp c k).entry
  ((ts.foldl (fun x t => x.exitThread c k t) s).joinCheck c k).barCheck c e

/-! ### Sending stores and atomics (R100, R122, R190, R203, R204) -/

/-- The right that a request needs of a peer's entry (R304). -/
def Req.right (r : Req) : Nat := match r.op with
  | .store _ => 4
  | .atom .. => 2
  | .scat .. => 2
  | _ => 8
/-- The effect of a store or of an atomic where it is performed, under the descriptor that it was checked against (R164): the
old value for an atomic. One whose port went down meets FABRIC (R305). -/
def State.performAt (s0 : State) (c : Nat) (w0 : Warp) (r : Req) : Got Nat :=
  let s := if (r.strong.map nearScope).getD true then s0.demand c w0 r.obj r.off r.size else s0
  let w := { w0 with under := r.old, wants := r.right }
  if r.lost then .fails Cause.fabric else
  match r.op with
  | .store bytes =>
    match r.strong with
    | none =>
      match s.weakWrite c w r.t r.obj r.off r.size (leNat bytes) with
      | .ok x _ => .ok x 0
      | .waits cause => .waits cause
      | .fails cause => .fails cause
    | some sc => s.strongWrite c w r.obj r.off r.size sc (leNat bytes)
  | .atom fn ty x y _ => s.strongStep c w r.obj r.off r.size (r.strong.getD .dev) true fun old => atomNew fn ty old x.toNat y.toNat
  | _ => .ok s 0

/-- An earlier lane of the same word names bytes of it: such lanes are performed in ascending thread number (R203). -/
def Warp.laneBefore (w : Warp) (r : Req) : Bool :=
  w.reqs.any fun q => q.group == r.group && decide (q.id < r.id) && q.open_ && q.obj == r.obj &&
    decide (q.off < r.off + r.size ∧ r.off < q.off + q.size)

/-- A store, an atomic or another request of the run's word stands among those of its warp, to be performed at its own event: it leaves
the lane in its thread's lane cycle (R20; log 15). -/
def State.send (s : State) (r : Req) (once : Bool := true) : State :=
  s.modMe fun w => { w with reqs := w.reqs ++ [{ r with leave := s.leaves r.t once }] }
/-- The request's lane cycle is to come, or an earlier access of its threads, or of a lane of its word to its bytes, is not performed, or
a fault of the memory port holds it. -/
def State.notYet (s : State) (c : Nat) (w : Warp) (r : Req) (strong : Bool) : Bool :=
  decide ((s.cluster c).cyc < r.leave) || w.blocked r.id r.threads r.obj r.off r.size strong || s.recordOpen r.recAt

end Sys2Proof.Machine
end

