-- ==== Sys2Proof/Machine/Control.lean ====
section
/-! DEFINITION. Fetching words (R39), the repeat prefix (R54, R55), branches and calls (R84, R85), JOIN and BAR (R28, R29),
EXIT, TAIL and YIELD (R86), traps (R90), special registers (R66), masks and partition (R82, R83), XI (R65) and MOVW (R93). -/

namespace Sys2Proof.Machine

/-! ### Fetch -/

/-- What a fetch gives: a word; nothing, at or beyond the code object's length; or a wait for the page. -/
inductive Fetched where
  | word (w : Nat)
  | beyond
  | waits
  deriving DecidableEq, Repr, Inhabited

/-- The word at byte offset `pc` of the kernel's code object (R39). R39 does not say what a fetch meets whose 8 bytes reach past
a length that is no multiple of 8, nor one of an object that is no longer a valid, readable object of kind code: both are
taken as beyond the length; nor what a fetch meets whose place has a cause of R57: it waits (DESIGN CHOICE, log 68). -/
def State.fetch (s : State) (c : Nat) (w : Warp) (pc : BitVec 40) : Fetched :=
  let g := s.wg c w.entry
  let d := s.desc g.ctx g.cobj
  if !d.valid || d.kind ≠ 6 || d.rights < 8 || pc.toNat + 8 > d.len then .beyond
  else match s.place w g.ctx g.cobj pc.toNat 8 with
    | .found a => .word (s.homeNat g.ctx g.cobj pc.toNat 8 a)
    | _ => .waits

/-- The fields of a REP word (R54): the steps of D, A, B, C and CNT. -/
def repOf (u : Core) (w : Nat) : Option (BitVec 2 × BitVec 2 × BitVec 2 × BitVec 2 × Nat) :=
  match decode u w with
  | .ok (.rep _ sd sa sb sc cnt) => some (sd, sa, sb, sc, cnt.toNat)
  | _ => none

/-! ### Plain control words -/

/-- The thread goes to `pc`. -/
def State.jump (s : State) (t : Nat) (pc : BitVec 40) : State := s.modMe fun w => w.modThread t fun y => { y with pc := pc }
def State.taint (s : State) (t : Nat) : State := s.modMe fun w => w.modThread t fun y => { y with tt := true }

/-- NOP. -/
def execNop (h : Hdr) (s : State) : Host.Outcome State Fault Refusal := .next (issue s { h := h } fun x _ => (x, []))

/-- The target of BRA, BRC and CALL (R84). -/
def target (pc : BitVec 40) (w : BitVec 32) : BitVec 40 := pc + 8 + (w.signExtend 40) * 8

/-- BRA (R84). -/
def execBra (h : Hdr) (w : BitVec 32) (s : State) : Host.Outcome State Fault Refusal :=
  .next (issue s { h := h } fun x ts => (ts.foldl (fun y t => y.jump t (target s.cur.pc w)) x, []))

/-- BRC (R84): a guessed condition needs `.g`, which taints. -/
def execBrc (h : Hdr) (neg gf : Bool) (w : BitVec 32) (s : State) : Host.Outcome State Fault Refusal :=
  .next (issue s { h := h, cm := true } (perLane fun x t =>
    let p := bitOf x.me.cpm t
    if p && !gf then .hit Cause.plateControl 0 x
    else
      let y := if p then x.taint t else x
      .ok (if bitOf x.me.cm t != neg then y.jump t (target s.cur.pc w) else y)))

/-- JMPI and RET (R85). -/
def jumpTo (h : Hdr) (a : Opd) (s : State) : State :=
  let l := [srcA a]
  issue s { h := h, named := namedOf none l, once := uniform [a] } (lanes (uniform [a]) fun x t ts =>
    match checkSrcs x.me t l with
    | some (cause, addr) => .hit cause addr x
    | none =>
      let v := x.me.val t a
      if (x.me.read t a).plate then .hit Cause.plateControl 0 x
      else if v.toNat % 8 ≠ 0 then .hit Cause.align (v.setWidth 64) x
      else .ok (ts.foldl (fun y u => y.jump u (v.setWidth 40)) x))
/-- JMPI (R85). -/
def execJmpi (h : Hdr) (a : Opd) (s : State) : Host.Outcome State Fault Refusal := .next (jumpTo h a s)
/-- RET (R85). -/
def execRet (h : Hdr) (a : Opd) (s : State) : Host.Outcome State Fault Refusal := .next (jumpTo h a s)

/-- CALL (R84). -/
def execCall (h : Hdr) (d : Opd) (w : BitVec 32) (s : State) : Host.Outcome State Fault Refusal :=
  .next (issue s { h := h, named := [(d, 1)], once := uniform [d] } (lanes (uniform [d]) fun x t ts =>
    let y := x.writeReg t (x.me.dst d) ((s.cur.pc + 8).setWidth 32) 0 (x.me.anyTaint ts)
    .ok (ts.foldl (fun z u => z.jump u (target s.cur.pc w)) y)))

/-! ### JOIN, BAR, EXIT, TAIL, YIELD -/

/-- JOIN (R28). -/
def execJoin (h : Hdr) (tile : Bool) (s : State) : Host.Outcome State Fault Refusal :=
  .next (issue s { h := h } fun x ts =>
    ((x.modMe fun w => ts.foldl (fun v t => v.modThread t fun y => { y with st := .join, jt := tile }) w).joinCheck
      s.cur.cl s.cur.slot, []))

/-- Threads wait at a barrier for the generation of their last arrival (R29). -/
def State.waitBar (s : State) (ts : List Nat) (b : BitVec 4) : State :=
  s.modMe fun w => ts.foldl (fun v t => v.modThread t fun y => { y with st := .bar, bid := b }) w

/-- BAR: arrive and wait (R29). -/
def execBarArriveWait (h : Hdr) (id : BitVec 4) (s : State) : Host.Outcome State Fault Refusal :=
  .next (issue s { h := h, sync := true } fun x ts =>
    let y := ts.foldl (fun z t => z.arrive s.cur.cl s.cur.slot t id.toNat) x
    ((y.waitBar ts id).barCheck s.cur.cl s.me.entry, []))
/-- BAR.arrive (R29). -/
def execBarArrive (h : Hdr) (id : BitVec 4) (s : State) : Host.Outcome State Fault Refusal :=
  .next (issue s { h := h, sync := true } fun x ts =>
    ((ts.foldl (fun z t => z.arrive s.cur.cl s.cur.slot t id.toNat) x).barCheck s.cur.cl s.me.entry, []))
/-- BAR.wait (R29): a thread that never arrived goes on. -/
def execBarWait (h : Hdr) (id : BitVec 4) (s : State) : Host.Outcome State Fault Refusal :=
  .next (issue s { h := h, sync := true } fun x ts =>
    let go := ts.filter fun t => Tab.get 0 (x.me.thread t).gens id.toNat != 0
    ((x.waitBar go id).barCheck s.cur.cl s.me.entry, []))

/-- EXIT (R31, R86). -/
def execExit (h : Hdr) (s : State) : Host.Outcome State Fault Refusal :=
  .next (issue s { h := h, sync := true } fun x ts =>
    (if ts.isEmpty then x else (x.exitAll s.cur.cl s.cur.slot ts).retireByExit s.cur.cl s.cur.slot, []))

/-- A warp whose last thread leaves by TAIL needs a tracker entry that is not free (R32). -/
def State.tailWaits (s : State) : Bool :=
  let w := s.me
  ((w.reqs.any fun r => !r.isLoad) || !w.cmds.isEmpty) && s.myCluster.freeTracker.isNone

/-- TAIL (R31, R32): the last thread of the warp may have to wait for a tracker entry, at the TAIL. A store's cause that is deferred to the
thread already is dropped with it, with no record and no FL: R100 does not list TAIL, and R32 speaks of errors found while an entry drains
(DESIGN CHOICE, log 85). -/
def execTail (h : Hdr) (s : State) : Host.Outcome State Fault Refusal :=
  .next (issue s { h := h } fun x ts =>
    let c := s.cur.cl
    let k := s.cur.slot
    match ts.getLast? with
    | none => (x, [])
    | some l =>
      let y := x.exitAll c k (ts.filter fun t => t != l)
      if y.me.members == [l] && y.tailWaits then
        (y.modMe fun w => w.modThread l fun z => { z with st := .track, pc := s.cur.pc }, [])
      else ((y.exitAll c k [l]).retireByTail c k, []))

/-- YIELD (R86): the lane's seats alternate at the end of every run (R21), so nothing else is left to do. -/
def execYield (h : Hdr) (s : State) : Host.Outcome State Fault Refusal := .next (issue s { h := h } fun x _ => (x, []))

/-! ### Traps -/

/-- TRAP (R90). -/
def execTrap (h : Hdr) (code : BitVec 16) (s : State) : Host.Outcome State Fault Refusal :=
  .next (issue s { h := h } (perLane fun x _ => .hit Cause.trap (code.setWidth 64) x))

/-- The PC that a thread returns to (R90). PC[2:0] are always 0 (R22): bits of TPC below 3 and above 39 are not used, since no
rule says what they do (DESIGN CHOICE, log 69). -/
def Thread.backTo (x : Thread) : BitVec 40 := (x.tpc &&& 0xFFFFFFFFF8#64).setWidth 40

/-- TRET.replay (R90). -/
def execTretReplay (h : Hdr) (s : State) : Host.Outcome State Fault Refusal :=
  .next (issue s { h := h } (perLane fun x t =>
    let y := x.me.thread t
    if !y.tcause.getLsbD 31 then .hit Cause.illegal 0 x
    else .ok (x.modMe fun w => w.setThread t (y.leave y.backTo))))

/-- A thread that would resume does not find its word: the page must wait. -/
def State.tretWaits (s : State) (h : Hdr) : Bool :=
  (decodeCause s { h := h }).isNone && ((s.goers { h := h }).filter fun t => s.me.guarded h.g t).any fun t =>
    (s.me.thread t).tcause.getLsbD 31 && (match s.fetch s.cur.cl s.me (s.me.thread t).backTo with
      | .waits => true
      | _ => false)
/-- TRET.resume (R55, R90): at a REP word one repeat fewer is left, and with none left the PC passes the repeated word; REPC = 0
there, for which R55 has no value one less, is left 0 and passes the repeated word (DESIGN CHOICE, log 69). While a page that
the word must be read from has to wait, TRET waits in issue. -/
def execTretResume (h : Hdr) (s : State) : Host.Outcome State Fault Refusal :=
  .next (if s.tretWaits h then s else issue s { h := h } (perLane fun x t =>
    let y := x.me.thread t
    let pc := y.backTo
    if !y.tcause.getLsbD 31 then .hit Cause.illegal 0 x
    else
      let isRep := match x.fetch x.cur.cl x.me pc with
        | .word w => (repOf x.me.unit w).isSome
        | _ => false
      if isRep then
        let n := y.repc.toNat - 1
        .ok (x.modMe fun w => w.setThread t { (y.leave (if n = 0 then pc + 16 else pc)) with repc := BitVec.ofNat 32 n })
      else .ok (x.modMe fun w => w.setThread t (y.leave (pc + 8)))))

/-! ### REP (R54, R55; log 9) -/

/-- What REP comes to by the word after it. -/
inductive RepWord where
  | ok
  /-- ILLEGAL, with what TADDR holds. -/
  | illegal (addr : Dword)
  /-- The page of the word must wait. -/
  | waits
  deriving DecidableEq, Repr, Inhabited

/-- REP is ILLEGAL for what follows it: nothing, at or beyond the code's length, which TADDR names (R39); a pair, a major that
cannot repeat, a step of a field not used as a register (R54). A non-zero step before a word that does not decode, for a reserved FN or a
field that must be 0, is not one of these: R54 does not say what such a word uses as a register, and the word is ILLEGAL in repeat 0, with
REPC CNT + 1 (DESIGN CHOICE, log 95). -/
def repCheck (s : State) (sd sa sb sc : BitVec 2) : RepWord :=
  match s.fetch s.cur.cl s.me (s.cur.pc + 8) with
  | .word w =>
    let maj := w / 2 ^ 54 % 256
    let inRange := match s.me.unit with
      | .bench => decide (0x20 ≤ maj ∧ maj ≤ 0x7E) || decide (0xB0 ≤ maj ∧ maj ≤ 0xB4)
      | .acc => decide (0x20 ≤ maj ∧ maj ≤ 0x34)
    if w / 2 ^ 62 % 2 == 1 || !inRange ||
      (match decode s.me.unit w with
        | .ok i =>
          match repUse s.me.unit i with
          | some (d, a, b, c) => (sd != 0 && !d) || (sa != 0 && !a) || (sb != 0 && !b) || (sc != 0 && !c)
          | none => true
        | .error _ => false) then .illegal 0
    else .ok
  | .beyond => .illegal ((s.cur.pc + 8).setWidth 64)
  | .waits => .waits

/-- The repeat that a thread starts at (R23, R55): below 0 for a REPC above CNT + 1. -/
def firstRepeat (repc : Word) (cnt : Nat) : Int := if repc = 0 then 0 else cnt + 1 - repc.toNat

/-- REP (R54, R55): threads with the deferred cause of a store take it at a marked REP (R100); a REPC above CNT + 1 is ILLEGAL in an
active thread (R90), and in one whose EM bit is clear it starts at repeat 0, which R55 does not say (DESIGN CHOICE, log 95); threads whose switch marker finds a pending bit, or a load's cause to take as they leave SWITCH, park at
the REP (R52, R110); the others begin their repeats, of which each issue of the warp then performs one. While the page of the word after it must wait, REP waits in issue. -/
def execRep (sw : Bool) (sd sa sb sc : BitVec 2) (cnt : BitVec 6) (s : State) : Host.Outcome State Fault Refusal :=
  let u := s.cur
  let n := cnt.toNat
  match repCheck s sd sa sb sc with
  | .waits => .next s
  | .illegal addr => .next ((s.issued.holdLane u.run.length).take u.cl u.slot (hitsAt s u.run Cause.illegal addr))
  | .ok =>
    let w := s.me
    let first := w.firstCauses u.run { h := { sw := sw, g := .em } } u.pc
    let past := u.run.filter fun t =>
      bitOf w.em t && decide ((w.thread t).repc.toNat > n + 1) && !(first.map fun p => p.2.t).contains t
    let s0 := (s.issued.holdLane u.run.length).modMe fun y =>
      first.foldl (fun z p => z.modThread p.2.t fun q => { q with deferred := match p.1 with
        | some d => q.deferred.erase d
        | none => q.deferred }) y
    let hits := first.map (fun p => p.2) ++ hitsAt s past Cause.illegal 0
    let s1 := s0.take u.cl u.slot hits
    let good := u.run.filter fun t => !(hits.map Hit.t).contains t
    let park := if sw then good.filter (fun t => w.pending t || w.heldAtPort t || w.owed t) else []
    let go := good.filter fun t => !park.contains t
    let s2 := s1.modMe fun x =>
      let y := park.foldl (fun z t => z.modThread t fun q => { q with st := .switch, marked := true }) x
      match go with
      | [] => y
      | t :: _ =>
        { y with rep := some { threads := go, pc := u.pc, next := (firstRepeat (w.thread t).repc n).toNat, cnt := n
                               sd := sd, sa := sa, sb := sb, sc := sc, word := u.word } }
    .next (s2.wake u.cl u.slot)

/-! ### Special registers (R66 to R68) -/

/-- A special register is a pair. -/
def srWide : Sr → Bool
  | .tpc => true
  | .taddr => true
  | .tb => true
  | _ => false
def srWarp : Sr → Bool
  | .em => true | .cm => true | .cpm => true | .pt => true | .xi => true | .st => true | .awb => true | .awl => true
  | .tvec => true
  | _ => false

/-- The value of a special register for thread `t`; TB is read in the thread's lane cycle (R20, R66). -/
def srValue (s : State) (t : Nat) (once : Bool) (sr : Sr) : Dword :=
  let w := s.me
  let y := w.thread t
  match sr with
  | .em => w.em.setWidth 64
  | .cm => w.cm.setWidth 64
  | .cpm => w.cpm.setWidth 64
  | .pt => w.pt.setWidth 64
  | .xi => w.xi.setWidth 64
  | .st => w.sr.setWidth 64
  | .repc => y.repc.setWidth 64
  | .awb => (w.window s.myCluster.cyc).1.setWidth 64
  | .awl => (w.window s.myCluster.cyc).2.setWidth 64
  | .tt => if y.tt then 1 else 0
  | .tvec => w.tvec.setWidth 64
  | .tpc => y.tpc
  | .tcause => y.tcause.setWidth 64
  | .taddr => y.taddr
  | .tlanes => y.tlanes.setWidth 64
  | .tb => BitVec.ofNat 64 (s.tickOf (s.leaves t once))

/-- RDSR (R66). -/
def execRdsr (h : Hdr) (d : Opd) (sr : Sr) (s : State) : Host.Outcome State Fault Refusal :=
  let once := uniform [d]
  .next (issue s { h := h, named := [(d, if srWide sr then 2 else 1)], cm := sr == .cm || sr == .cpm, once := once }
    (lanes once fun x t ts =>
      let v := srValue x t once sr
      let p := x.me.anyTaint ts || (sr == .cm && x.me.cpm &&& maskOf s.cur.run != 0)
      let y := x.writeReg t (x.me.dst d) (loWord v) 0 p
      .ok (if srWide sr then y.writeReg t ((y.me.dst d).plus 1) (hiWord v) 0 p else y)))

/-- New EM bits of the threads `r` of the run from a word (R82). -/
def State.loadEm (s : State) (r : List Nat) (v : Word) : State :=
  s.modMe fun w => { w with em := r.foldl (fun m t => setBit m t (bitOf v t)) w.em }
/-- New CM bits of threads of the run, and CPM from a plate or from taint (R82, R113). -/
def State.loadCm (s : State) (r : List Nat) (f : Nat → Bool) (p : Nat → Bool) : State :=
  r.foldl (fun x t => x.writeCm t (f t) (p t || (x.me.thread t).tt)) s
/-- New CPM bits of threads of the run; a tainted thread's is set (R82, R113). -/
def State.loadCpm (s : State) (r : List Nat) (v : Word) : State :=
  r.foldl (fun x t => x.modMe fun w => { w with cpm := setBit w.cpm t (bitOf v t || (w.thread t).tt) }) s

/-- The effect of WRSR, for the threads it acts for (R66); `r` are the threads of the run that take no cause in its place, whose
mask bits it writes (R56, R82). A write of ST leaves standing the flags that long results bring in its own cycle (R146). -/
def State.setSr (s : State) (r ts : List Nat) (sr : Sr) (v : Dword) (plate : Bool) : State :=
  let w32 := loWord v
  let each (f : Thread → Thread) : State := s.modMe fun w => ts.foldl (fun x t => x.modThread t f) w
  match sr with
  | .em => s.loadEm r w32
  | .cm => s.loadCm r (fun t => bitOf w32 t) (fun _ => plate)
  | .cpm => s.loadCpm r w32
  | .pt => (s.modMe fun w => { w with pt := w32 &&& 7 }).joinCheck s.cur.cl s.cur.slot
  | .xi => s.modMe fun w => { w with xi := w32 &&& 0xFF }
  | .st => s.modMe fun w => { w with sr := (w32 &&& 0x3F) ||| (if w.flagAt = s.myCluster.cyc then w.flagNow else 0) }
  | .tvec => s.modMe fun w => { w with tvec := w32 &&& 0xFFFFFFF9 }
  | .repc => each fun y => { y with repc := w32 }
  | .tpc => each fun y => { y with tpc := v }
  | .taddr => each fun y => { y with taddr := v }
  | .awb | .awl | .tt | .tcause | .tlanes | .tb => s

/-- What a plated source of WRSR raises (R66). -/
def srPlate (sr : Sr) : Option (Byte × Dword) :=
  match sr with
  | .em | .pt | .repc | .tvec | .tpc => some (Cause.plateControl, 0)
  | .xi => some (Cause.plateAddr, 1)
  | _ => none

/-- WRSR (R66). -/
def execWrsr (h : Hdr) (sr : Sr) (a : Opd) (s : State) : Host.Outcome State Fault Refusal :=
  let wide := srWide sr
  let l := [srcA a .arith (if wide then 2 else 1)]
  let once := uniform [a]
  let q : Shape := { h := h, named := namedOf none l, cm := sr == .cm || sr == .cpm, once := once }
  let r := s.goers q
  .next (issue s q
    (lanes once fun x t ts =>
      match checkSrcs x.me t l with
      | some (cause, addr) => .hit cause addr x
      | none =>
        let p := (srcA a .arith (if wide then 2 else 1)).plated x.me t
        let v := if wide then x.me.readPair t a else (x.me.val t a).setWidth 64
        match if p then srPlate sr else none with
        | some (cause, addr) => .hit cause addr x
        | none =>
          let n := v.toNat % 8
          if sr == .pt && !(1 ≤ n && n ≤ 5) then .hit Cause.illegal 0 x
          else .ok (x.setSr r ts sr v p)))

/-! ### Masks (R82) -/

/-- A mask word: once for the run, whether or not a thread is active; `f` gets the threads of the run that take no cause in
its place (R56, R100, R110). -/
def maskWord (s : State) (sw : Bool) (cm : Bool) (named : List (Opd × Nat)) (f : State → List Nat → State × List Hit) : State :=
  let q : Shape := { h := { sw := sw, g := .em }, named := named, cm := cm, once := true }
  issue s q fun x _ =>
    match s.goers q with
    | [] => (x, [])
    | r => f x r

/-- The threads of the run whose EM bit is set. -/
def enabled (s : State) (run : List Nat) : List Nat := run.filter fun t => bitOf s.me.em t
/-- A void k source of a mask word raises UNINIT in the enabled threads. R82 does not say what becomes of the bits of threads whose EM bit
is clear: no bit of any thread changes (DESIGN CHOICE, log 86). -/
def maskSource (x : State) (run : List Nat) (ka : Nat) (f : Reg → State × List Hit) : State × List Hit :=
  if (x.me.getK ka).tag = 3 then (x, hitsAt x (enabled x run) Cause.uninit 1) else f (x.me.getK ka)

/-- EMS (R82). -/
def execEms (sw : Bool) (kd : Nat) (s : State) : Host.Outcome State Fault Refusal :=
  .next (maskWord s sw false [(.k kd, 1)] fun x r => 
    (x.writeReg (r.headD 0) (.k kd) x.me.em 0 (x.me.anyTaint s.cur.run), []))
/-- EML (R82). -/
def execEml (sw gf : Bool) (ka : Nat) (s : State) : Host.Outcome State Fault Refusal :=
  .next (maskWord s sw false [(.k ka, 1)] fun x r => maskSource x r ka fun q =>
    if q.plate then
      if gf then (r.foldl (fun y t => y.taint t) (x.loadEm r q.data), [])
      else (x, hitsAt x (enabled x r) Cause.plateControl 0)
    else (x.loadEm r q.data, []))

/-- EMA, EMN and EMO: the new bit from EM and CM; a guessed condition steers only under `.g` (R82). -/
def steer (s : State) (sw gf : Bool) (f : Bool → Bool → Bool) : State :=
  maskWord s sw true [] fun x r =>
    let w := x.me
    let turned (t : Nat) : Bool := bitOf w.cpm t
    let y := r.foldl (fun z t =>
      if turned t && !gf then z
      else
        let z1 := z.modMe fun q => { q with em := setBit q.em t (f (bitOf w.em t) (bitOf w.cm t)) }
        if turned t then z1.taint t else z1) x
    (y, if gf then [] else hitsAt x ((enabled x r).filter turned) Cause.plateControl 0)
/-- EMA (R82). -/
def execEma (sw gf : Bool) (s : State) : Host.Outcome State Fault Refusal := .next (steer s sw gf fun e c => e && c)
/-- EMN (R82). -/
def execEmn (sw gf : Bool) (s : State) : Host.Outcome State Fault Refusal := .next (steer s sw gf fun e c => e && !c)
/-- EMO (R82). -/
def execEmo (sw gf : Bool) (s : State) : Host.Outcome State Fault Refusal := .next (steer s sw gf fun e c => e || c)

/-- CMS, CMS.p (R82). -/
def execCms (sw p : Bool) (kd : Nat) (s : State) : Host.Outcome State Fault Refusal :=
  .next (maskWord s sw true [(.k kd, 1)] fun x r =>
    let w := x.me
    (x.writeReg (r.headD 0) (.k kd) (if p then w.cpm else w.cm) 0
      (w.anyTaint s.cur.run || (!p && w.cpm &&& maskOf s.cur.run != 0)), []))
/-- CML, CML.p (R82). -/
def execCml (sw p : Bool) (ka : Nat) (s : State) : Host.Outcome State Fault Refusal :=
  .next (maskWord s sw true [(.k ka, 1)] fun x r => maskSource x r ka fun q =>
    (if p then x.loadCpm r q.data else x.loadCm r (fun t => bitOf q.data t) (fun _ => q.plate), []))
/-- CMX (R82): 0 and, 1 or, 2 xor, 3 andn. -/
def execCmx (sw : Bool) (op : BitVec 2) (ka : Nat) (s : State) : Host.Outcome State Fault Refusal :=
  .next (maskWord s sw true [(.k ka, 1)] fun x r => maskSource x r ka fun q =>
    let w := x.me
    let f (a b : Bool) : Bool := if op = 0 then a && b else if op = 1 then a || b else if op = 2 then a != b else a && !b
    (x.loadCm r (fun t => f (bitOf w.cm t) (bitOf q.data t)) (fun t => bitOf w.cpm t || q.plate), []))

/-- PART (R83). -/
def execPart (h : Hdr) (size : BitVec 3) (s : State) : Host.Outcome State Fault Refusal :=
  .next (issue s { h := h, once := true } (perRun fun x _ =>
    .ok ((x.modMe fun w => { w with pt := size.setWidth 32 }).joinCheck s.cur.cl s.cur.slot)))

/-- XISET (R65). -/
def execXiset (h : Hdr) (src : XiSrc) (s : State) : Host.Outcome State Fault Refusal :=
  match src with
  | .imm v =>
    .next (issue s { h := h, once := true } (perRun fun x _ => .ok (x.modMe fun w => { w with xi := v.setWidth 32 })))
  | .k n =>
    .next (issue s { h := h, named := [(.k n, 1)], once := true } (perRun fun x _ =>
      let r := x.me.getK n
      if r.tag = 3 then .hit Cause.uninit 1 x
      else if r.plate then .hit Cause.plateAddr 1 x
      else .ok (x.modMe fun w => { w with xi := r.data &&& 0xFF })))

/-! ### MOVW (R34, R35, R93) -/

/-- Writes of w registers in ascending cycle, then ascending warp number. -/
def insertLate (e : Nat × Nat × Nat × Reg) : List (Nat × Nat × Nat × Reg) → List (Nat × Nat × Nat × Reg)
  | [] => [e]
  | x :: r => if x.1 < e.1 ∨ (x.1 = e.1 ∧ x.2.1 ≤ e.2.1) then x :: insertLate e r else e :: x :: r
/-- The w registers as a read in cycle `cyc` sees them: writes of earlier cycles are in. -/
def Wg.settle (g : Wg) (cyc : Nat) : Wg :=
  { g with
    w := (g.wLate.filter fun e => e.1 < cyc).foldl (fun m e => Tab.put m e.2.2.1 e.2.2.2) g.w
    wLate := g.wLate.filter fun e => !(e.1 < cyc) }

/-- MOVW w, k (R34, R93). -/
def execMovwWrite (h : Hdr) (w k : Nat) (s : State) : Host.Outcome State Fault Refusal :=
  .next (issue s { h := h, named := [(.k k, 1)], once := true } (perRun fun x ts =>
    let r := x.me.getK k
    if r.plate || x.me.anyTaint ts then .hit Cause.plateEscape 1 x
    else
      let cyc := x.myCluster.cyc
      let g := x.myWg.settle cyc
      .ok (x.setMyWg { g with wLate := insertLate (cyc, x.me.num, w, { data := r.data, tag := r.tag }) g.wLate })))
/-- MOVW k, w (R93). -/
def execMovwRead (h : Hdr) (k w : Nat) (s : State) : Host.Outcome State Fault Refusal :=
  .next (issue s { h := h, named := [(.k k, 1)], once := true } (perRun fun x ts =>
    let r := Tab.get {} (x.myWg.settle x.myCluster.cyc).w w
    .ok (x.writeReg (ts.headD 0) (.k k) r.data r.tag (r.plate || x.me.anyTaint ts))))

end Sys2Proof.Machine
end

