-- ==== Sys2Proof/Machine/Float.lean ====
section
/-! DEFINITION. The floating instructions of the bench (R125, R133 to R145). -/

namespace Sys2Proof.Machine

/-! ### The frame (R133) -/

def tagF32 : Disc := .tagged 1
def tagB2 : Disc := .tagged 2

/-- THE FLOATING FRAME: sources checked, one or two registers written, flags ORed into ST (R133, R146). -/
def floatWord (s : State) (h : Hdr) (d : Opd) (width : Nat) (l : List Src) (tag : BitVec 2)
    (op : Warp → Nat → List Word × Word) : State :=
  let once := uniform (d :: l.map Src.o)
  issue s { h := h, named := namedOf (some (d, width)) l, once := once }
    (lanes once fun x t ts =>
      match checkSrcs x.me t l with
      | some (cause, addr) => .hit cause addr x
      | none =>
        let p := resultPlate x.me t ts l
        let r := op x.me t
        let e := x.me.dst d
        .ok (((r.1.zipIdx).foldl (fun y v => y.writeReg t (e.plus v.2) v.1 tag p) x).orSt r.2))

def one (p : Word × Word) : List Word × Word := ([p.1], p.2)
def valF (w : Warp) (t : Nat) (o : Opd) : FVal := f32 (w.val t o)

def float1 (s : State) (h : Hdr) (d a : Opd) (op : Word → Word × Word) : State :=
  floatWord s h d 1 [srcA a tagF32] 1 fun w t => one (op (w.val t a))
def float2 (s : State) (h : Hdr) (d a b : Opd) (op : FVal → FVal → Word × Word) : State :=
  floatWord s h d 1 [srcA a tagF32, srcB b tagF32] 1 fun w t => one (op (valF w t a) (valF w t b))
def minmax2 (s : State) (h : Hdr) (mx prop : Bool) (d a b : Opd) : State :=
  floatWord s h d 1 [srcA a tagF32, srcB b tagF32] 1 fun w t =>
    let r := minmaxCode fp32 mx prop (w.val t a).toNat (w.val t b).toNat
    one (BitVec.ofNat 32 r.1, r.2)

/-! ### FP32 arithmetic (R135, R136) -/

def subX (r : Rnd) (a b : FVal) : FVal := addX r a b.negate

/-- FADD (R135). -/
def execFadd (h : Hdr) (r : Rnd) (d a b : Opd) (s : State) : Host.Outcome State Fault Refusal :=
  .next (float2 s h d a b fun x y => toF32 r (addX r x y))
/-- FSUB (R135). -/
def execFsub (h : Hdr) (r : Rnd) (d a b : Opd) (s : State) : Host.Outcome State Fault Refusal :=
  .next (float2 s h d a b fun x y => toF32 r (subX r x y))
/-- FMUL (R135). -/
def execFmul (h : Hdr) (r : Rnd) (d a b : Opd) (s : State) : Host.Outcome State Fault Refusal :=
  .next (float2 s h d a b fun x y => toF32 r (mulX x y))
/-- FFMA (R135). -/
def execFfma (h : Hdr) (r : Rnd) (d a b c : Opd) (s : State) : Host.Outcome State Fault Refusal :=
  .next (floatWord s h d 1 [srcA a tagF32, srcB b tagF32, srcC c tagF32] 1 fun w t =>
    one (toF32 r (fmaX r (valF w t a) (valF w t b) (valF w t c))))
/-- FMIN (R136). -/
def execFmin (h : Hdr) (d a b : Opd) (s : State) : Host.Outcome State Fault Refusal := .next (minmax2 s h false false d a b)
/-- FMAX (R136). -/
def execFmax (h : Hdr) (d a b : Opd) (s : State) : Host.Outcome State Fault Refusal := .next (minmax2 s h true false d a b)
/-- FMINM (R136). -/
def execFminm (h : Hdr) (d a b : Opd) (s : State) : Host.Outcome State Fault Refusal := .next (minmax2 s h false true d a b)
/-- FMAXM (R136). -/
def execFmaxm (h : Hdr) (d a b : Opd) (s : State) : Host.Outcome State Fault Refusal := .next (minmax2 s h true true d a b)

/-! ### Compare and classify (R61, R137, R138) -/

/-- The conditions of FSET on a comparison; none is unordered. -/
def fcond (c : FCond) (o : Option Ordering) : Bool :=
  match c, o with
  | .ord, o => o.isSome
  | .un, o => o.isNone
  | .eq, some .eq => true
  | .ne, some .lt => true
  | .ne, some .gt => true
  | .lt, some .lt => true
  | .le, some .lt => true
  | .le, some .eq => true
  | .gt, some .gt => true
  | .ge, some .gt => true
  | .ge, some .eq => true
  | .equ, none => true
  | .equ, some .eq => true
  | .neu, none => true
  | .neu, some .lt => true
  | .neu, some .gt => true
  | .ltu, none => true
  | .ltu, some .lt => true
  | .leu, none => true
  | .leu, some .lt => true
  | .leu, some .eq => true
  | .gtu, none => true
  | .gtu, some .gt => true
  | .geu, none => true
  | .geu, some .gt => true
  | .geu, some .eq => true
  | _, _ => false
/-- The condition signals: any NaN raises NV. -/
def fcondSignals (c : FCond) : Bool := c == .lt || c == .le || c == .gt || c == .ge

/-- FSET (R137). -/
def execFset (h : Hdr) (c : FCond) (d : Option Opd) (a b : Opd) (s : State) : Host.Outcome State Fault Refusal :=
  .next (compareWord s h d [srcA a tagF32, srcB b tagF32] fun x t =>
    let p := valF x.me t a
    let q := valF x.me t b
    let nv := p == .nan true || q == .nan true || (fcondSignals c && (p.isNan || q.isNan))
    (fcond c (cmpX p q), x.orSt (flagIf nv Flag.nv)))

/-- The class mask of an FP32 code (R138). -/
def classWord (w : Word) : Word :=
  let neg := w.getLsbD 31
  match f32 w with
  | .nan nv => if nv then 0x100 else 0x200
  | .inf n => if n then 0x001 else 0x080
  | .fin _ m _ =>
    if m = 0 then (if neg then 0x008 else 0x010)
    else if m < 2 ^ 23 then (if neg then 0x004 else 0x020)
    else (if neg then 0x002 else 0x040)

/-- FCLASS (R138). -/
def execFclass (h : Hdr) (d a : Opd) (s : State) : Host.Outcome State Fault Refusal :=
  .next (floatWord s h d 1 [srcA a tagF32] 0 fun w t => ([classWord (w.val t a)], 0))

/-! ### Rounding and conversion (R139 to R141) -/

def frndWord (r : Rnd) (x : Bool) (a : Word) : Word × Word :=
  match f32 a with
  | .nan nv => (canonNan, flagIf nv Flag.nv)
  | .inf _ => (a, 0)
  | .fin n m e =>
    if e ≥ 0 ∨ m = 0 then (a, 0)
    else
      let p := onGrid r n m e 0
      ((toF32 .rn (.fin n p.1 0)).1, flagIf (x && p.2) Flag.nx)
/-- FRND, FRND.x (R139). -/
def execFrnd (h : Hdr) (r : Rnd) (x : Bool) (d a : Opd) (s : State) : Host.Outcome State Fault Refusal :=
  .next (float1 s h d a (frndWord r x))

/-- F2I: the bounds of the type where the rounded value lies out of range (R140). -/
def f2iWord (r : Rnd) (nat : Bool) (a : Word) : Word × Word :=
  let bound (neg : Bool) : Word := if nat then (if neg then 0 else 0xFFFFFFFF) else (if neg then 0x80000000 else 0x7FFFFFFF)
  match f32 a with
  | .nan _ => (0, Flag.nv)
  | .inf n => (bound n, Flag.nv)
  | .fin n m e =>
    let p := onGrid r n m e 0
    let v : Int := if n then -(p.1 : Int) else p.1
    let lo : Int := if nat then 0 else -(2 ^ 31)
    let hi : Int := if nat then 2 ^ 32 - 1 else 2 ^ 31 - 1
    if v < lo ∨ v > hi then (bound n, Flag.nv) else (BitVec.ofInt 32 v, flagIf p.2 Flag.nx)
/-- F2I (R140). -/
def execF2i (h : Hdr) (r : Rnd) (n : Bool) (d a : Opd) (s : State) : Host.Outcome State Fault Refusal :=
  .next (floatWord s h d 1 [srcA a tagF32] 0 fun w t => one (f2iWord r n (w.val t a)))

def i2fWord (r : Rnd) (nat : Bool) (a : Word) : Word × Word :=
  let v : Int := if nat then a.toNat else a.toInt
  toF32 r (.fin (v < 0) v.natAbs 0)
/-- I2F (R140). -/
def execI2f (h : Hdr) (r : Rnd) (n : Bool) (d a : Opd) (s : State) : Host.Outcome State Fault Refusal :=
  .next (floatWord s h d 1 [srcA a] 1 fun w t => one (i2fWord r n (w.val t a)))

/-- FPK (R141). -/
def execFpk (h : Hdr) (r : Rnd) (d a b : Opd) (s : State) : Host.Outcome State Fault Refusal :=
  .next (floatWord s h d 1 [srcA a tagF32, srcB b tagF32] 2 fun w t =>
    let lo := narrow bf16 r false (valF w t a)
    let hi := narrow bf16 r false (valF w t b)
    ([halves lo.1 hi.1], lo.2 ||| hi.2))
/-- FUPK (R132, R141): the payload of a NaN is kept. -/
def execFupk (h : Hdr) (hi : Bool) (d a : Opd) (s : State) : Host.Outcome State Fault Refusal :=
  .next (floatWord s h d 1 [srcA a tagB2] 1 fun w t =>
    let v := w.val t a
    ([if hi then v &&& 0xFFFF0000 else v <<< 16], 0))

/-! ### Packed BF16 (R142) -/

/-- Each half on its own. -/
def packed (op : FVal → FVal → FVal → FVal) (r : Rnd) (a b c : Word) : Word × Word :=
  let lo := bf16.finish r (op (half16 (lowHalf a)) (half16 (lowHalf b)) (half16 (lowHalf c)))
  let hi := bf16.finish r (op (half16 (highHalf a)) (half16 (highHalf b)) (half16 (highHalf c)))
  (halves lo.1 hi.1, lo.2 ||| hi.2)
def packedMinmax (mx : Bool) (a b : Word) : Word × Word :=
  let lo := minmaxCode bf16 mx false (lowHalf a) (lowHalf b)
  let hi := minmaxCode bf16 mx false (highHalf a) (highHalf b)
  (halves lo.1 hi.1, lo.2 ||| hi.2)
def bf2 (s : State) (h : Hdr) (d a b : Opd) (op : Word → Word → Word × Word) : State :=
  floatWord s h d 1 [srcA a tagB2, srcB b tagB2] 2 fun w t => one (op (w.val t a) (w.val t b))
def badd2Word (r : Rnd) (a b : Word) : Word × Word := packed (fun x y _ => addX r x y) r a b 0
def bmul2Word (r : Rnd) (a b : Word) : Word × Word := packed (fun x y _ => mulX x y) r a b 0

/-- BADD2 (R142). -/
def execBadd2 (h : Hdr) (r : Rnd) (d a b : Opd) (s : State) : Host.Outcome State Fault Refusal :=
  .next (bf2 s h d a b (badd2Word r))
/-- BMUL2 (R142). -/
def execBmul2 (h : Hdr) (r : Rnd) (d a b : Opd) (s : State) : Host.Outcome State Fault Refusal :=
  .next (bf2 s h d a b (bmul2Word r))
/-- BFMA2 (R142). -/
def execBfma2 (h : Hdr) (r : Rnd) (d a b c : Opd) (s : State) : Host.Outcome State Fault Refusal :=
  .next (floatWord s h d 1 [srcA a tagB2, srcB b tagB2, srcC c tagB2] 2 fun w t =>
    one (packed (fmaX r) r (w.val t a) (w.val t b) (w.val t c)))
/-- BMIN2 (R142). -/
def execBmin2 (h : Hdr) (d a b : Opd) (s : State) : Host.Outcome State Fault Refusal := .next (bf2 s h d a b (packedMinmax false))
/-- BMAX2 (R142). -/
def execBmax2 (h : Hdr) (d a b : Opd) (s : State) : Host.Outcome State Fault Refusal := .next (bf2 s h d a b (packedMinmax true))

/-! ### Error-free transforms (R143) -/

def finiteF (w : Word) : Bool := match f32 w with
  | .fin .. => true
  | _ => false
/-- The two results from the exact value: it, rounded, and what is left over, rounded. -/
def twoWord (mul : Bool) (x : FVal) : List Word × Word :=
  let p := toF32 .rn x
  if finiteF p.1 then
    let e := toF32 .rn (subX .rn x (f32 p.1))
    let keep := if mul && e.2 &&& Flag.nx != 0 then p.2 else p.2 &&& ~~~(Flag.nx ||| Flag.uf)
    ([p.1, e.1], keep)
  else ([p.1, 0], p.2)
/-- FTWOS (R143). -/
def execFtwos (h : Hdr) (d a b : Opd) (s : State) : Host.Outcome State Fault Refusal :=
  .next (floatWord s h d 2 [srcA a tagF32, srcB b tagF32] 1 fun w t => twoWord false (addX .rn (valF w t a) (valF w t b)))
/-- FTWOP (R143). -/
def execFtwop (h : Hdr) (d a b : Opd) (s : State) : Host.Outcome State Fault Refusal :=
  .next (floatWord s h d 2 [srcA a tagF32, srcB b tagF32] 1 fun w t => twoWord true (mulX (valF w t a) (valF w t b)))

/-! ### ROTA (R125) -/

def rotaWord (a b : Word) : Word × Word :=
  match f32 b with
  | .fin n m e =>
    let x := a.toNat * m
    if e ≥ 0 then (0, 0)
    else
      let d : Int := 2 ^ (-e).toNat
      let f := ((if n then -(x : Int) else x) % d).toNat
      let r := toF32 .rn (.fin false f e)
      (if r.1 = 0x3F800000 then 0 else r.1, r.2)
  | _ => (canonNan, Flag.nv)
/-- ROTA (R125). -/
def execRota (h : Hdr) (d a b : Opd) (s : State) : Host.Outcome State Fault Refusal :=
  .next (floatWord s h d 1 [srcA a, srcB b tagF32] 1 fun w t => one (rotaWord (w.val t a) (w.val t b)))

/-! ### Division and special functions: long results (R144, R145) -/

/-- The long floating frame: the value is formed from the operands at issue and written, with its flags, later (R146). -/
def longFloat (s : State) (h : Hdr) (cost : Nat) (d : Opd) (l : List Src) (op : State → Nat → (Word × Word) × State) : State :=
  let once := uniform (d :: l.map Src.o)
  issue s { h := h, named := namedOf (some (d, 1)) l, once := once, cost := cost }
    (lanes once fun x t ts =>
      match checkSrcs x.me t l with
      | some (cause, addr) => .hit cause addr x
      | none =>
        let p := resultPlate x.me t ts l
        let r := op x t
        .ok (r.2.long [{ t := t, dst := x.me.dst d, val := r.1.1, tag := 1, plate := p }] r.1.2))

def fdivWord (r : Rnd) (a b : FVal) : Word × Word :=
  let q := divX a b
  let p := toF32 r q.1
  (p.1, p.2 ||| flagIf q.2 Flag.dz)
/-- FDIV (R144). -/
def execFdiv (h : Hdr) (r : Rnd) (d a b : Opd) (s : State) : Host.Outcome State Fault Refusal :=
  .next (longFloat s h 1 d [srcA a tagF32, srcB b tagF32] fun x t => (fdivWord r (valF x.me t a) (valF x.me t b), x))

/-! #### Fixed point: numbers over 2^320 -/

def fixBits : Nat := 320
def fixOne : Nat := 2 ^ fixBits
def piFix : Nat :=
  31415926535897932384626433832795028841971693993751058209749445923078164062862089986280348253421170679 * fixOne / 10 ^ 100
def ln2Fix : Nat :=
  6931471805599453094172321214581765680755001343602552541206800094933936219696947156058633269964186875 * fixOne / 10 ^ 100
/-- The terms x^n / n! from `n` on, for `k` terms, where `term` is the one before. -/
def terms (x term n : Nat) : Nat → List Nat
  | 0 => []
  | k + 1 =>
    let u := term * x / fixOne / n
    u :: terms x u (n + 1) k
/-- e^x for x below 1. -/
def expFix (x : Nat) : Nat := fixOne + (terms x fixOne 1 72).sum
/-- The alternating sum of every second term. -/
def altSum : List Nat → Int
  | [] => 0
  | [a] => a
  | a :: _ :: r => a - altSum r
/-- sin and cos of an angle below 2. -/
def sinFix (x : Nat) : Nat := (altSum (terms x fixOne 1 90)).toNat
def cosFix (x : Nat) : Nat := ((fixOne : Int) - altSum ((terms x fixOne 1 90).drop 1)).toNat

/-- An approximation of a function's value: sign, and magnitude m · 2^e, good to far more than FP32. -/
structure Approx where
  neg : Bool := false
  m : Nat
  e : Int
  deriving DecidableEq, Repr, Inhabited

/-- m · 2^e as a fraction over 2^320. -/
def toFix (m : Nat) (e : Int) : Nat := if e + fixBits ≥ 0 then m * 2 ^ (e + fixBits).toNat else m / 2 ^ (-(e + fixBits)).toNat
/-- The fraction of a signed value, over 2^320. -/
def fracFix (neg : Bool) (m : Nat) (e : Int) : Nat :=
  let x : Int := toFix m e
  ((if neg then -x else x) % fixOne).toNat
/-- The whole part, towards −∞. -/
def floorOf (neg : Bool) (m : Nat) (e : Int) : Int :=
  let x : Int := toFix m e
  (if neg then -x else x) / fixOne

def exp2Approx (neg : Bool) (m : Nat) (e : Int) : Approx :=
  { m := expFix (fracFix neg m e * ln2Fix / fixOne), e := floorOf neg m e - fixBits }
/-- The first `k` bits of the logarithm of a number from 1 to 2, over 2^160, by squaring. -/
def logBits (x acc : Nat) : Nat → Nat
  | 0 => acc
  | k + 1 =>
    let y := x * x / 2 ^ 160
    if y ≥ 2 ^ 161 then logBits (y / 2) (2 * acc + 1) k else logBits y (2 * acc) k
def log2Approx (m : Nat) (e : Int) : Approx :=
  let l := Nat.log2 m
  let v : Int := (e + l) * 2 ^ 110 + logBits (m * 2 ^ 160 / 2 ^ l) 0 110
  { neg := v < 0, m := v.natAbs, e := -110 }
/-- sin of 2π times a fraction of a turn. -/
def sinApprox (f : Nat) : Approx :=
  let q := 4 * f / fixOne
  let r := f - q * fixOne / 4
  let x := 2 * piFix * r / fixOne
  { neg := q ≥ 2, m := if q % 2 = 0 then sinFix x else cosFix x, e := -fixBits }
def tanhApprox (neg : Bool) (m : Nat) (e : Int) : Approx :=
  if m * 2 ^ e.toNat / 2 ^ (-e).toNat ≥ 16 then { neg := neg, m := 2 ^ 46 - 1, e := -46 }
  else
    let x := 2 * toFix m e / 64
    let sq (y : Nat) : Nat := y * y / fixOne
    let y := sq (sq (sq (sq (sq (sq (expFix x))))))
    { neg := neg, m := (y - fixOne) * fixOne / (y + fixOne), e := -fixBits }

/-- A finite FP32 value lies within `n` · 2^q of the approximation. -/
def within (y : FVal) (a : Approx) (n : Nat) (q : Int) : Bool :=
  match y with
  | .fin neg m e =>
    let lo := min (min e a.e) q
    decide ((intOn neg m e lo - intOn a.neg a.m a.e lo).natAbs ≤ n * 2 ^ (q - lo).toNat)
  | _ => false

/-- A subnormal FP32 word: zero is none. -/
def subnormalF (v : Word) : Bool := decide (0 < v.toNat % 2 ^ 31 ∧ v.toNat % 2 ^ 31 < 2 ^ 23)
/-- Any value within the bound may be the result: the free value where it lies within it, else the nearest (log 6); `q` is the
power of two of the bound's unit for a result. -/
def pickWithin (free : Word) (a : Approx) (n : Nat) (q : Word → Int) : Word × Word :=
  let near := toF32 .rn (.fin a.neg a.m a.e)
  if !finiteF near.1 then near
  else
    let v := if within (f32 free) a n (q free) then free else near.1
    (v, Flag.nx ||| flagIf (subnormalF v) Flag.uf)
/-- The power of two of the last place of an FP32 result, subnormal results included (R145). -/
def ulpOf (v : Word) : Int := ((max (v.toNat / 2 ^ 23 % 256) 1 : Nat) : Int) - 150
def pickUlps (free : Word) (a : Approx) (n : Nat) : Word × Word := pickWithin free a n ulpOf
def powerOfTwo (m : Nat) : Bool := m == 2 ^ Nat.log2 m

/-- The special functions by FN (R145): 0 FRCP, 1 FRSQ, 2 FSQRT, 3 FEXP2, 4 FLOG2, 5 FSINT, 6 FCOST, 7 FTANH. FEXP2(−150), an
integer whose result is not exact, gives the nearest value and its flags: +0 with UF and NX (log 58). -/
def sfuWord (fn : Nat) (free : Word) (a : Word) : Word × Word :=
  let nan : Word × Word := (canonNan, Flag.nv)
  let x := f32 a
  match fn, x with
  | _, .nan nv => (canonNan, flagIf nv Flag.nv)
  | 0, .inf n => toF32 .rn (.fin n 0 0)
  | 0, .fin n m e =>
    if m = 0 then ((toF32 .rn (.inf n)).1, Flag.dz)
    else
      let q := (divX (.fin false 1 0) (.fin n m e)).1
      if powerOfTwo m then toF32 .rn q
      else match q with
        | .fin s k g => pickUlps free { neg := s, m := k, e := g } 1
        | _ => nan
  | 1, .inf n => if n then nan else (0, 0)
  | 1, .fin n m e =>
    if m = 0 then ((toF32 .rn (.inf n)).1, Flag.dz)
    else if n then nan
    else match sqrtX (divX (.fin false 1 0) (.fin false m e)).1 with
      | .fin _ k g =>
        if powerOfTwo m && (e + Nat.log2 m) % 2 == 0 then toF32 .rn (.fin false k g)
        else pickUlps free { m := k, e := g } 1
      | _ => nan
  | 2, v => toF32 .rn (sqrtX v)
  | 3, .inf n => if n then (0, 0) else (a, 0)
  | 3, .fin n m e =>
    if !n && cmpX x (.fin false 128 0) != some .lt then ((toF32 .rn (.inf false)).1, Flag.of_ ||| Flag.nx)
    else if n && cmpX x (.fin true 150 0) == some .lt then (0, Flag.uf ||| Flag.nx)
    else if fracFix n m e = 0 then toF32 .rn (.fin false 1 (floorOf n m e))
    else pickUlps free (exp2Approx n m e) 2
  | 4, .inf n => if n then nan else (a, 0)
  | 4, .fin n m e =>
    if m = 0 then ((toF32 .rn (.inf true)).1, Flag.dz)
    else if n then nan
    else if powerOfTwo m then
      let v := e + Nat.log2 m
      toF32 .rn (.fin (v < 0) v.natAbs 0)
    else
      let y := log2Approx m e
      let l := e + Nat.log2 m
      if l = -1 ∨ l = 0 then pickWithin free y 1 (fun _ => -22) else pickUlps free y 2
  | 5, .inf _ => nan
  | 5, .fin n m e =>
    if m = 0 then (a, 0)
    else
      let f := fracFix n m e
      if 4 * f % fixOne = 0 then
        (match 4 * f / fixOne with
          | 0 => 0
          | 1 => 0x3F800000
          | 2 => 0
          | _ => 0xBF800000, 0)
      else pickUlps free (sinApprox f) 2
  | 6, .inf _ => nan
  | 6, .fin n m e =>
    let f := fracFix n m e
    if 4 * f % fixOne = 0 then
      (match 4 * f / fixOne with
        | 0 => 0x3F800000
        | 1 => 0
        | 2 => 0xBF800000
        | _ => 0, 0)
    else pickUlps free (sinApprox ((f + fixOne / 4) % fixOne)) 2
  | _, .inf n => ((if n then 0xBF800000 else 0x3F800000), 0)
  | _, .fin n m e => if m = 0 then (a, 0) else pickUlps free (tanhApprox n m e) 2

def sfu (s : State) (h : Hdr) (fn : Nat) (d a : Opd) : State :=
  longFloat s h 4 d [srcA a tagF32] fun x t =>
    let p := x.free
    (sfuWord fn (loWord p.1) (x.me.val t a), p.2)

/-- FRCP (R145). -/
def execFrcp (h : Hdr) (d a : Opd) (s : State) : Host.Outcome State Fault Refusal := .next (sfu s h 0 d a)
/-- FRSQ (R145). -/
def execFrsq (h : Hdr) (d a : Opd) (s : State) : Host.Outcome State Fault Refusal := .next (sfu s h 1 d a)
/-- FSQRT (R145): correctly rounded. -/
def execFsqrt (h : Hdr) (d a : Opd) (s : State) : Host.Outcome State Fault Refusal :=
  .next (longFloat s h 4 d [srcA a tagF32] fun x t => (sfuWord 2 0 (x.me.val t a), x))
/-- FEXP2 (R145). -/
def execFexp2 (h : Hdr) (d a : Opd) (s : State) : Host.Outcome State Fault Refusal := .next (sfu s h 3 d a)
/-- FLOG2 (R145). -/
def execFlog2 (h : Hdr) (d a : Opd) (s : State) : Host.Outcome State Fault Refusal := .next (sfu s h 4 d a)
/-- FSINT (R145). -/
def execFsint (h : Hdr) (d a : Opd) (s : State) : Host.Outcome State Fault Refusal := .next (sfu s h 5 d a)
/-- FCOST (R145). -/
def execFcost (h : Hdr) (d a : Opd) (s : State) : Host.Outcome State Fault Refusal := .next (sfu s h 6 d a)
/-- FTANH (R145). -/
def execFtanh (h : Hdr) (d a : Opd) (s : State) : Host.Outcome State Fault Refusal := .next (sfu s h 7 d a)

end Sys2Proof.Machine
end

