-- ==== Sys2Proof/Machine/CrossLane.lean ====
section
/-! DEFINITION. The cross-lane instructions (R126, R147 to R153): long words that read lanes of other threads. -/

namespace Sys2Proof.Machine

/-! ### Groups and the frame (R147) -/

/-- The groups that hold an active thread: tiles, or the warp for a k destination. -/
def Warp.groups (w : Warp) (k : Bool) (active : List Nat) : List (List Nat) :=
  if k then (if active.isEmpty then [] else [List.range 32]) else (active.map fun t => w.tile t).eraseDups

/-- SWITCH over the source register in every thread of the groups that hold an active thread; a lane of the run that is held at
the memory port keeps only its own thread (R110). A thread whose guard would read a guessed condition counts as active,
whatever the guess (R46; log 44). -/
def crossSwitch (h : Hdr) (k : Bool) (a : Opd) (s : State) : Option (Byte × Dword) :=
  let w := s.me
  let act := s.cur.run.filter fun t => w.guarded h.g t || w.guardPlated h t
  ((w.namedRegs a 1).find? fun r => (w.groups k act).flatten.any fun u =>
    w.pendReg u r && !(s.cur.run.contains u && w.portLane u r)).map fun r => (Cause.switch, w.pendAddr r)

/-- What a lane of a long word comes to: writes, or a cause. -/
inductive LongOut where
  | ok (ws : List LWrite)
  | hit (cause : Byte) (addr : Dword)

/-- A long word of which each active thread forms its own writes from the registers at issue. -/
def longLanes (s : State) (active : List Nat) (f : Warp → Nat → LongOut) : State × List Hit :=
  active.foldl (fun (p : State × List Hit) t =>
    match f s.me t with
    | .ok ws => (p.1.long ws 0, p.2)
    | .hit cause addr => (p.1, p.2 ++ [{ t := t, cause := cause, addr := addr, pc := s.cur.pc }])) (s, [])

/-- The lane read of another thread, with its tag; a void one raises UNINIT (R147). -/
def takeLane (w : Warp) (t : Nat) (d : Opd) (r : Reg) (f : Word → Word) : LongOut :=
  if r.tag = 3 then .hit Cause.uninit 1
  else .ok [{ t := t, dst := w.dst d, val := f r.data, tag := r.tag, plate := r.plate || (w.thread t).tt }]

/-! ### SHFL and PSWP -/

/-- SHFL (R148): `sel` gives the source lane of lane `l` of a tile of `n` threads. -/
def shuffle (s : State) (h : Hdr) (d a b : Opd) (sel : Nat → Nat → Nat → Nat) : State :=
  issue s { h := h, named := [(d, 1), (a, 1), (b, 1)], more := crossSwitch h false a } fun x act =>
    longLanes x act fun w t =>
      match checkSrcs w t [srcB b] with
      | some (cause, addr) => .hit cause addr
      | none =>
        if (w.read t b).plate then .hit Cause.plateAddr 2
        else
          let l := t % w.tileSize
          takeLane w t d (w.read (t - l + sel w.tileSize l (w.val t b).toNat) a) id

/-- SHFL.idx (R148). -/
def execShflIdx (h : Hdr) (d a b : Opd) (s : State) : Host.Outcome State Fault Refusal :=
  .next (shuffle s h d a b fun n _ b => b % n)
/-- SHFL.up (R148). -/
def execShflUp (h : Hdr) (d a b : Opd) (s : State) : Host.Outcome State Fault Refusal :=
  .next (shuffle s h d a b fun _ l b => if b ≤ l then l - b else l)
/-- SHFL.down (R148). -/
def execShflDown (h : Hdr) (d a b : Opd) (s : State) : Host.Outcome State Fault Refusal :=
  .next (shuffle s h d a b fun n l b => if l + b < n then l + b else l)
/-- SHFL.xor (R148). -/
def execShflXor (h : Hdr) (d a b : Opd) (s : State) : Host.Outcome State Fault Refusal :=
  .next (shuffle s h d a b fun n l b => Nat.xor l (b % n))

/-- The sign bits of a value by its tag (R126). -/
def signBits (tag : BitVec 2) : Word := if tag = 1 then 0x80000000 else 0x80008000
/-- The thread inverts the sign of what it receives (R126). -/
def negTurns (n : Neg) (t : Nat) : Bool :=
  match n with
  | .plain => false
  | .lo => t % 2 == 0
  | .hi => t % 2 == 1

/-- PSWP (R126, R149). -/
def execPswp (h : Hdr) (n : Neg) (d a : Opd) (s : State) : Host.Outcome State Fault Refusal :=
  .next (issue s { h := h, named := [(d, 1), (a, 1)], more := crossSwitch h false a } fun x act =>
    longLanes x act fun w t =>
      let r := w.read (Nat.xor t 1) a
      if r.tag = 0 && n != .plain then .hit Cause.format 1
      else takeLane w t d r fun v => if negTurns n t then v ^^^ signBits r.tag else v)

/-! ### VOTE, REDUX, SCAN -/

/-- What a vote, reduction or scan is: its source's discipline, its result's tag, the value and flags over contributors
given as (thread, data) (the identity over none), which contributors count for a thread, and whether CM is written. -/
structure Collective where
  disc : Disc
  tag : BitVec 2
  value : List (Nat × Word) → Word × Word
  counts : Nat → Nat → Bool := fun _ _ => true
  cmw : Bool := false

/-- The result for one thread of a group with contributors `l`: its writes and flags. -/
def Collective.result (c : Collective) (w : Warp) (d a : Opd) (l : List Nat) (t : Nat) : List LWrite × Word :=
  let us := l.filter fun u => c.counts t u
  let v := c.value (us.map fun u => (u, w.val u a))
  let p := (us.any fun u => (w.read u a).plate) || (w.thread t).tt
  ([{ t := t, dst := w.dst d, val := v.1, tag := c.tag, plate := p }] ++
    (if c.cmw then [{ t := t, dst := .cm, val := v.1, plate := p }] else []), v.2)

/-- The k form: one result for the run, its CM bits to every contributor. -/
def Collective.kResult (c : Collective) (w : Warp) (d a : Opd) (l : List Nat) : List LWrite × Word :=
  let v := c.value (l.map fun u => (u, w.val u a))
  let p := (l.any fun u => (w.read u a).plate) || w.anyTaint l
  ({ t := l.headD 0, dst := w.dst d, val := v.1, tag := c.tag, plate := p } ::
    (if c.cmw then l.map fun t => { t := t, dst := .cm, val := v.1, plate := p } else []), v.2)

/-- VOTE, REDUX and SCAN (R147, R150 to R152). A k form writes the identity, with NOLANE, where no thread of the run is active;
where the active ones all take causes, it writes nothing. A thread that takes PLATE_CONTROL of the guard counts as one that was active,
whatever its CM bit (DEDUCED, log 44). -/
def collective (s : State) (h : Hdr) (d a : Opd) (c : Collective) : State :=
  let k := uniform [d]
  let shape : Shape := { h := h, named := [(d, 1), (a, 1)], cm := c.cmw, once := k, more := crossSwitch h k a }
  issue s shape fun x act =>
    let w := x.me
    let hits := act.filterMap fun t =>
      (checkSrcs w t [srcA a c.disc]).map fun q => ({ t := t, cause := q.1, addr := q.2, pc := s.cur.pc } : Hit)
    let good := act.filter fun t => !(hits.map Hit.t).contains t
    if k then
      match act, good with
      | [], _ =>
        if (s.present shape).isEmpty || (s.goers shape).length < (s.present shape).length then (x, hits)
        else (x.long [{ t := 0, dst := w.dst d, val := (c.value []).1, tag := c.tag }] Flag.noLane, hits)
      | _ :: _, [] => (x, hits)
      | _ :: _, _ :: _ =>
        let r := c.kResult w d a good
        (x.long r.1 r.2, hits)
    else
      let rs := (w.groups false good).flatMap fun g =>
        (good.filter fun t => g.contains t).map fun t => c.result w d a (good.filter fun u => g.contains u) t
      let ws := rs.flatMap fun r => r.1
      (if ws.isEmpty then x else x.long ws (rs.foldl (fun f r => f ||| r.2) 0), hits)

def boolBit (b : Bool) : Word := if b then 1 else 0

/-- VOTE.any (R150). -/
def execVoteAny (h : Hdr) (cmw : Bool) (d a : Opd) (s : State) : Host.Outcome State Fault Refusal :=
  .next (collective s h d a
    { disc := .bits, tag := 0, cmw := cmw, value := fun l => (boolBit (l.any fun p => p.2 != 0), 0) })
/-- VOTE.all (R150). -/
def execVoteAll (h : Hdr) (cmw : Bool) (d a : Opd) (s : State) : Host.Outcome State Fault Refusal :=
  .next (collective s h d a
    { disc := .bits, tag := 0, cmw := cmw, value := fun l => (boolBit (l.all fun p => p.2 != 0), 0) })
/-- VOTE.ballot (R150). -/
def execVoteBallot (h : Hdr) (d a : Opd) (s : State) : Host.Outcome State Fault Refusal :=
  .next (collective s h d a
    { disc := .bits, tag := 0, value := fun l => (maskOf ((l.filter fun p => p.2 != 0).map fun p => p.1), 0) })

/-- The exact sum of FP32 values, rounded once to nearest even (R151). -/
def sumF32 (l : List Word) : Word × Word :=
  let vs := l.map f32
  let ups := vs.contains (.inf false)
  let downs := vs.contains (.inf true)
  if vs.any FVal.isNan || (ups && downs) then (canonNan, flagIf (vs.contains (.nan true) || (ups && downs)) Flag.nv)
  else if ups then (0x7F800000, 0)
  else if downs then (0xFF800000, 0)
  else
    let z := vs.foldl (fun (z : Int) v => match v with
      | .fin n m e => z + intOn n m e fp32.qmin
      | _ => z) 0
    if z = 0 then (if !l.isEmpty && l.all (fun w => w == 0x80000000) then 0x80000000 else 0, 0)
    else toF32 .rn (.fin (z < 0) z.natAbs fp32.qmin)

/-- FMIN or FMAX over values; one alone is met with itself, so that a NaN alone gives the canonical NaN. -/
def foldMinmax (mx : Bool) (l : List Word) : Word × Word :=
  match l with
  | [] => (if mx then 0xFF800000 else 0x7F800000, 0)
  | a :: r => (a :: r).foldl (fun (p : Word × Word) b =>
      let q := minmaxCode fp32 mx false p.1.toNat b.toNat
      (BitVec.ofNat 32 q.1, p.2 ||| q.2)) (a, 0)

/-- The discipline and result tag of an op (R151). -/
def redDisc : RedOp → Disc
  | .addF32 => .tagged 1
  | .fmin => .tagged 1
  | .fmax => .tagged 1
  | .and => .bits
  | .or => .bits
  | .xor => .bits
  | _ => .arith
def redTag : RedOp → BitVec 2
  | .addF32 => 1
  | .fmin => 1
  | .fmax => 1
  | _ => 0
/-- The result of an op over its contributors, the identity over none (R151). -/
def redOver (op : RedOp) (l : List Word) : Word × Word :=
  match op with
  | .addI32 => (l.foldl (· + ·) 0, 0)
  | .addF32 => sumF32 l
  | .min => (l.foldl minS 0x7FFFFFFF, 0)
  | .max => (l.foldl maxS 0x80000000, 0)
  | .minN => (l.foldl minN 0xFFFFFFFF, 0)
  | .maxN => (l.foldl maxN 0, 0)
  | .fmin => foldMinmax false l
  | .fmax => foldMinmax true l
  | .and => (l.foldl (· &&& ·) 0xFFFFFFFF, 0)
  | .or => (l.foldl (· ||| ·) 0, 0)
  | .xor => (l.foldl (· ^^^ ·) 0, 0)

def redCollective (op : RedOp) (counts : Nat → Nat → Bool) : Collective :=
  { disc := redDisc op, tag := redTag op, value := fun l => redOver op (l.map fun p => p.2), counts := counts }
def redux (s : State) (h : Hdr) (d a : Opd) (op : RedOp) : State := collective s h d a (redCollective op fun _ _ => true)

/-- REDUX.add.i32 (R151). -/
def execReduxAddI32 (h : Hdr) (d a : Opd) (s : State) : Host.Outcome State Fault Refusal := .next (redux s h d a .addI32)
/-- REDUX.add.f32 (R151). -/
def execReduxAddF32 (h : Hdr) (d a : Opd) (s : State) : Host.Outcome State Fault Refusal := .next (redux s h d a .addF32)
/-- REDUX.min (R151). -/
def execReduxMin (h : Hdr) (d a : Opd) (s : State) : Host.Outcome State Fault Refusal := .next (redux s h d a .min)
/-- REDUX.max (R151). -/
def execReduxMax (h : Hdr) (d a : Opd) (s : State) : Host.Outcome State Fault Refusal := .next (redux s h d a .max)
/-- REDUX.min.n (R151). -/
def execReduxMinN (h : Hdr) (d a : Opd) (s : State) : Host.Outcome State Fault Refusal := .next (redux s h d a .minN)
/-- REDUX.max.n (R151). -/
def execReduxMaxN (h : Hdr) (d a : Opd) (s : State) : Host.Outcome State Fault Refusal := .next (redux s h d a .maxN)
/-- REDUX.fmin (R151). -/
def execReduxFmin (h : Hdr) (d a : Opd) (s : State) : Host.Outcome State Fault Refusal := .next (redux s h d a .fmin)
/-- REDUX.fmax (R151). -/
def execReduxFmax (h : Hdr) (d a : Opd) (s : State) : Host.Outcome State Fault Refusal := .next (redux s h d a .fmax)
/-- REDUX.and (R151). -/
def execReduxAnd (h : Hdr) (d a : Opd) (s : State) : Host.Outcome State Fault Refusal := .next (redux s h d a .and)
/-- REDUX.or (R151). -/
def execReduxOr (h : Hdr) (d a : Opd) (s : State) : Host.Outcome State Fault Refusal := .next (redux s h d a .or)
/-- REDUX.xor (R151). -/
def execReduxXor (h : Hdr) (d a : Opd) (s : State) : Host.Outcome State Fault Refusal := .next (redux s h d a .xor)

/-- SCAN (R152). -/
def execScan (h : Hdr) (excl : Bool) (op : RedOp) (d a : Opd) (s : State) : Host.Outcome State Fault Refusal :=
  .next (collective s h d a (redCollective op fun t u => decide (u < t) || (u == t && !excl)))

/-- RDLN (R153). -/
def execRdln (h : Hdr) (tile : Bool) (d : Opd) (s : State) : Host.Outcome State Fault Refusal :=
  .next (issue s { h := h, named := [(d, 1)] } fun x act =>
    longLanes x act fun w t =>
      .ok [{ t := t, dst := w.dst d, val := BitVec.ofNat 32 (if tile then t % w.tileSize else t), plate := (w.thread t).tt }])

end Sys2Proof.Machine
end

