-- ==== Sys2Proof/Machine/Matrix.lean ====
section
/-! DEFINITION. The arithmetic of the Anvil (R130, R155, R213, R214, R223 to R225): elements of a slot row, the grouped
dot product, sparse operands, assay rows and scores. -/

namespace Sys2Proof.Machine

/-! ### Elements (R213, R214) -/

/-- Elements of a row. -/
def fmtK (fmt : Nat) : Nat := if fmt = 0 then 64 else if fmt = 5 then 256 else 128
def OpSlot.byte (o : OpSlot) (a : Nat) : Nat := (Tab.get 0 o.data a).toNat
def OpSlot.sideByte (o : OpSlot) (a : Nat) : Nat := (Tab.get 0 o.side a).toNat
/-- The signed number of `n` bits. -/
def signedNat (n v : Nat) : Int := if v / 2 ^ (n - 1) % 2 = 1 then (v : Int) - 2 ^ n else v
/-- A whole number times a power of two. -/
def intVal (z : Int) (e : Int) : FVal := .fin (z < 0) z.natAbs e
/-- Half a byte: element `k` of a row of 4-bit elements. -/
def OpSlot.nibble (o : OpSlot) (row k : Nat) : Nat := o.byte (128 * row + k / 2) / (if k % 2 = 0 then 1 else 16) % 16
/-- INT8 element `k`. -/
def OpSlot.int8 (o : OpSlot) (row k : Nat) : Int := signedNat 8 (o.byte (128 * row + k))
/-- The value of element `k` of a row; an INT8 element under MX carries 2^−6. -/
def OpSlot.elem (o : OpSlot) (fmt row k : Nat) : FVal :=
  match fmt with
  | 0 => half16 (o.byte (128 * row + 2 * k) + 256 * o.byte (128 * row + 2 * k + 1))
  | 1 => e4m3.decode (o.byte (128 * row + k))
  | 2 => e5m2.decode (o.byte (128 * row + k))
  | 3 => e3m2.decode (o.byte (128 * row + k) % 64)
  | 4 => e2m3.decode (o.byte (128 * row + k) % 64)
  | 5 => e2m1.decode (o.nibble row k)
  | _ => intVal (o.int8 row k) (-6)

/-- An E8M0 scale (R130). -/
def e8m0Val (b : Nat) : FVal := if b = 0xFF then .nan false else .fin false 1 ((b : Int) - 127)
/-- The scale of the block of element `k`; blocks 4 to 7 stand in the next slot's sideband. -/
def scaleAt (o next : OpSlot) (row k : Nat) : FVal :=
  let b := k / 32
  e8m0Val (if b < 4 then o.sideByte (4 * row + b) else next.sideByte (4 * row + b - 4))

/-! ### The dot product (R224) -/

/-- A finite value truncated toward zero to a multiple of 2^q, as a whole number of them. -/
def truncOn (q : Int) (v : FVal) : Int :=
  match v with
  | .fin n m e =>
    let x : Int := if q ≤ e then m * 2 ^ (e - q).toNat else m / 2 ^ (q - e).toNat
    if n then -x else x
  | _ => 0
/-- ⌊log2 |v|⌋ of a finite value that is not zero. -/
def expOf (v : FVal) : Option Int :=
  match v with
  | .fin _ m e => if m = 0 then none else some (e + Nat.log2 m)
  | _ => none
def isNegZero (v : FVal) : Bool := match v with
  | .fin n m _ => n && m == 0
  | _ => false

/-- One group: the running word and its products. -/
def dotGroup (x : Word) (ps : List FVal) : Word :=
  let t := f32 x :: ps
  let ups := t.contains (.inf false)
  let downs := t.contains (.inf true)
  if t.any FVal.isNan || (ups && downs) then canonNan
  else if ups then 0x7F800000
  else if downs then 0xFF800000
  else match t.filterMap expOf with
    | [] => if t.all isNegZero then 0x80000000 else 0
    | e :: r =>
      let q := r.foldl max e - 48
      (toF32 .rn (intVal (t.foldl (fun z v => z + truncOn q v) 0) q)).1
/-- The groups in turn; a NaN stays. -/
def dot (x : Word) (gs : List (List FVal)) : Word := gs.foldl dotGroup x
def groups32 (k : Nat) (f : Nat → FVal) : List (List FVal) :=
  (List.range (k / 32)).map fun g => (List.range 32).map fun i => f (32 * g + i)

/-! ### MMA and MMAS (R223, R225) -/

/-- Output (i, j) of an MMA: `a'` and `b'` are the next slots, for E2M1 scales. -/
def mmaWord (fmt : Nat) (mx : Bool) (a a' b b' : OpSlot) (old : Word) (i j : Nat) : AccWord :=
  if fmt = 6 ∧ !mx then
    { data := BitVec.ofInt 32 ((List.range 128).foldl (fun z k => z + a.int8 i k * b.int8 j k) old.toInt), int := true }
  else
    { data := dot old (groups32 (fmtK fmt) fun k =>
        let p := mulX (a.elem fmt i k) (b.elem fmt j k)
        if mx then mulX p (mulX (scaleAt a a' i k) (scaleAt b b' j k)) else p) }

/-- Kept per group, group size, B slots and index bits of a sparsity pattern. -/
def patKeep (p : Nat) : Nat := if p = 1 then 1 else 2
def patSize (p : Nat) : Nat := if p = 2 then 8 else 4
def patSlots (p : Nat) : Nat := if p = 0 then 2 else 4
def patBits (p : Nat) : Nat := if p = 2 then 3 else 2

/-- The index of kept element `m` of row `i`. -/
def OpSlot.index (o : OpSlot) (w i m : Nat) : Nat :=
  let a := w * m / 8
  (o.byte (128 * i + a) + 256 * o.byte (128 * i + a + 1)) / 2 ^ (w * m % 8) % 2 ^ w

/-- Output (i, j) of an MMAS; `b` gives the B slots. A position that no kept element names counts as +0. -/
def mmasWord (pat fmt : Nat) (a md : OpSlot) (b : Nat → OpSlot) (old : Word) (i j : Nat) : AccWord :=
  let k := fmtK fmt
  let n := patKeep pat
  let pos (m : Nat) : Nat := patSize pat * (m / n) + md.index (patBits pat) i m
  if fmt = 6 then
    { data := BitVec.ofInt 32 ((List.range k).foldl (fun z m => z + a.int8 i m * (b (pos m / k)).int8 j (pos m % k)) old.toInt)
      int := true }
  else
    let per := 32 / patSize pat * n
    { data := dot old ((List.range (k / per)).map fun g =>
        .fin false 0 0 :: (List.range per).map fun q =>
          let m := per * g + q
          mulX (a.elem fmt i m) ((b (pos m / k)).elem fmt j (pos m % k))) }

/-! ### Assay (R130, R155, R213) -/

/-- INT4 element `k` of an assay row, and the row's scale. -/
def OpSlot.int4 (o : OpSlot) (row k : Nat) : Int := signedNat 4 (o.nibble row k)
def OpSlot.assayScale (o : OpSlot) (row : Nat) : FVal :=
  fp32.decode (leNat ((List.range 4).map fun i => Tab.get 0 o.side (4 * row + i)))
/-- The scaled score of query row `r` and key row `c`; none for a NaN. -/
def assayScore (q k : OpSlot) (r c : Nat) : Option Word :=
  let d := (List.range 64).foldl (fun z i => z + q.int4 r i * k.int4 c i) 0
  match mulX (mulX (intVal d 0) (q.assayScale r)) (k.assayScale c) with
  | .nan _ => none
  | v => some (toF32 .rn v).1
/-- The larger of two values that are not NaNs. -/
def largerF (a b : Word) : Word := BitVec.ofNat 32 (minmaxCode fp32 true false a.toNat b.toNat).1
def largest (l : List Word) : Option Word :=
  match l with
  | [] => none
  | a :: r => some (r.foldl largerF a)
/-- A tile's score σ. -/
def assaySigma (q k : OpSlot) : Option Word :=
  largest ((List.range 128).flatMap fun r => (List.range 128).filterMap fun c => assayScore q k r c)
/-- The new ρ: the largest of the carried one and every σ, NaNs left out. -/
def assayRho (rho : Word) (sigmas : List (Option Word)) : Word :=
  (largest ((if (f32 rho).isNan then [] else [rho]) ++ sigmas.filterMap id)).getD 0xFF800000
/-- σ + τ ≥ ρ on the exact sum. -/
def assayKeeps (sigma : Option Word) (tau rho : Word) : Bool :=
  match sigma with
  | none => false
  | some v =>
    match cmpX (addX .rn (f32 v) (f32 tau)) (f32 rho) with
    | some .gt => true
    | some .eq => true
    | _ => false

/-- The quotient of two finite values rounded to a whole number, ties to even. -/
def quotRound (m : Nat) (e : Int) (n : Nat) (g : Int) : Nat :=
  let lo := min e g
  let a := m * 2 ^ (e - lo).toNat
  let b := n * 2 ^ (g - lo).toNat
  let q := a / b
  let r := a % b
  if 2 * r > b ∨ (2 * r = b ∧ q % 2 = 1) then q + 1 else q

/-- The scale of an assay row of FP32 values (R130). A row that holds no finite element takes 0: the rule does not say what the largest
element of none is (DESIGN CHOICE, log 97). -/
def assayRowScale (l : List Word) : Word :=
  let mags := l.filterMap fun w => match f32 w with
    | .fin _ _ _ => some (w &&& 0x7FFFFFFF)
    | _ => none
  (toF32 .rn (divX (f32 (mags.foldl maxN 0)) (.fin false 7 0)).1).1
/-- One element quantised, and whether it sets NV. -/
def assayQuant (scale w : Word) : Int × Bool :=
  match f32 w with
  | .nan _ => (0, true)
  | .inf n => (if n then -7 else 7, true)
  | .fin n m e =>
    match f32 scale with
    | .fin _ sm se =>
      if sm = 0 then (0, false)
      else
        let q : Int := quotRound m e sm se
        (max (-8) (min 7 (if n then -q else q)), false)
    | _ => (0, false)
/-- The 32 bytes of an assay row. -/
def assayPack (qs : List Int) : List Byte :=
  (List.range 32).map fun i =>
    BitVec.ofNat 8 ((qs.getD (2 * i) 0 % 16).toNat + 16 * (qs.getD (2 * i + 1) 0 % 16).toNat)

end Sys2Proof.Machine
end

