-- ==== Sys2Proof/Machine/Anvil.lean ====
section
/-! DEFINITION. The Anvil (R211 to R237): operand slots and handles, the operation queue and the array, the control core's
words, and the words by which benches fill slots and use accumulator rows. -/

namespace Sys2Proof.Machine

/-! ### Slots and handles (R213 to R216) -/

def Cluster.op (x : Cluster) (n : Nat) : OpSlot := Tab.get {} x.ops n
def Cluster.setOp (x : Cluster) (n : Nat) (o : OpSlot) : Cluster := { x with ops := Tab.put x.ops n o }
def handleSlot (h : Word) : Nat := h.toNat % 64
/-- The handle is valid for the workgroup of slot-table entry `e` (R215). -/
def Cluster.validHandle (x : Cluster) (e : Nat) (h : Word) : Bool :=
  let o := x.op (handleSlot h)
  h.toNat / 64 % 1024 == 0 && o.st != .free && o.gen.toNat == h.toNat / 65536 && o.entry == e
/-- The handles h to h + n − 1. -/
def handles (h : Word) (n : Nat) : List Word := (List.range n).map fun j => h + BitVec.ofNat 32 j
/-- SLOT for the first handle that is not valid. -/
def slotCause (s : State) (l : List Word) : Option (Byte × Dword) :=
  (l.find? fun h => !s.myCluster.validHandle s.me.entry h).map fun h => (Cause.slot, h.setWidth 64)
/-- Every departure from CLAIMED or FULL zeroes the slot (R216). -/
def OpSlot.leave (o : OpSlot) (re : Bool) : OpSlot :=
  if re then { st := .claimed, gen := o.gen, entry := o.entry } else {}
/-- A row is marked in cycle `cyc`; the last one makes the slot FULL. -/
def OpSlot.mark (o : OpSlot) (cyc row : Nat) : OpSlot :=
  if o.st == .claimed then
    let r := o.rows ||| (1#128 <<< row)
    if r = BitVec.allOnes 128 then { o with rows := r, st := .full, fullAt := cyc } else { o with rows := r }
  else o

/-! ### Operations (R212, R230, R231) -/

/-- Slots that an E2M1 operand with scales spans. -/
def spanOf (fmt : Nat) (mx : Bool) : Nat := if fmt = 5 ∧ mx then 2 else 1
/-- Tile j of an operand stands at its first slot + spanOf · j. -/
def spanSlots (fmt : Nat) (mx : Bool) (base : Nat) (tiles : List Nat) : List Nat :=
  tiles.flatMap fun j => (List.range (spanOf fmt mx)).map fun i => base + spanOf fmt mx * j + i

/-- Slots that an operation reads. -/
def AOp.reads : AOp → List Nat
  | .mma fmt mx _ a b => spanSlots fmt mx a [0] ++ spanSlots fmt mx b [0]
  | .mmas pat _ _ a b md => [a, md] ++ (List.range (patSlots pat)).map fun i => b + i
  | .mmah pv cnt fmt _ mx _ a b bits bit =>
    let k := keptTiles bits bit cnt
    if k.isEmpty then [] else spanSlots fmt mx a (if pv then k else [0]) ++ spanSlots fmt mx b k
  | .assay _ _ cnt _ _ q k _ _ _ => q :: (List.range cnt).map fun j => k + j
  | .accz _ _ => []
  | .accsig _ _ => []
/-- A queued or running operation reads one of the slots. -/
def Cluster.readsAny (x : Cluster) (l : List Nat) : Bool := x.queue.any fun e => e.op.reads.any fun n => l.contains n

/-- A byte is written into a slot; what the running operation may still read instead is kept (R216). -/
def Cluster.fillByte (x : Cluster) (n : Nat) (side : Bool) (at_ : Nat) (b : Byte) : Cluster :=
  let o := x.op n
  let torn := match x.queue with
    | e :: _ =>
      if e.began.isSome && e.op.reads.contains n then
        [{ slot := n, side := side, place := at_, old := Tab.get 0 (if side then o.side else o.data) at_ : Torn }]
      else []
    | [] => []
  { (x.setOp n (if side then { o with side := Tab.put o.side at_ b } else { o with data := Tab.put o.data at_ b })) with
    torn := torn ++ x.torn }
def Cluster.fillBytes (x : Cluster) (n : Nat) (side : Bool) (at_ : Nat) : List Byte → Cluster
  | [] => x
  | b :: r => (x.fillByte n side at_ b).fillBytes n side (at_ + 1) r

/-- The cluster as the running operation reads it: each byte overwritten meanwhile as it stood before or after, freely. -/
def State.anvilView (s : State) (c : Nat) : Cluster × State :=
  (s.cluster c).torn.foldl (fun (p : Cluster × State) e =>
    let f := p.2.free
    let o := p.1.op e.slot
    (if f.1.getLsbD 0 then
      p.1.setOp e.slot
        (if e.side then { o with side := Tab.put o.side e.place e.old } else { o with data := Tab.put o.data e.place e.old })
     else p.1, f.2)) (s.cluster c, s)

/-! ### Performing operations -/

/-- New contents of 128 rows from `acc`. -/
def Cluster.putRows (x : Cluster) (acc n : Nat) (f : Nat → Nat → AccWord → AccWord) : Cluster :=
  { x with
    rows := (List.range n).foldl (fun m i =>
      let r := Tab.get {} m (acc + i)
      Tab.put m (acc + i) { r with words := (List.range 128).map fun j => (j, f i j (Tab.get {} r.words j)) }) x.rows }
/-- A product of two slots added into 128 rows: `y` is the cluster as read. -/
def Cluster.mmaInto (x y : Cluster) (fmt : Nat) (mx : Bool) (acc a b : Nat) : Cluster :=
  x.putRows acc 128 fun i j w => mmaWord fmt mx (y.op a) (y.op (a + 1)) (y.op b) (y.op (b + 1)) w.data i j
/-- −∞ in 128 rows (R156), of kind FP32 under every format: the rules give plain `.i8` the kind INT32 for the words that a product writes
and say nothing of the filled ones (DESIGN CHOICE, log 98). -/
def Cluster.fillRows (x : Cluster) (acc : Nat) : Cluster := x.putRows acc 128 fun _ _ _ => { data := 0xFF800000 }

/-- From tile `j` on, the filled tiles before the next kept one are committed; the tile to do next is given. A tile of `.pv` whose bit is clear
leaves its words as they are: R156 says that it does nothing, and that its products count as +0, which would turn a −0 or a NaN that is
not canonical (DEDUCED, log 46). -/
def Cluster.fillFrom (x : Cluster) (bits : BitVec 256) (bit cnt acc : Nat) (fill : Bool) : Nat → Nat → Cluster × Nat
  | 0, j => (x, j)
  | n + 1, j =>
    if j ≥ cnt ∨ keptTile bits bit j then (x, j)
    else (if fill then x.fillRows (acc + 128 * j) else x).fillFrom bits bit cnt acc fill n (j + 1)

/-- The counter of an MMAH's tiles that are not kept (R239). -/
def AOp.passedCtr : AOp → Ctr
  | .mmah pv _ _ fill _ _ _ _ _ _ => if pv || !fill then .mmahSkipped else .mmahFilled
  | _ => .mmahSkipped
/-- Kept tile `j` of an MMAH commits, and the filled ones after it. -/
def Cluster.mmahTile (x y : Cluster) (o : AOp) (j : Nat) : Cluster × Nat :=
  match o with
  | .mmah pv cnt fmt fill mx acc a b bits bit =>
    let n := spanOf fmt mx
    let z := x.mmaInto y fmt mx (if pv then acc else acc + 128 * j) (if pv then a + n * j else a) (b + n * j)
    z.fillFrom bits bit cnt acc fill cnt (j + 1)
  | _ => (x, j)

/-- What an ASSAY finds: the new ρ and the bits that its hallmark register gains. -/
def assayOf (y : Cluster) (bit cnt : Nat) (sink loc : Bool) (q k : Nat) (tau rho : Word) : Word × BitVec 256 :=
  let sig := (List.range cnt).map fun j => assaySigma (y.op q) (y.op (k + j))
  let r := assayRho rho sig
  (r, (List.range cnt).foldl (fun (b : BitVec 256) j =>
    if assayKeeps (sig.getD j none) tau r || (sink && j == 0) || (loc && j + 1 == cnt) then b ||| (1#256 <<< (bit + j)) else b) 0)

/-! ### Lanes in their cycles (R20, R220, R232, R236, R237) -/

/-- The place of a lane in the order of its cycle (R232): fills have none, and come first. -/
def LaneAct.place (a : LaneAct) : Nat := match a.act with
  | .accwr .. => accwrStage a.num
  | .accrd .. => 40
  | _ => 0
/-- A filled row's marks (R220). -/
def Cluster.markRows (x : Cluster) (n : Nat) (rows : List Nat) : Cluster :=
  x.setOp n (rows.foldl (fun o r => o.mark x.cyc r) (x.op n))
def State.markRows (s : State) (c n : Nat) (rows : List Nat) : State := s.modCluster c fun x => x.markRows n rows
/-- The slot still stands under the claim that the fill named (DESIGN CHOICE, log 84). -/
def Cluster.claimed (x : Cluster) (n : Nat) (gen : BitVec 16) : Bool := (x.op n).st != .free && (x.op n).gen == gen
/-- The word of an accumulator row (R230). -/
def Cluster.accWord (x : Cluster) (row col : Nat) : AccWord := Tab.get {} (Tab.get {} x.rows row).words col
def Cluster.putAcc (x : Cluster) (row col : Nat) (v : AccWord) : Cluster :=
  let o := Tab.get {} x.rows row
  { x with rows := Tab.put x.rows row { o with words := Tab.put o.words col v } }
/-- What a read of the accumulator writes (R236). -/
def accResult (v : AccWord) (t : Nat) (d : Dst) (plate : Bool) : LWrite :=
  { t := t, dst := d, val := v.data, tag := if v.int then 0 else 1, plate := plate }

/-- A lane acts in its cycle. An ACCWR that meets a busy row takes ACCBUSY with the others of its word, in the last of its cycles; a
value that ACCRD reads is a long result. -/
def State.actLane (s : State) (c : Nat) (a : LaneAct) : State :=
  match a.act with
  | .fill n gen side at_ l => s.modCluster c fun x => if x.claimed n gen then x.fillBytes n side at_ l else x
  | .mark n gen row => s.modCluster c fun x => if x.claimed n gen then x.markRows n [row] else x
  | .accwr row col v =>
    if (s.cluster c).busyRow row then
      (s.count c .accBusy a.threads.length).modCluster c fun x => { x with acts := x.acts ++ [{ a with cyc := a.last, act := .busy row }] }
    else s.modCluster c fun x => x.putAcc row col v
  | .busy _ => s
  | .accrd row col d plate =>
    match look (s.cluster c).warps a.slot with
    | none => s
    | some w =>
      if w.retiring then s
      else s.setWarp c a.slot
        { w with nextId := w.nextId + 1
                 longs := w.longs ++ [{ id := w.nextId, writes := [accResult ((s.cluster c).accWord row col) a.t d plate] }] }
/-- The lane acts at once where its cycle has come, and else in its cycle. -/
def State.inLane (s : State) (a : LaneAct) : State :=
  if a.cyc ≤ s.myCluster.cyc then s.actLane s.cur.cl a else s.modMyCluster fun x => { x with acts := x.acts ++ [a] }
/-- A lane of the word under way. -/
def State.laneAct (s : State) (t : Nat) (ts : List Nat) (once : Bool) (act : LaneDo) : LaneAct :=
  { cyc := s.leaves t once, last := s.myCluster.cyc + (if once then 1 else s.cur.run.length) - 1, slot := s.cur.slot
    entry := s.me.entry, num := s.me.num, t := t, threads := ts, pc := s.cur.pc, repc := s.cur.faultRepc, act := act }
/-- The word has one lane cycle. -/
def State.oneLane (s : State) (once : Bool) : Bool := once || s.cur.run.length == 1

/-- ACCBUSY of a word's lanes is taken: in a repeat they keep what remains (R55). -/
def State.takeBusy (s : State) (c k : Nat) (l : List LaneAct) : State :=
  match look (s.cluster c).warps k with
  | none => s
  | some w =>
    let hs : List (Nat × LaneAct) := l.flatMap fun a => (a.threads.filter fun t => (w.thread t).st != .exited).map fun t => (t, a)
    let w1 := hs.foldl (fun y p => y.modThread p.1 fun z => { z with marked := false, repc := p.2.repc.getD z.repc }) w
    let left (r : Rep) : Option Rep := match r.threads.filter fun t => hs.all fun p => p.1 != t with
      | [] => none
      | ts => some { r with threads := ts }
    (s.setWarp c k { w1 with rep := w1.rep.bind left }).take c k (hs.map fun p =>
      { t := p.1, cause := Cause.accBusy, addr := (match p.2.act with
          | .busy row => BitVec.ofNat 64 row
          | _ => 0), pc := p.2.pc })
/-- The lanes whose cycle has come and that `sel` picks act, in the order of R232; then the words whose last cycle this is take their
ACCBUSY. -/
def State.lanesDue (s : State) (c : Nat) (sel : LaneAct → Bool) : State :=
  let x := s.cluster c
  let due (a : LaneAct) : Bool := decide (a.cyc ≤ x.cyc) && sel a
  let now := x.acts.filter due
  if now.isEmpty then s
  else
    let y := ((List.range 41).flatMap fun n => now.filter fun a => a.place == n).foldl (fun q a => q.actLane c a)
      (s.modCluster c fun q => { q with acts := q.acts.filter fun a => !due a })
    let isBusy (a : LaneAct) : Bool := decide (a.cyc ≤ x.cyc) && (match a.act with
      | .busy _ => true
      | _ => false)
    let l := (y.cluster c).acts.filter isBusy
    (l.map fun a => a.slot).eraseDups.foldl (fun q k => q.takeBusy c k (l.filter fun a => a.slot == k))
      (y.modCluster c fun q => { q with acts := q.acts.filter fun a => !isBusy a })
/-- The lanes of the cycle that come before place `n` of the order of R232. Fills have no place in it: they come before a commit, and
leave it to the running operation what it reads of them (R216). -/
def State.lanesTo (s : State) (c n : Nat) : State :=
  s.lanesDue c fun a => if n = 41 then 1 ≤ a.place && a.place ≤ (match (s.cluster c).queue with
    | e :: _ => if e.early then 39 else 40
    | [] => 40) else decide (a.place < n)
/-- Fills of the cycle are performed (R219). -/
def State.fillsNow (s : State) (c : Nat) : State := s.lanesDue c fun a => a.place == 0

/-- The head operation ends: it leaves the queue, and the next may begin in the next cycle (R212). -/
def Cluster.endHead (x : Cluster) : Cluster := { x with queue := x.queue.drop 1, torn := [], arrayFree := x.cyc + 1 }

/-- The operation ends and commits (R231). The tiles of an MMAH, and its array cycles but for the one under way, have been counted as they
passed (R239). The hallmark bits that it sets are those that were clear (DEDUCED, log 46). -/
def State.anvilEnd (s : State) (c : Nat) (o : AOp) : State :=
  let p := s.anvilView c
  let t := p.2.modCluster c fun x => (x.endHead).toStage (if o.isSig then 4 else 1)
  let u := match o with
    | .mma fmt mx acc a b => (t.modCluster c fun x => x.mmaInto p.1 fmt mx acc a b).count c (.mma fmt) 1
    | .mmas pat fmt acc a b md =>
      (t.modCluster c fun x => x.putRows acc 128 fun i j w =>
        mmasWord pat fmt (p.1.op a) (p.1.op md) (fun n => p.1.op (b + n)) w.data i j).count c (.mmas fmt) 1
    | .mmah .. => t
    | .assay bit h cnt sink loc q k tau rho dst =>
      let r := assayOf p.1 bit cnt sink loc q k tau rho
      match look (t.cluster c).warps Config.coreSlot with
      | none => t
      | some w =>
        let old := Tab.get 0 w.h h
        let w1 := (w.unpendDst 0 (.k dst)).unpendDst 0 (.h h)
        let w2 := { (w1.write 0 (.k dst) r.1 0 false) with h := Tab.put w1.h h (old ||| r.2) }
        let new := (List.range 256).countP fun i => r.2.getLsbD i && !old.getLsbD i
        (((t.setWarp c Config.coreSlot w2).count c .assayTiles cnt).count c .hallmarkBits new).stir c Config.coreSlot
    | .accz a b => t.modCluster c fun x => x.putRows a (b - a) fun _ _ _ => {}
    | .accsig a b => t.modCluster c fun x => (List.range (b - a)).foldl (fun y i => y.setReady (a + i) true) x
  u.count c .arrayBusy (if o.cycles = 0 then 0 else 1)

/-- ANVIL_OP_BEGIN (R212): the begin check of the head, in its place in the cycle (R232). While the workgroup of the stream is
parked or being saved, none begins (R238, R289). -/
def execAnvilOpBegin (cl : Nat) (s0 : State) : Host.Outcome State Fault Refusal :=
  .next (match (s0.cluster cl).queue with
    | [] => s0
    | e :: r =>
      let n := if e.op.isSig then 4 else 41
      if e.began.isSome || !(s0.cluster cl).headGoes e || decide ((s0.cluster cl).cyc < (s0.cluster cl).headFrom e) ||
          !(s0.cluster cl).mayStage n then s0
      else
        let s := s0.lanesTo cl n
        let x := s.cluster cl
        let f := match e.op with
          | .mmah pv cnt _ fill _ acc _ _ bits bit =>
            if e.base = 0 then x.fillFrom bits bit cnt acc (fill && !pv) cnt 0 else (x, e.tiles)
          | _ => (x, 0)
        (s.setCluster cl ({ f.1 with queue := { e with began := some x.cyc, tiles := f.2 } :: r }.toStage n)).count cl
          e.op.passedCtr (if e.base = 0 then f.2 else 0))

/-- MMAH_TILE_COMMIT (R156). An MMAH whose workgroup is being saved stops after the tile (R238). -/
def execMmahTileCommit (cl : Nat) (s0 : State) : Host.Outcome State Fault Refusal :=
  .next (match (s0.cluster cl).queue with
    | e :: r =>
      match e.began with
      | some b =>
        if e.left && decide (e.nextCommit b ≤ (s0.cluster cl).cyc) then
          let s := s0.lanesTo cl 1
          let x := s.cluster cl
          let p := s.anvilView cl
          let z := x.mmahTile p.1 e.op e.tiles
          let e' : AEnt := { e with tiles := z.2 }
          let q := if x.streamSt == 3 && e'.left then { e' with began := none, base := e'.kept } else e'
          ((((p.2.setCluster cl ({ z.1 with queue := q :: r }.toStage 1)).count cl .mmahKept 1).count cl e.op.passedCtr
            (z.2 - e.tiles - 1)).count cl .arrayBusy q.began.isNone.toNat).releaseAll cl
        else s0
      | none => s0
    | [] => s0)

/-- ANVIL_OP_COMMIT (R231). ACCRELs that the commit held back in this cycle follow it (R232). -/
def execAnvilOpCommit (cl : Nat) (s : State) : Host.Outcome State Fault Refusal :=
  let x := s.cluster cl
  .next (match x.queue with
    | e :: _ =>
      match e.began with
      | some b =>
        if !e.left && decide (e.nextCommit b ≤ x.cyc) then
          ((s.lanesTo cl (if e.op.isSig then 4 else 1)).anvilEnd cl e.op).releaseAll cl
        else s
      | none => s
    | [] => s)

/-! ### Words of the control core -/

/-- A row event of place `n` of the order of R232 happens in its place, or its word waits in issue for the next cycle. -/
def staged (s : State) (n : Nat) (f : State → State) : State :=
  if s.myCluster.mayStage n then f ((s.lanesTo s.cur.cl n).modMyCluster fun x => x.toStage n) else s

def Warp.gval (w : Warp) (n : Nat) : Word := (w.getK n).data
/-- What an Anvil operation is: the h registers it names, the handles it checks, its lane-class check, the operation, and
its long results. -/
structure AnvilWord where
  h : Hdr
  regs : List Nat
  hnum : List Nat := []
  handles : Warp → List Word
  check : Warp → Option (Byte × Dword)
  op : Warp → AOp
  long : List Dst := []

/-- An Anvil operation issues (R212): checked, then queued, in its place in the cycle (R232); with no room in the queue the word
waits in issue. R212 does not say whether the operation that runs takes one of the 8 entries: it does, until it ends (DEDUCED,
log 90). -/
def anvilWord (s : State) (a : AnvilWord) : State :=
  let x : Shape :=
    { h := a.h, named := a.regs.map fun n => (.g n, 1), hnum := a.hnum, handle := fun y => slotCause y (a.handles y.me) }
  let w := s.me
  let goes := w.guarded a.h.g 0 && (w.due x 0).isNone && (a.check w).isNone && (decodeCause s x).isNone
  if goes && (decide (s.myCluster.queue.length ≥ 8) || !s.myCluster.mayStage 2) then s
  else issue s x fun y act =>
    match act with
    | [] => (y, [])
    | _ :: _ =>
      match a.check y.me with
      | some (cause, addr) => (y.count s.cur.cl .accWindow 1, hitsAt y act cause addr)
      | none =>
        let z := y.modMyCluster fun q =>
          ({ q with queue := q.queue ++ [{ op := a.op y.me, entered := q.cyc }] } : Cluster).toStage 2
        (a.long.foldl (fun v d => v.pend 0 d) z, [])

/-- ACCWINDOW with the value that lies outside (R222, R226, R233). -/
def windowCause (bad : Bool) (v : Word) : Option (Byte × Dword) := if bad then some (Cause.accWindow, v.setWidth 64) else none

/-- MMA (R222). -/
def execMma (h : Hdr) (fmt : BitVec 3) (mx : Bool) (d a b : Nat) (s : State) : Host.Outcome State Fault Refusal :=
  let n := spanOf fmt.toNat mx
  .next (anvilWord s
    { h := h, regs := [d, a, b]
      handles := fun w => handles (w.gval a) n ++ handles (w.gval b) n
      check := fun w => windowCause (decide ((w.gval d).toNat > 896)) (w.gval d)
      op := fun w => .mma fmt.toNat mx (w.gval d).toNat (handleSlot (w.gval a)) (handleSlot (w.gval b)) })
/-- MMAS (R225). -/
def execMmas (h : Hdr) (pat : BitVec 2) (fmt : BitVec 3) (d a b c : Nat) (s : State) : Host.Outcome State Fault Refusal :=
  .next (anvilWord s
    { h := h, regs := [d, a, b, c]
      handles := fun w => w.gval a :: handles (w.gval b) (patSlots pat.toNat) ++ [w.gval c]
      check := fun w => windowCause (decide ((w.gval d).toNat > 896)) (w.gval d)
      op := fun w => .mmas pat.toNat fmt.toNat (w.gval d).toNat (handleSlot (w.gval a)) (handleSlot (w.gval b))
        (handleSlot (w.gval c)) })
/-- MMAH (R156, R226). -/
def execMmah (h : Hdr) (pv : Bool) (cnt1 : BitVec 6) (bit : BitVec 8) (hr fmt : BitVec 3) (fill mx : Bool) (d a b : Nat)
    (s : State) : Host.Outcome State Fault Refusal :=
  let cnt := cnt1.toNat + 1
  let n := spanOf fmt.toNat mx
  .next (anvilWord s
    { h := h, regs := [d, a, b], hnum := [hr.toNat]
      handles := fun w => handles (w.gval a) (if pv then n * cnt else n) ++ handles (w.gval b) (n * cnt)
      check := fun w =>
        windowCause (decide ((w.gval d).toNat + (if pv then 128 else 128 * cnt) > 1024)) (w.gval d)
      op := fun w => .mmah pv cnt fmt.toNat fill mx (w.gval d).toNat (handleSlot (w.gval a)) (handleSlot (w.gval b))
        (Tab.get 0 w.h hr.toNat) bit.toNat })
/-- ASSAY (R155, R227). -/
def execAssay (h : Hdr) (bit : BitVec 8) (hr : BitVec 3) (sink loc : Bool) (cnt1 : BitVec 3) (d a b c : Nat) (s : State) :
    Host.Outcome State Fault Refusal :=
  let cnt := cnt1.toNat + 1
  .next (anvilWord s
    { h := h, regs := [d, a, b, c], hnum := [hr.toNat]
      handles := fun w => w.gval a :: handles (w.gval b) cnt
      check := fun _ => none
      op := fun w => .assay bit.toNat hr.toNat cnt sink loc (handleSlot (w.gval a)) (handleSlot (w.gval b)) (w.gval c)
        (w.gval d) d
      long := [.k d, .h hr.toNat] })
/-- The rows [ga, gb) of ACCZ and ACCSIG. -/
def rowsWord (s : State) (h : Hdr) (a b : Nat) (op : Nat → Nat → AOp) : State :=
  anvilWord s
    { h := h, regs := [a, b], handles := fun _ => []
      check := fun w => windowCause (decide ((w.gval b).toNat > 1024)) (w.gval b)
      op := fun w => op (w.gval a).toNat (w.gval b).toNat }
/-- ACCZ (R233). -/
def execAccz (h : Hdr) (a b : Nat) (s : State) : Host.Outcome State Fault Refusal := .next (rowsWord s h a b .accz)
/-- ACCSIG (R233). -/
def execAccsig (h : Hdr) (a b : Nat) (s : State) : Host.Outcome State Fault Refusal := .next (rowsWord s h a b .accsig)

/-- The lowest run of `n` free slots. -/
def Cluster.freeRun (x : Cluster) (n : Nat) : Option Nat :=
  (List.range (65 - n)).find? fun s => (List.range n).all fun i => (x.op (s + i)).st == .free
/-- The claim of a run of slots (R217): the handle, 0 for none. -/
def Cluster.claim (x : Cluster) (e n : Nat) : Word × Cluster :=
  match x.freeRun n with
  | none => (0, x)
  | some s =>
    (BitVec.ofNat 32 (x.claimNo.toNat * 65536 + s),
      { (List.range n).foldl (fun y i => y.setOp (s + i) { st := .claimed, gen := x.claimNo, entry := e }) x with
        claimNo := if x.claimNo = 0xFFFF then 1 else x.claimNo + 1 })

/-- OCLM (R217): the slots are claimed at issue, the results come later. -/
def execOclm (h : Hdr) (d : Nat) (n : BitVec 7) (s : State) : Host.Outcome State Fault Refusal :=
  .next (issue s { h := h, named := [(.g d, 1)], cm := true } fun x act =>
    match act with
    | [] => (x, [])
    | _ :: _ =>
      let p := x.myCluster.claim x.me.entry n.toNat
      let c : Claim := { id := p.2.nextId, dst := d, handle := p.1, at_ := p.2.cyc }
      let y := x.setCluster s.cur.cl { p.2 with claims := p.2.claims ++ [c], nextId := p.2.nextId + 1 }
      ((y.pend 0 (.k d)).pend 0 .cm, []))
/-- OCLM_RESULT (R217). -/
def execOclmResult (cl id : Nat) (s : State) : Host.Outcome State Fault Refusal :=
  .next (match (s.cluster cl).claims.find? fun c => c.id == id with
    | none => s
    | some c =>
      let t := s.modCluster cl fun x => { x with claims := x.claims.filter fun q => q.id != id }
      match look (t.cluster cl).warps Config.coreSlot with
      | none => t
      | some w =>
        let w1 := (w.unpendDst 0 (.k c.dst)).unpendDst 0 .cm
        (t.setWarp cl Config.coreSlot ((w1.write 0 (.k c.dst) c.handle 0 false).write 0 .cm (boolBit (c.handle != 0)) 0
          false)).stir cl Config.coreSlot)

/-- The slots of handles h to h + n − 1. -/
def slotsOfHandle (h : Word) (n : Nat) : List Nat := (List.range n).map fun j => handleSlot h + j
/-- A word on the slots h to h + n − 1 (R218, R219). -/
def slotWord (s : State) (h : Hdr) (a n : Nat) (f : State → Word → State) : State :=
  issue s { h := h, named := [(.g a, 1)], handle := fun y => slotCause y (handles (y.me.gval a) n) } fun x act =>
    match act with
    | [] => (x, [])
    | _ :: _ => (f x (x.me.gval a), [])
def Cluster.allFull (x : Cluster) (l : List Nat) : Bool := l.all fun n => (x.op n).st == .full
/-- Slots are zeroed and freed, or reclaimed; no bench writes them any more in this cycle (R219). -/
def Cluster.leaveSlots (x : Cluster) (l : List Nat) (re : Bool) : Cluster :=
  { (l.foldl (fun y n => y.setOp n ((y.op n).leave re)) x) with orels := x.orels ++ l }
/-- The slots have become FULL in earlier cycles (R218). -/
def Cluster.fullBefore (x : Cluster) (l : List Nat) : Bool := x.allFull l && l.all fun n => decide ((x.op n).fullAt < x.cyc)

/-- OWAIT (R218). -/
def execOwait (h : Hdr) (a : Nat) (n : BitVec 7) (s : State) : Host.Outcome State Fault Refusal :=
  .next (slotWord s h a n.toNat fun x v =>
    if x.myCluster.allFull (slotsOfHandle v n.toNat) then x else x.await [0] (.owait v n.toNat))
/-- OREL and OREL.re (R219): with an operation that reads a slot, the word waits. -/
def release (s : State) (h : Hdr) (a : Nat) (n : BitVec 7) (re : Bool) : State :=
  slotWord s h a n.toNat fun x v =>
    let l := slotsOfHandle v n.toNat
    if x.myCluster.readsAny l then x.await [0] (.orel v n.toNat re)
    else (x.fillsNow x.cur.cl).modMyCluster fun y => y.leaveSlots l re
/-- OREL (R219). -/
def execOrel (h : Hdr) (a : Nat) (n : BitVec 7) (s : State) : Host.Outcome State Fault Refusal := .next (release s h a n false)
/-- OREL.re (R219). -/
def execOrelRe (h : Hdr) (a : Nat) (n : BitVec 7) (s : State) : Host.Outcome State Fault Refusal := .next (release s h a n true)

/-- The wait with a number. -/
def Warp.waitOf (w : Warp) (id : Nat) : Option Wait := w.waits.find? fun x => x.id == id
/-- A wait ends: its threads go on. -/
def State.endWait (s : State) (c k : Nat) (x : Wait) : State :=
  (s.modWarp c k fun w => { w with waits := w.waits.filter fun y => y.id != x.id }).resume c k x.threads
/-- A wait ends in a cause at its word, in its threads (R87, R196, R197); in a repeat they keep what remains (R55). -/
def State.failWait (s : State) (c k : Nat) (x : Wait) (cause : Byte) (addr : Dword) : State :=
  (s.modWarp c k fun w => x.threads.foldl (fun y t => y.modThread t fun z =>
    { z with st := .ready, marked := false, repc := x.repc.getD z.repc })
    { w with waits := w.waits.filter fun y => y.id != x.id }).take c k
    (x.threads.map fun t => { t := t, cause := cause, addr := addr, pc := x.pc })

/-- OWAIT_WAKE (R218): in the cycle after the one in which the last slot became FULL. -/
def execOwaitWake (cl id : Nat) (s : State) : Host.Outcome State Fault Refusal :=
  .next (match (s.warp cl Config.coreSlot).waitOf id with
    | some x =>
      match x.why with
      | .owait v n => if (s.cluster cl).fullBefore (slotsOfHandle v n) then s.endWait cl Config.coreSlot x else s
      | _ => s
    | none => s)
/-- OREL_ACT (R219). -/
def execOrelAct (cl id : Nat) (s : State) : Host.Outcome State Fault Refusal :=
  .next (match (s.warp cl Config.coreSlot).waitOf id with
    | some x =>
      match x.why with
      | .orel v n re =>
        let l := slotsOfHandle v n
        if (s.cluster cl).readsAny l then s
        else ((s.fillsNow cl).modCluster cl fun y => y.leaveSlots l re).endWait cl Config.coreSlot x
      | _ => s
    | none => s)

/-! ### HMOP (R229) -/

def Warp.hval (w : Warp) (n : Nat) : BitVec 256 := Tab.get 0 w.h n
def Warp.setH (w : Warp) (n : Nat) (v : BitVec 256) : Warp := { w with h := Tab.put w.h n v }
/-- Bits lo to lo + n. -/
def spanMask (lo n1 : BitVec 8) : BitVec 256 := BitVec.ofNat 256 (2 ^ (n1.toNat + 1) - 1) <<< lo.toNat
/-- A hallmark register gets a value. -/
def hmWord (s : State) (h : Hdr) (hnum : List Nat) (d : Nat) (f : Warp → BitVec 256) : State :=
  issue s { h := h, hnum := hnum } (perRun fun x _ => .ok (x.modMe fun w => w.setH d (f w)))
/-- HMOP.and (R229). -/
def execHmopAnd (h : Hdr) (d a b : Nat) (s : State) : Host.Outcome State Fault Refusal :=
  .next (hmWord s h [d, a, b] d fun w => w.hval a &&& w.hval b)
/-- HMOP.or (R229). -/
def execHmopOr (h : Hdr) (d a b : Nat) (s : State) : Host.Outcome State Fault Refusal :=
  .next (hmWord s h [d, a, b] d fun w => w.hval a ||| w.hval b)
/-- HMOP.andn (R229). -/
def execHmopAndn (h : Hdr) (d a b : Nat) (s : State) : Host.Outcome State Fault Refusal :=
  .next (hmWord s h [d, a, b] d fun w => w.hval a &&& ~~~(w.hval b))
/-- HMOP.set (R229). -/
def execHmopSet (h : Hdr) (d : Nat) (lo n1 : BitVec 8) (s : State) : Host.Outcome State Fault Refusal :=
  .next (hmWord s h [d] d fun w => w.hval d ||| spanMask lo n1)
/-- HMOP.clear (R229). -/
def execHmopClear (h : Hdr) (d : Nat) (lo n1 : BitVec 8) (s : State) : Host.Outcome State Fault Refusal :=
  .next (hmWord s h [d] d fun w => w.hval d &&& ~~~(spanMask lo n1))
/-- HMOP.count (R229). -/
def execHmopCount (h : Hdr) (d a : Nat) (lo n1 : BitVec 8) (s : State) : Host.Outcome State Fault Refusal :=
  .next (issue s { h := h, named := [(.g d, 1)], cm := true, hnum := [a] } (perRun fun x _ =>
    let v := x.me.hval a &&& spanMask lo n1
    let n := (List.range 256).countP fun i => v.getLsbD i
    .ok ((x.writeReg 0 (.k d) (BitVec.ofNat 32 n) 0 false).writeCm 0 (n != 0) false)))

/-! ### The bench side: words of a workgroup whose kernel has an `.acc` section (R220) -/

/-- ILLEGAL on every such word where the kernel has no `.acc` section. -/
def accOnly (s : State) (f : State → State) : State := if s.myWg.ae then f s else s.noWord 0

/-- The handle of OFILL names a CLAIMED slot (R216, R220). -/
def fillCause (k : Nat) (s : State) : Option (Byte × Dword) :=
  let h := (s.me.getK k).data
  if s.myCluster.validHandle s.me.entry h && (s.myCluster.op (handleSlot h)).st == .claimed then none
  else some (Cause.slot, h.setWidth 64)
/-- Row and column, or row and offset, as TADDR holds them. -/
def rowAddr (row col : Nat) : Dword := BitVec.ofNat 64 (row % 65536 + 65536 * (col % 65536))

/-- The sources of a store's data under R98. -/
def dataSrc (c : Opd) (conv : Nat) : Src :=
  srcC c (match convTakes conv with
    | some g => .tagged g
    | none => .bits) (if conv = 3 then 2 else 1)

/-- OREL has acted on the slot in this cycle: writes of this cycle came before it, so a fill waits for the next (R219). -/
def fillLate (s : State) (k : Nat) : Bool := s.myCluster.orels.contains (handleSlot (s.me.getK k).data)

/-- One lane of OFILL: row and offset are checked before the data, which are written in the lane's cycle (R20, R220). -/
def ofillLane (conv : Nat) (ns sb : Bool) (d : Nat) (a b c : Opd) (x : State) (t : Nat) (ts : List Nat) : LaneOut :=
  let w := x.me
  let size := convSize conv
  let row := (w.val t a).toNat
  let off := (w.val t b).toNat
  match ((checkSrcs w t [srcA a, srcB b]).or (checkPlates w t [srcA a, srcB b])).or (checkSrcs w t [dataSrc c conv]) with
  | some (cause, addr) => .hit cause addr x
  | none =>
    if row ≥ 128 ∨ off + size > (if sb then 4 else 128) then .hit Cause.bounds (rowAddr row off) x
    else if off % size ≠ 0 then .hit Cause.align (rowAddr row off) x
    else if (w.read t c).plate || w.anyTaint ts then .hit Cause.plateEscape 3 x
    else
      let r := convStore conv ns (w.val t c)
      let n := handleSlot (w.getK d).data
      .ok ((x.orSt r.2).inLane (x.laneAct t ts (uniform [a, b, c])
        (.fill n (x.myCluster.op n).gen sb ((if sb then 4 else 128) * row + off) (leBytes size r.1))))
/-- The marks of the rows that some lanes wrote, each in the cycle of the last lane that wrote it (R220). -/
def State.markLanes (s : State) (n : Nat) (once : Bool) (row : Nat → Nat) : List Nat → State
  | [] => s
  | t :: r =>
    (if r.any fun u => row u == row t then s
      else s.inLane (s.laneAct t [t] once (.mark n (s.myCluster.op n).gen (row t)))).markLanes n once row r

/-- OFILL (R220). -/
def execOfill (h : Hdr) (rf ns sb : Bool) (conv : BitVec 5) (d : Nat) (a b c : Opd) (s : State) :
    Host.Outcome State Fault Refusal :=
  let once := uniform [a, b, c]
  .next (accOnly s fun s => if fillLate s d then s else issue s
    { h := h, named := [(.k d, 1), (a, 1), (b, 1), (c, 1)], once := once, handle := fillCause d } fun x act =>
      let p := lanes once (ofillLane conv.toNat ns sb d a b c) x act
      let wrote := act.filter fun t => !(p.2.map Hit.t).contains t
      (if rf then p.1.markLanes (handleSlot (x.me.getK d).data) once (fun t => (x.me.val t a).toNat) wrote else p.1, p.2))

/-- The lane checks of OFILL.assay, in the order of R220 (R221). -/
def assayLane (w : Warp) (t : Nat) (a : Nat) (c : Opd) : Option (Byte × Dword) :=
  match ((checkSrcs w t [srcA (.k a)]).or (checkPlates w t [srcA (.k a)])).or (checkSrcs w t [srcC c (.tagged 2)]) with
  | some x => some x
  | none =>
    let r := w.getK a
    if r.data.toNat ≥ 128 then some (Cause.bounds, rowAddr r.data.toNat 0)
    else if (w.read t c).plate || (w.thread t).tt then some (Cause.plateEscape, 3)
    else none

/-- OFILL.assay (R221). A thread that takes PLATE_CONTROL of the guard is one that raises a cause (R57): nothing is written. One that takes
a deferred cause in place of the word is no thread of it: the row is written with its elements 0, and the word holds its lane one cycle
whatever C is (DESIGN CHOICE, log 99). -/
def execOfillAssay (h : Hdr) (d a : Nat) (c : Opd) (s : State) : Host.Outcome State Fault Refusal :=
  .next (accOnly s fun s => if fillLate s d then s else issue s
    { h := h, named := [(.k d, 1), (.k a, 1), (c, 1)], once := true, handle := fillCause d } fun x act =>
      let w := x.me
      let hits := act.filterMap fun t => (assayLane w t a c).map fun q =>
        ({ t := t, cause := q.1, addr := q.2, pc := s.cur.pc } : Hit)
      if act.isEmpty || !hits.isEmpty || (s.present { h := h, named := [(.k d, 1), (.k a, 1), (c, 1)] }).any (w.guardPlated h) then (x, hits)
      else
        let half (t hi : Nat) : Word := BitVec.ofNat 32 ((w.val t c).toNat / 2 ^ (16 * hi) % 2 ^ 16 * 2 ^ 16)
        let scale := assayRowScale (act.flatMap fun t => [half t 0, half t 1])
        let qs := (List.range 32).flatMap fun t =>
          if act.contains t then [assayQuant scale (half t 0), assayQuant scale (half t 1)] else [(0, false), (0, false)]
        let row := (w.getK a).data.toNat
        let n := handleSlot (w.getK d).data
        let y := x.modMyCluster fun q => (q.fillBytes n false (128 * row) (assayPack (qs.map fun p => p.1) ++ List.replicate 96 0)
          ).fillBytes n true (4 * row) (leBytes 4 scale.toNat)
        ((y.markRows s.cur.cl n [row]).orSt (flagIf (qs.any fun p => p.2) Flag.nv), []))

/-- AWSET of a warp (R234): seen from the next cycle; of two in one cycle the higher-numbered issuer's stays. -/
def Warp.setWindow (w : Warp) (cyc by_ : Nat) (lo hi : Word) : Warp :=
  let v := w.window cyc
  match w.awNew with
  | some (t, i, _, _) =>
    if t = cyc ∧ i > by_ then w else { w with awb := v.1, awl := v.2, awNew := some (cyc, by_, lo, hi) }
  | none => { w with awNew := some (cyc, by_, lo, hi) }

/-- AWSET (R234). -/
def execAwset (h : Hdr) (w : BitVec 5) (a b : Nat) (s : State) : Host.Outcome State Fault Refusal :=
  let l := [srcA (.k a), srcB (.k b)]
  .next (accOnly s fun s => issue s { h := h, named := namedOf none l, once := true } (perRun fun x ts =>
    let m := x.me
    match (checkSrcs m (ts.headD 0) l).or (checkPlates m (ts.headD 0) l) with
    | some (cause, addr) => .hit cause addr x
    | none =>
      let lo := (m.getK a).data
      let hi := (m.getK b).data
      if w.toNat ≥ x.myWg.warps ∨ lo.toNat > hi.toNat ∨ hi.toNat > 1024 then
        .hit Cause.accWindow (w.setWidth 64) (x.count s.cur.cl .accWindow ts.length)
      else
        match (x.myCluster.benchOf m.entry).find? fun k => (x.myCluster.warp k).num == w.toNat with
        | some k => .ok (x.modWarp s.cur.cl k fun y => y.setWindow s.myCluster.cyc m.num lo hi)
        | none => .ok x))

/-- The row check of R235: sources in the order of R57, then the window. -/
def rowCheck (x : State) (t : Nat) (a : Opd) (b : Option Opd) (c : Option Opd) : Option (Byte × Dword) :=
  let w := x.me
  let ab := srcA a :: (b.map fun o => srcB o).toList
  let row := (w.val t a).toNat
  let col := (b.map fun o => (w.val t o).toNat).getD 0
  let v := w.window x.myCluster.cyc
  match checkSrcs w t (ab ++ (c.map fun o => srcC o .bits).toList) with
  | some q => some q
  | none =>
    if c.any fun o => (w.read t o).tag == 2 then some (Cause.format, 3)
    else match checkPlates w t ab with
      | some q => some q
      | none => if row < v.1.toNat ∨ row ≥ v.2.toNat ∨ col > 127 then some (Cause.accWindow, rowAddr row col) else none
/-- A lane that passes the row check goes on; ACCWINDOW is counted (R239). -/
def rowLane (x : State) (t n : Nat) (a : Opd) (b c : Option Opd) (f : State → Nat → Nat → LaneOut) : LaneOut :=
  match rowCheck x t a b c with
  | some (cause, addr) => .hit cause addr (if cause = Cause.accWindow then x.count x.cur.cl .accWindow n else x)
  | none => f x (x.me.val t a).toNat ((b.map fun o => (x.me.val t o).toNat).getD 0)

/-- ACCRD (R235, R236): the word is read in the lane's cycle, in its place there (R20, R232), and written later. -/
def execAccrd (h : Hdr) (d a b : Opd) (s : State) : Host.Outcome State Fault Refusal :=
  let once := uniform [d, a, b]
  .next (accOnly s fun s => staged s 40 fun s => issue s { h := h, named := [(d, 1), (a, 1), (b, 1)], once := once }
   (lanes once fun x t ts => rowLane x t ts.length a (some b) none fun y row col =>
      let e := y.me.dst d
      .ok ((y.pend t e).inLane (y.laneAct t ts once (.accrd row col e (y.me.anyTaint ts))))))
/-- ACCRD.w (R235, R236): the request waits for its row. -/
def execAccrdW (h : Hdr) (d a b : Opd) (s : State) : Host.Outcome State Fault Refusal :=
  let once := uniform [d, a, b]
  .next (accOnly s fun s => issue s { h := h, named := [(d, 1), (a, 1), (b, 1)], once := once } (lanes once fun x t ts =>
    rowLane x t ts.length a (some b) none fun y row col =>
      let p := y.freshId
      let e := y.me.dst d
      .ok ((p.2.pend t e).modMe fun w => { w with reqs := w.reqs ++
        [{ id := p.1, t := t, threads := ts, obj := 0, off := 0, size := 0, taint := w.anyTaint ts
           op := .accrd row col e, pc := s.cur.pc, marked := h.sw && s.cur.last, leave := y.leaves t once
           word := s.cur.word }] })))
/-- ACCRD_W_WAKE (R231, R236): in a cycle that began with the row ready, in its place (R232), and not before an earlier ACCREL of the row
by its thread. -/
def execAccrdWWake (cl slot id : Nat) (s : State) : Host.Outcome State Fault Refusal :=
  .next (match (s.warp cl slot).reqs.find? fun r => r.id == id with
    | some r =>
      match r.op with
      | .accrd row col d =>
        let freed := (s.warp cl slot).reqs.any fun q => q.op == .accrel row && r.readsAfter q row
        if (Tab.get {} (s.cluster cl).rows row).was && (s.cluster cl).mayStage 40 && decide (r.leave ≤ (s.cluster cl).cyc) && !freed then
          let y := s.lanesTo cl 40
          let v := accResult ((y.cluster cl).accWord row col) r.t d r.taint
          (((y.modCluster cl fun x => x.toStage 40).modWarp cl slot fun w => ((w.unpendDst r.t d).write r.t d v.val v.tag v.plate).dropReq id).release cl slot).stir
            cl slot
        else s
      | _ => s
    | none => s)

/-- ACCWR (R235, R237): each lane in its cycle, in its place there (R20, R232). R57 ranks neither ACCWINDOW nor ACCBUSY: the checks are made in the order in
which the rules state them, ACCWINDOW with the row check, then PLATE_ESCAPE, then ACCBUSY (DESIGN CHOICE, log 70). -/
def execAccwr (h : Hdr) (a b c : Opd) (s : State) : Host.Outcome State Fault Refusal :=
  let once := uniform [a, b, c]
  .next (accOnly s fun s => staged s (accwrStage s.me.num) fun s => issue s
    { h := h, named := [(a, 1), (b, 1), (c, 1)], once := once } (lanes once fun x t ts =>
    rowLane x t ts.length a (some b) (some c) fun y row col =>
      let r := y.me.read t c
      if r.plate || y.me.anyTaint ts then .hit Cause.plateEscape 3 y
      else if y.oneLane once && y.myCluster.busyRow row then
        .hit Cause.accBusy (BitVec.ofNat 64 row) (y.count s.cur.cl .accBusy ts.length)
      else .ok (y.inLane (y.laneAct t ts once (.accwr row col { data := r.data, int := r.tag == 0 })))))

/-- ACCREL (R231, R235, R237): in its place in the cycle (R232). -/
def execAccrel (h : Hdr) (a : Opd) (s : State) : Host.Outcome State Fault Refusal :=
  let once := uniform [a]
  .next (accOnly s fun s => staged s 3 fun s => issue s { h := h, named := [(a, 1)], once := once } (lanes once fun x t ts =>
    rowLane x t ts.length a none none fun y row _ =>
      let p := y.freshId
      .ok ((p.2.modMe fun w => { w with reqs := w.reqs ++
        [{ id := p.1, t := t, threads := ts, obj := 0, off := 0, size := 0, op := .accrel row, pc := s.cur.pc
           leave := y.leaves t once, word := s.cur.word }] }).release
          s.cur.cl s.cur.slot)))

end Sys2Proof.Machine
end

