-- ==== Sys2Proof/Machine/Window.lean ====
section
/-! DEFINITION. The command window of a warp (R315 to R317): the words CW0 to CW3, and CWGO, which checks them and sends a
command to a copy engine. -/

namespace Sys2Proof.Machine

/-! ### Doublewords of objects, as hardware outside the clusters reads and writes them -/

def State.dwRead (s : State) (ctx obj off : Nat) : Option Dword := (s.objRead ctx obj off 8).map fun v => BitVec.ofNat 64 v
def State.dwWrite (s : State) (ctx obj off : Nat) (d : Dword) : Option State := s.objWrite ctx obj off 8 d.toNat
/-- FL in a work object (R275). -/
def State.setFl (s : State) (ctx obj off : Nat) : State :=
  match s.dwRead ctx obj (off + 16) with
  | some d => (s.dwWrite ctx obj (off + 16) (d ||| (1#64 <<< 59))).getD s
  | none => s

/-! ### The words -/

/-- Stores to CW0 to CW3 that wait are performed in their order (R317). -/
def Warp.drainWin (w : Warp) : Warp := { w with cw := w.winQ.foldl (fun m e => Tab.put m e.1 e.2) w.cw, winQ := [] }
def Warp.cwField (w : Warp) (i lo n : Nat) : Nat := (Tab.get 0 w.cw i).toNat / 2 ^ lo % 2 ^ n

/-- REGISTER_WRITE: the first store to a window word that waits is performed; it names its word and value (R315). -/
def execRegisterWrite (cl slot i : Nat) (val : Word) (s : State) : Host.Outcome State Fault Refusal :=
  .next (match (s.warp cl slot).winQ with
    | e :: r => if e = (i, val) then s.modWarp cl slot fun w => { w with cw := Tab.put w.cw i val, winQ := r } else s
    | [] => s)

/-! ### CWGO (R316) -/

/-- The engine of a cluster (R309). -/
def engineOf (c : Nat) : Nat := 16 * dieOf c + c % Config.dieClusters / 4

/-- The words break R315, or ask what R310 does not allow. -/
def Warp.badWindow (w : Warp) : Bool :=
  let op := w.cwField 0 28 4
  let pair := w.cwField 1 0 6 % 2 == 1
  op > 4 || w.cwField 0 24 1 != 0 || w.cwField 1 6 26 != 0 || w.cwField 2 23 9 != 0 || w.cwField 2 15 1 != 0 ||
    w.cwField 2 6 2 != 0 || w.cwField 3 6 26 != 0 ||
    (w.cwField 0 26 1 != 0 && op != 1 && op != 2) || (w.cwField 0 25 1 != 0 && op != 4) ||
    (op != 4 && (w.cwField 2 16 7 != 0 || w.cwField 2 8 7 != 0)) || (op == 4 && w.cwField 0 0 24 != 0) ||
    (pair && (op == 1 || op == 3 || op == 4)) || (w.cwField 2 0 6 % 2 == 1 && 1 ≤ op && op ≤ 3) || w.cwField 3 0 6 % 2 == 1

/-- The k registers that the command names. -/
def Warp.winRegs (w : Warp) : List Nat :=
  let src := w.cwField 1 0 6
  let dst := w.cwField 2 0 6
  let seq := w.cwField 3 0 6
  (match w.cwField 0 28 4 with
    | 0 => []
    | 2 => [src, dst, dst + 1]
    | 4 => [src, src + 1, dst]
    | _ => [src, src + 1, dst, dst + 1]) ++ [seq, seq + 1]
def Warp.kPair (w : Warp) (n : Nat) : Dword := dword (w.getK n).data (w.getK (n + 1)).data

/-- The command with the registers as they stand. -/
def Warp.winCmd (w : Warp) (ctx c k id : Nat) : Cmd :=
  let op := w.cwField 0 28 4
  let src := w.cwField 1 0 6
  let dst := w.cwField 2 0 6
  { ctx := ctx, op := op, defer := w.cwField 0 26 1 == 1, sb := w.cwField 0 25 1 == 1, len := w.cwField 0 0 24
    src := if op = 0 ∨ op = 2 then 0 else w.kPair src
    dst := if op = 0 ∨ op = 4 then 0 else w.kPair dst
    aux := if op = 2 then (w.getK src).data else if op = 4 then (w.getK dst).data else 0
    row0 := w.cwField 2 8 7, rows := if op = 4 then w.cwField 2 16 7 + 1 else 0
    seq := w.kPair (w.cwField 3 0 6), entry := w.entry, by_ := .window c k id }

/-- Bytes that a command reads of its source. -/
def Cmd.srcLen (m : Cmd) : Nat := if m.op = 4 then m.rows * (if m.sb then 132 else 128) else m.len
/-- A cause comes before another in the order of R57. -/
def causeRank (c : Byte) : Nat :=
  if c = Cause.nullCap then 0 else if c = Cause.rights then 1 else if c = Cause.bounds ∨ c = Cause.stashBounds then 2 else 3
def firstCause (l : List (Option (Byte × Dword))) : Option (Byte × Dword) :=
  (l.filterMap id).foldl (fun o x => match o with
    | none => some x
    | some y => if causeRank x.1 < causeRank y.1 then some x else o) none

/-- The checks of a command's capabilities (R310), in the order of R57. -/
def State.cmdCause (s : State) (g : Wg) (m : Cmd) : Option (Byte × Dword) :=
  let off (c : Dword) : Nat := capOff c
  let src := s.checkRange g m.src (off m.src)
    { rights := 9, kinds := [0, 2, 3, 5, 6], size := m.srcLen } (if m.op = 3 then 16 else 1)
  let dst := s.checkRange g m.dst (off m.dst) { rights := 5, kinds := [0, 3], size := m.len } (if m.op = 2 then 4 else 1)
  let stash := s.checkRange g m.dst (off m.dst) { rights := 4, kinds := [8], size := m.len } 16
  let long := if (m.op = 2 ∧ m.len % 4 ≠ 0) ∨ (m.op = 3 ∧ m.len % 16 ≠ 0) then
      some (Cause.align, objAddr (capObj m.dst) (off m.dst)) else none
  let rows := if m.op = 4 ∧ m.row0 + m.rows > 128 then some (Cause.bounds, rowAddr m.row0 m.rows) else none
  firstCause ([if m.op = 1 ∨ m.op = 3 ∨ m.op = 4 then src else none, if m.op = 1 ∨ m.op = 2 then dst else none,
    if m.op = 3 then stash else none, long, rows])
def State.seqCause (s : State) (g : Wg) (cap : Dword) : Option (Byte × Dword) :=
  s.checkRange g cap (capOff cap) { rights := 3, kinds := [0], size := 16 } 16

/-- What CWGO raises, in order (R316). -/
def State.goCause (s : State) : Option (Byte × Dword) :=
  let w := s.me
  let m := w.winCmd s.myCtx s.cur.cl s.cur.slot 0
  if w.badWindow then some (Cause.format, 3)
  else match w.winRegs.find? fun n => (w.getK n).pend with
    | some n => some (Cause.switch, w.pendAddr (true, n))
    | none =>
      if w.winRegs.any fun n => (w.getK n).tag == 3 then some (Cause.uninit, 3)
      else if w.winRegs.any fun n => (w.getK n).tag != 0 then some (Cause.format, 3)
      else if w.winRegs.any fun n => (w.getK n).plate then some (Cause.plateEscape, 3)
      else match firstCause [s.cmdCause s.myWg m, s.seqCause s.myWg m.seq] with
        | some c => some c
        | none => if m.op = 4 then slotCause s [m.aux] else none

/-- Words that threads of the warp wrote, to release (R316). -/
def Warp.writers (w : Warp) (ts : List Nat) : List (Nat × Nat) := ts.map fun t => w.writer t
/-- Stores of the threads that have not been performed keep a release from completing. -/
def Warp.storesOpen (w : Warp) (ts : List Nat) (sel : Req → Bool) : Bool :=
  w.reqs.any fun r => r.open_ && r.strong.isNone && !r.isLoad && (r.threads.any fun t => ts.contains t) && sel r

/-- The release of CWGO: every earlier weak write of the warp's threads (R316). -/
def State.releaseWarp (s : State) (c k : Nat) : Got Unit × Dword :=
  let w := s.warp c k
  if w.storesOpen (List.range 32) fun _ => true then (.waits Cause.translation, 0)
  else s.flush c w fun _ _ _ e => e.byAny (w.writers (List.range 32))

/-- A command enters the queue of its engine; the engine has 64 places (R309). -/
def State.enqueue (s : State) (c k : Nat) (m : Cmd) : Option State :=
  let e := engineOf c
  let q := Tab.get {} s.engines e
  if q.window.length ≥ 64 then none
  else
    let id := (s.cluster c).nextId
    let m' : Cmd := { m with by_ := .window c k id }
    some ((({ s with engines := Tab.put s.engines e { q with window := q.window ++ [m'] } }).modCluster c fun x =>
      { x with nextId := id + 1 }).modWarp c k fun w => { w with cmds := w.cmds ++ [id] })

/-- A checked CWGO goes: released, then enqueued; or it has to wait, or its release meets a cause. -/
inductive Go where
  | sent (s : State)
  | waits
  | fails (cause : Byte) (addr : Dword)

/-- The engine's window queue has no room (R309). -/
def State.queueFull (s : State) (c : Nat) : Bool := decide ((Tab.get {} s.engines (engineOf c)).window.length ≥ 64)
/-- Room first, then the release, then the queue (R316). A cluster in a handshake sends nothing (R321). -/
def State.go (s : State) (c k : Nat) (m : Cmd) (rel : Bool) : Go :=
  if s.queueFull c || (s.cluster c).crossing then .waits
  else match (if rel then s.releaseWarp c k else (.ok s (), 0)) with
  | (.ok x _, _) => match x.enqueue c k m with
    | some y => .sent (y.holdGlobal m.ctx (capObj m.seq) (capOff m.seq))
    | none => .waits
  | (.waits _, _) => .waits
  | (.fails cause, addr) => .fails cause addr

/-- A STK to CWGO, after the checks of a store (R316). Where it has to wait in issue, its threads wait and its warp issues nothing
else (`Warp.atGo`). -/
def storeGo (x : State) (ts : List Nat) : LaneOut :=
  let s := x.modMe Warp.drainWin
  match s.goCause with
  | some (cause, addr) => .hit cause addr s
  | none =>
    let w := s.me
    let m := w.winCmd s.myCtx s.cur.cl s.cur.slot 0
    let rel := w.cwField 0 27 1 == 1
    match s.go s.cur.cl s.cur.slot m rel with
    | .sent y => .ok y
    | .waits => .ok (s.await ts (.cwgo m rel))
    | .fails cause addr => .hit cause addr s

/-- CWGO: a go store that waits goes once the engine's queue has room and its release is done (R316). -/
def execCwgo (cl slot : Nat) (run : List Nat) (s : State) : Host.Outcome State Fault Refusal :=
  .next (match (s.warp cl slot).waits.find? fun x => x.threads == run && (match x.why with
      | .cwgo _ _ => true
      | _ => false) with
    | none => s
    | some x =>
      match x.why with
      | .cwgo m rel =>
        match s.go cl slot m rel with
        | .sent y => y.endWait cl slot x
        | .waits => s
        | .fails cause addr => s.failWait cl slot x cause addr
      | _ => s)
/-- A CWGO of the warp waits in issue (R316). -/
def Warp.atGo (w : Warp) : Bool := w.waits.any fun x => match x.why with
  | .cwgo _ _ => true
  | _ => false
/-- A warp of the cluster has a CWGO that waits in issue. -/
def Cluster.atGo (x : Cluster) : Bool := x.warps.any fun p => p.2.atGo
/-- `m` cycles of cluster `c` pass with a full window queue: they count where one of its CWGOs waits, once for the cycle, and of the
clusters of an engine the first that has one (R318). -/
def State.countGo (s : State) (c m : Nat) : State :=
  let first := s.clusters.find? fun e => engineOf e.1 == engineOf c && e.2.atGo
  s.count (192 + engineOf c) .cwgoWaits (if s.queueFull c && (first.map fun e => e.1) == some c then m else 0)

end Sys2Proof.Machine
end

