-- ==== Sys2Proof/Machine/Access.lean ====
section
/-! DEFINITION. Loads, stores and stash accesses as they issue (R94 to R104, R121, R163, R177, R178), and the tests of
plates that need no memory (R116, R117, R120). -/

namespace Sys2Proof.Machine

/-! ### The memory operand (R94, R95) -/

/-- Capability and offset of a memory operand. -/
structure MemOpd where
  a : Opd
  b : Opd
  scl : BitVec 2
  deriving Repr, Inhabited

def MemOpd.srcs (m : MemOpd) : List Src := [srcA m.a .arith 2, srcB m.b]
def MemOpd.named (m : MemOpd) : List (Opd × Nat) := [(m.a, 2), (m.b, 1)]
def MemOpd.cap (m : MemOpd) (w : Warp) (t : Nat) : Dword := w.readPair t m.a
def MemOpd.addr (m : MemOpd) (w : Warp) (t : Nat) : Nat := effAddr (m.cap w t) (w.val t m.b) m.scl
def MemOpd.uniform (m : MemOpd) : Bool := Machine.uniform [m.a, m.b]

/-- Sources (the operand's and others'), then plates of the address, then the access (R57, R95). -/
def memCause (x : State) (t : Nat) (m : MemOpd) (more : List Src) (n : Need) : Option (Byte × Dword) :=
  let w := x.me
  match checkSrcs w t (m.srcs ++ more) with
  | some c => some c
  | none =>
    match checkPlates w t m.srcs with
    | some c => some c
    | none => x.checkAccess x.myWg (m.cap w t) (m.addr w t) n

/-! ### Loads (R96, R99, R102 to R105) -/

/-- What a load is: where it goes, its conversion, its scope if it is strong, its limit and predictor codes. -/
structure LoadWord where
  h : Hdr
  m : MemOpd
  d : Opd
  k : Bool
  conv : Nat
  strong : Option Scope := none
  lim : Nat := 0
  pred : Nat := 0
  c : CRef := .none
  kinds : List Nat := [0, 2, 3, 5, 6, 8]

/-- The guess register of `.pk` and `.pnk`. -/
def LoadWord.guessReg (l : LoadWord) : Option Nat :=
  if l.pred = 4 ∨ l.pred = 5 then
    match l.c with
    | .v n => if l.lim = 15 then some n else none
    | .k n => some n
    | .none => none
  else none
/-- The limit register. -/
def LoadWord.limitReg (l : LoadWord) : Option Opd :=
  if l.lim = 15 then
    match l.c with
    | .v n => some (.v n)
    | .k n => some (.k n)
    | .none => none
  else none
/-- A lane's limit in ticks, 0 for none (R102). -/
def LoadWord.limit (l : LoadWord) (w : Warp) (t : Nat) : Nat :=
  match l.limitReg with
  | some o => (w.val t o).toNat % 2 ^ 20
  | none => if l.lim = 0 then 0 else 2 ^ (l.lim + 2)
def LoadWord.more (l : LoadWord) : List Src :=
  (l.limitReg.map fun o => srcC o .bits).toList ++ (l.guessReg.map fun n => srcC (.k n) .bits).toList

/-- A pending bit on every register of a destination of `n` registers. -/
def State.pendWide (s : State) (t : Nat) (d : Dst) (n : Nat) : State :=
  (List.range n).foldl (fun x j => x.pend t (d.plus j)) s
def wideOf (conv : Nat) : Nat := if conv = 3 then 2 else 1

/-- One lane of a load, or the one access of an LDK (R99). -/
def LoadWord.lane (l : LoadWord) (group : Nat) (x : State) (t : Nat) (ts : List Nat) : LaneOut :=
  match memCause x t l.m l.more { rights := 8, kinds := l.kinds, size := convSize l.conv } with
  | some (cause, addr) => .hit cause addr x
  | none =>
    let w := x.me
    let d := w.dst l.d
    let p := x.freshId
    let y := p.2.pendWide t d (wideOf l.conv)
    let lane : Load :=
      { id := p.1, group := group, t := t, threads := ts, k := l.k, reg := d.num
        obj := capObj (l.m.cap w t), off := l.m.addr w t, conv := l.conv, strong := l.strong
        taint := w.anyTaint ts, limit := l.limit w t
        leave := x.leaves t l.k, t0 := x.tickOf (x.leaves t l.k)
        pred := l.pred, guessK := (l.guessReg.map fun n => (w.getK n).data).getD 0
        pc := x.cur.pc, wpc := if x.cur.rep.isSome then x.cur.pc + 8 else x.cur.pc, marked := l.h.sw && x.cur.last }
    .ok (y.modMe fun q => { q with loads := q.loads ++ [lane] })

def LoadWord.shape (l : LoadWord) : Shape :=
  { h := l.h, once := l.k
    named := (l.d, wideOf l.conv) :: l.m.named ++ (l.limitReg.map fun o => (o, 1)).toList ++
      (l.guessReg.map fun n => (Opd.k n, 1)).toList }

/-- A load issues. -/
def loadWord (s : State) (l : LoadWord) : State :=
  issue s l.shape fun x act => lanes l.k (l.lane x.me.nextId) x act

/-- LD (R96, R99). -/
def execLd (h : Hdr) (scl : BitVec 2) (lim : BitVec 4) (pred : BitVec 3) (conv : BitVec 5) (d a b : Opd) (c : CRef) (s : State) :
    Host.Outcome State Fault Refusal :=
  .next (loadWord s { h := h, m := ⟨a, b, scl⟩, d := d, k := false, conv := conv.toNat, lim := lim.toNat, pred := pred.toNat
                      c := c })
/-- LD.strong (R96, R190). -/
def execLdStrong (h : Hdr) (scl : BitVec 2) (sc : Scope) (conv : BitVec 5) (d a b : Opd) (s : State) :
    Host.Outcome State Fault Refusal :=
  .next (loadWord s { h := h, m := ⟨a, b, scl⟩, d := d, k := false, conv := conv.toNat, strong := some sc })
/-- LDK (R96, R101). -/
def execLdk (h : Hdr) (scl : BitVec 2) (mode : LdMode) (conv : BitVec 5) (d a b : Opd) (c : CRef) (s : State) :
    Host.Outcome State Fault Refusal :=
  let l : LoadWord := { h := h, m := ⟨a, b, scl⟩, d := d, k := true, conv := conv.toNat, c := c, kinds := [0, 2, 3, 5, 6] }
  .next (match mode with
    | .weak lim pred => loadWord s { l with lim := lim.toNat, pred := pred.toNat }
    | .strong sc => loadWord s { l with strong := some sc })

/-! ### Stores (R97, R98, R100) -/

/-- The data of a store as a number, with the flags of its conversion. -/
def storeData (w : Warp) (t : Nat) (c : Opd) (conv : Nat) (ns : Bool) : Nat × Word :=
  if conv = 3 then ((w.readPair t c).toNat, 0) else convStore conv ns (w.val t c)

/-- What a store is. -/
structure StoreWord where
  h : Hdr
  m : MemOpd
  c : Opd
  conv : Nat
  ns : Bool := false
  acc : Bool := false
  strong : Option Scope := none
  kinds : List Nat := [0, 3, 5, 8]
  once : Bool

/-- The checks of the data and its exit (R100, R114): none where the store may leave; `window` admits no `.acc`. -/
def StoreWord.dataCause (l : StoreWord) (w : Warp) (t : Nat) (ts : List Nat) (window : Bool) : Option (Byte × Dword) :=
  let x := dataSrc l.c l.conv
  match checkSrcs w t [x] with
  | some c => some c
  | none =>
    if (x.plated w t || w.anyTaint ts) && (window || !l.acc) then some (Cause.plateEscape, 3) else none

/-- One lane of a store (R100). -/
def StoreWord.lane (l : StoreWord) (x : State) (t : Nat) (ts : List Nat) : LaneOut :=
  let w := x.me
  match memCause x t l.m [] { rights := 4, kinds := l.kinds, size := convSize l.conv } with
  | some (cause, addr) => .hit cause addr x
  | none =>
    let obj := capObj (l.m.cap w t)
    let off := l.m.addr w t
    let window := (x.descFor x.myWg obj).kind == 4
    match l.dataCause w t ts window with
    | some (cause, addr) => .hit cause addr x
    | none =>
      if window then
        if off = 16 then storeGo x ts
        else .ok (x.modMe fun q => { q with winQ := q.winQ ++ [(off / 4, w.val t l.c)] })
      else
        let r := storeData w t l.c l.conv l.ns
        let plated := (dataSrc l.c l.conv).plated w t || w.anyTaint ts
        let p := (x.orSt r.2).freshId
        .ok ((p.2.count x.cur.cl .platedStores plated.toNat).send
          { id := p.1, t := t, threads := ts, obj := obj, off := off, size := convSize l.conv, strong := l.strong
            op := .store (leBytes (convSize l.conv) r.1), pc := x.cur.pc, group := p.1 } l.once)

/-- What a STK to CWGO raises for its whole run (R56, R215, R316): a register that its command names is pending, or the command's
slot handle is not valid, once the checks before these have passed. -/
def StoreWord.goDecode (l : StoreWord) (x : State) : Option (Byte × Dword) :=
  let w := x.me
  let act := x.cur.run.filter fun t => w.guarded l.h.g t && !w.guardPlated l.h t
  let t := act.headD 0
  if l.once && !act.isEmpty && (x.descFor x.myWg (capObj (l.m.cap w t))).kind == 4 && l.m.addr w t == 16 &&
      (memCause x t l.m [] { rights := 4, kinds := l.kinds, size := convSize l.conv }).isNone && (l.dataCause w t act true).isNone then
    match (x.modMe Warp.drainWin).goCause with
    | some (c, d) => if c = Cause.switch ∨ c = Cause.slot then some (c, d) else none
    | none => none
  else none
def storeWordOf (s : State) (l : StoreWord) : State :=
  issue s { h := l.h, named := l.m.named ++ [(l.c, wideOf l.conv)], once := l.once, more := l.goDecode } fun x act =>
    lanes l.once l.lane x act

/-- ST (R97, R100). -/
def execSt (h : Hdr) (scl : BitVec 2) (acc ns : Bool) (conv : BitVec 5) (a b c : Opd) (s : State) :
    Host.Outcome State Fault Refusal :=
  .next (storeWordOf s { h := h, m := ⟨a, b, scl⟩, c := c, conv := conv.toNat, ns := ns, acc := acc
                         once := uniform [a, b, c] })
/-- ST.strong (R97, R190). -/
def execStStrong (h : Hdr) (scl : BitVec 2) (sc : Scope) (acc ns : Bool) (conv : BitVec 5) (a b c : Opd) (s : State) :
    Host.Outcome State Fault Refusal :=
  .next (storeWordOf s { h := h, m := ⟨a, b, scl⟩, c := c, conv := conv.toNat, ns := ns, acc := acc, strong := some sc
                         once := uniform [a, b, c] })
/-- STK (R97, R101): with `.n32` it reaches a command window too (R315). -/
def execStk (h : Hdr) (scl : BitVec 2) (mode : Option Scope) (acc ns : Bool) (conv : BitVec 5) (a b c : Opd) (s : State) :
    Host.Outcome State Fault Refusal :=
  .next (storeWordOf s { h := h, m := ⟨a, b, scl⟩, c := c, conv := conv.toNat, ns := ns, acc := acc, strong := mode, once := true
                         kinds := if conv = 0 then [0, 3, 4, 5] else [0, 3, 5] })

/-! ### LDH and STH (R177 to R179) -/

/-- The granule of a stash byte of a workgroup, in its cluster (R173). -/
def Wg.granule (g : Wg) (off : Nat) : Nat := g.stashAt off / 16
def Cluster.isFull (x : Cluster) (i : Nat) : Bool := x.full.contains i
/-- Full granules are kept in rising order. -/
def insertNat (i : Nat) : List Nat → List Nat
  | [] => [i]
  | j :: r => if i < j then i :: j :: r else if i = j then j :: r else j :: insertNat i r
def Cluster.setFull (x : Cluster) (i : Nat) (b : Bool) : Cluster :=
  { x with full := if b then insertNat i x.full else x.full.filter fun j => j != i }

/-- An earlier lane of the same word has its step on the same granule to come. -/
def Warp.granuleBusy (w : Warp) (r : Req) : Bool :=
  w.reqs.any fun q => q.group == r.group && decide (q.id < r.id) && q.off / 16 == r.off / 16 && q.open_

/-- One lane of an LDH: its request waits for its step (R178). -/
def ldhLane (h : Hdr) (m : MemOpd) (conv q : Nat) (d : Opd) (group : Nat) (once : Bool) (x : State) (t : Nat) (ts : List Nat) : LaneOut :=
  match memCause x t m [] { rights := 8, kinds := [8], size := convSize conv } with
  | some (cause, addr) => .hit cause addr x
  | none =>
    let w := x.me
    let e := w.dst d
    let p := x.freshId
    let r : Req :=
      { id := p.1, t := t, threads := ts, obj := stashObj, off := m.addr w t, size := convSize conv, taint := w.anyTaint ts
        op := .ldh conv e q, pc := x.cur.pc, marked := h.sw && x.cur.last, group := group, word := x.cur.word }
    .ok ((p.2.pendWide t e (wideOf conv)).send r once)
def ldhWord (s : State) (h : Hdr) (scl : BitVec 2) (conv : BitVec 5) (d a b : Opd) (q : Nat) : State :=
  let m : MemOpd := ⟨a, b, scl⟩
  let once := uniform [d, a, b]
  issue s { h := h, named := (d, wideOf conv.toNat) :: m.named, once := once } fun x act =>
    lanes once (ldhLane h m conv.toNat q d x.me.nextId once) x act
/-- LDH (R177, R178). -/
def execLdh (h : Hdr) (scl : BitVec 2) (conv : BitVec 5) (d a b : Opd) (s : State) : Host.Outcome State Fault Refusal :=
  .next (ldhWord s h scl conv d a b 0)
/-- LDH.wf (R178). -/
def execLdhWf (h : Hdr) (scl : BitVec 2) (conv : BitVec 5) (d a b : Opd) (s : State) : Host.Outcome State Fault Refusal :=
  .next (ldhWord s h scl conv d a b 1)
/-- LDH.wfe (R178). -/
def execLdhWfe (h : Hdr) (scl : BitVec 2) (conv : BitVec 5) (d a b : Opd) (s : State) : Host.Outcome State Fault Refusal :=
  .next (ldhWord s h scl conv d a b 2)

/-- The step of an STH that has its turn: written, and the granule set full under `.sf` and `.wesf`. -/
def State.sthStep (s : State) (c k : Nat) (r : Req) (bytes : List Byte) (q : Nat) : State :=
  let w := s.warp c k
  let g := (s.wg c w.entry).granule r.off
  if s.notYet c w r false || w.granuleBusy r || (q == 2 && (s.cluster c).isFull g) then s
  else match s.stashWrite c w r.off r.size (leNat bytes) (some (w.writer r.t)) with
    | .ok x _ =>
      (x.modWarp c k fun y => y.dropReq r.id).modCluster c fun y => if q = 0 then y else y.setFull g true
    | .waits _ => s
    | .fails cause => s.modWarp c k fun y =>
      { y with reqs := y.reqs.map fun z => if z.id = r.id then { z with op := .failed cause } else z }

/-- One lane of an STH: its request waits for its step (R178). -/
def sthLane (l : StoreWord) (q group : Nat) (x : State) (t : Nat) (ts : List Nat) : LaneOut :=
  let w := x.me
  match memCause x t l.m [] { rights := 4, kinds := [8], size := convSize l.conv } with
  | some (cause, addr) => .hit cause addr x
  | none =>
    match l.dataCause w t ts false with
    | some (cause, addr) => .hit cause addr x
    | none =>
      let plated := (dataSrc l.c l.conv).plated w t || w.anyTaint ts
      let p := x.freshId
      let bytes := leBytes (convSize l.conv) (storeData w t l.c l.conv false).1
      let r : Req :=
        { id := p.1, t := t, threads := ts, obj := stashObj, off := l.m.addr w t, size := convSize l.conv
          op := .sth bytes q, pc := x.cur.pc, group := group, word := x.cur.word }
      .ok ((p.2.count x.cur.cl .platedStores plated.toNat).send r l.once)
def sthWord (s : State) (h : Hdr) (scl : BitVec 2) (acc : Bool) (conv : BitVec 5) (a b c : Opd) (q : Nat) : State :=
  let l : StoreWord := { h := h, m := ⟨a, b, scl⟩, c := c, conv := conv.toNat, acc := acc, once := uniform [a, b, c] }
  issue s { h := h, named := l.m.named ++ [(c, wideOf conv.toNat)], once := l.once } fun x act =>
    lanes l.once (sthLane l q x.me.nextId) x act
/-- STH (R177, R178). -/
def execSth (h : Hdr) (scl : BitVec 2) (acc : Bool) (conv : BitVec 5) (a b c : Opd) (s : State) :
    Host.Outcome State Fault Refusal := .next (sthWord s h scl acc conv a b c 0)
/-- STH.sf (R178). -/
def execSthSf (h : Hdr) (scl : BitVec 2) (acc : Bool) (conv : BitVec 5) (a b c : Opd) (s : State) :
    Host.Outcome State Fault Refusal := .next (sthWord s h scl acc conv a b c 1)
/-- STH.wesf (R178). -/
def execSthWesf (h : Hdr) (scl : BitVec 2) (acc : Bool) (conv : BitVec 5) (a b c : Opd) (s : State) :
    Host.Outcome State Fault Refusal := .next (sthWord s h scl acc conv a b c 2)

/-! ### CMK, CLEN (R81) -/

/-- A capability word with a pair result. -/
def capWord (s : State) (h : Hdr) (d : Opd) (l : List Src) (addr : Bool) (f : State → Warp → Nat → Dword) : State :=
  let once := uniform (d :: l.map Src.o)
  issue s { h := h, named := namedOf (some (d, 2)) l, once := once } (lanes once fun x t ts =>
    match (checkSrcs x.me t l).or (if addr then checkPlates x.me t l else none) with
    | some (cause, a) => .hit cause a x
    | none =>
      let v := f x x.me t
      let p := resultPlate x.me t ts l
      .ok ((x.writeReg t (x.me.dst d) (loWord v) 0 p).writeReg t ((x.me.dst d).plus 1) (hiWord v) 0 p))
/-- CMK (R81). -/
def execCmk (h : Hdr) (d a : Opd) (s : State) : Host.Outcome State Fault Refusal :=
  .next (capWord s h d [srcA a] true fun x w t =>
    let n := (w.val t a).toNat
    let e := x.descFor x.myWg n
    if n = 0 ∨ n ≥ 2 ^ 24 ∨ !e.valid then 0
    else BitVec.ofNat 64 (n * 2 ^ 40 + e.rights * 2 ^ 36))
/-- CLEN (R81). -/
def execClen (h : Hdr) (d a : Opd) (s : State) : Host.Outcome State Fault Refusal :=
  .next (capWord s h d [srcA a .arith 2] false fun x w t =>
    let e := x.descFor x.myWg (capObj (w.readPair t a))
    if capObj (w.readPair t a) = 0 ∨ !e.valid then 0 else BitVec.ofNat 64 e.len)

/-! ### Plates (R116, R117, R120) -/

/-- TPL (R116): a void register raises nothing; CM is left unplated even under taint. -/
def execTpl (h : Hdr) (a : Opd) (s : State) : Host.Outcome State Fault Refusal :=
  let once := uniform [a]
  .next (issue s { h := h, named := [(a, 1)], cm := true, once := once } (lanes once fun x t ts =>
    .ok (ts.foldl (fun y u => y.writeCm u (x.me.read t a).plate false) x)))
/-- TPL.t (R116). -/
def execTplT (h : Hdr) (s : State) : Host.Outcome State Fault Refusal :=
  .next (issue s { h := h, cm := true } (perLane fun x t => .ok (x.writeCm t (x.me.thread t).tt false)))
/-- The register lane of a destination. -/
def Warp.reg (w : Warp) (t : Nat) : Dst → Reg
  | .v n => w.getV t n
  | .k n => w.getK n
  | _ => {}
def Warp.putReg (w : Warp) (t : Nat) (d : Dst) (r : Reg) : Warp :=
  match d with
  | .v n => w.putV t n r
  | .k n => w.putK n r
  | _ => w
/-- The ticket that a destination's lane is tied to. -/
def Warp.tie (w : Warp) (t : Nat) (d : Dst) : Option Nat := w.tied d.isK d.num (if d.isK then 0 else t)
def Warp.untieDst (w : Warp) (t : Nat) (d : Dst) : Warp := w.untie d.isK d.num (if d.isK then 0 else t)
/-- ACPT (R117). -/
def execAcpt (h : Hdr) (d : Opd) (s : State) : Host.Outcome State Fault Refusal :=
  let once := uniform [d]
  .next (issue s { h := h, named := [(d, 1)], once := once } (lanes once fun x t _ =>
    let w := x.me
    let e := w.dst d
    let y := (w.untieDst t e)
    .ok ((x.setMe (y.putReg t e { (y.reg t e) with plate := false })).count x.cur.cl .guessesAccepted (w.tie t e).isSome.toNat)))
/-- TCLR (R120). -/
def execTclr (h : Hdr) (s : State) : Host.Outcome State Fault Refusal :=
  .next (issue s { h := h } (perLane fun x t => .ok (x.modMe fun w => w.modThread t fun y => { y with tt := false })))

/-! ### Prefetch (R121) -/

/-- The data of a prefetch come to their level (R121): the sectors of an L1, those of the home slices, or the sector of the
memory-side cache. It is no demand of what other prefetches brought. -/
def State.prefetch (s : State) (c ctx obj off n lvl a : Nat) : State :=
  let come : State := ((List.range (n / 64)).foldl (fun x i => x.mscFetch (a + 64 * i)) s).l2Keep ctx obj off n a
  let y := match lvl with
    | 0 => (List.range (n / 64)).foldl (fun (z : State) i => z.fillSector z c ctx obj (off + 64 * i) (a + 64 * i))
        (come.telling ctx obj off n)
    | 2 => if a / 2 ^ 64 = 1 ∧ s.mscSets ≠ 0 ∧ !s.mscHit (a % 2 ^ 64) then s.mscFill (a % 2 ^ 64) else s
    | _ => come
  let ws := ((List.range (n / 4)).map fun i => wordKey ctx obj (off / 4 + i)).filter fun k =>
    lvl != 0 || (look (y.cluster c).l1 k).isSome
  let p : Prefetched := { lvl := lvl, words := ws, place := a }
  y.modCluster c fun q => if ws.isEmpty || q.pf.contains p then q else { q with pf := p :: q.pf }
/-- A prefetch leaves for memory. R121 drops it for a cause of R95 and for TRANSLATION; one that would meet SWAP, FABRIC or POISON is
dropped and counted so too, and one for a page that migrates counts as issued and brings nothing (DESIGN CHOICE, log 72). -/
def State.prefetchGo (s : State) (c : Nat) (w : Warp) (obj off n lvl : Nat) : State :=
  let ctx := (s.wg c w.entry).ctx
  match s.place w ctx obj off n with
  | .found a => (s.count c .pftIssued 1).prefetch c ctx obj off n lvl a
  | .waits cause => s.count c (if cause = Cause.migration then .pftIssued else .pftDropped) 1
  | .fails _ => s.count c .pftDropped 1

/-- One lane of a PFT: it raises nothing; a lane with a cause is dropped. PFT has no CONV: its access is taken to be of 1 byte for
the checks of R95 (DESIGN CHOICE, log 72). During a handshake it waits at the station (R321). -/
def pftLane (m : MemOpd) (lvl : Nat) (line : Bool) (x : State) (t : Nat) (_ : List Nat) : LaneOut :=
  let w := x.me
  let c := x.cur.cl
  let n := if line then 256 else 64
  match memCause x t m [] { rights := 8, kinds := [0, 2, 3, 5, 6], size := 1 } with
  | some _ => .ok (x.count c .pftDropped 1)
  | none =>
    let obj := capObj (m.cap w t)
    let off := m.addr w t / n * n
    .ok (if x.myCluster.crossing then
        x.modMyCluster fun q => { q with station := q.station ++ [{ entry := w.entry, obj := obj, off := off, bytes := n, lvl := lvl }] }
      else x.prefetchGo c w obj off n lvl)
/-- PFT (R121): it raises no lane-class cause, PLATE_CONTROL of its guard included: a thread whose guard reads a guessed
condition has its prefetch dropped. -/
def execPft (h : Hdr) (scl : BitVec 2) (lim : BitVec 4) (lvl : BitVec 2) (line : Bool) (a b : Opd) (s : State) :
    Host.Outcome State Fault Refusal :=
  let m : MemOpd := ⟨a, b, scl⟩
  let _patience := lim
  .next (issue s { h := h, named := m.named, once := m.uniform, quiet := true } fun x act =>
    let guessed := (s.present { h := h, named := m.named }).filter fun t => s.me.guardPlated h t
    lanes m.uniform (pftLane m lvl.toNat line) (x.count s.cur.cl .pftDropped guessed.length) act)

end Sys2Proof.Machine
end

