-- ==== Sys2Proof/Machine/Replies.lean ====
section
/-! DEFINITION. What becomes of issued accesses: replies, limits and tickets (R12, R99, R105 to R110), REDEM (R118, R119),
long results (R50), causes met by stores (R100), and the steps of LDH and STH (R178). -/

namespace Sys2Proof.Machine

/-! ### Registers written by a reply -/

/-- The destination of a load. -/
def Load.dst (l : Load) : Dst := if l.k then .k l.reg else .v l.reg
/-- Write a converted number to a destination of one or two registers, and clear its pending bits. -/
def Warp.settleReg (w : Warp) (t : Nat) (d : Dst) (conv : Nat) (v : Nat) (plate : Bool) : Warp :=
  if conv = 3 then
    let e := d.plus 1
    (((w.unpendDst t d).write t d (BitVec.ofNat 32 v) 0 plate).unpendDst t e).write t e (BitVec.ofNat 32 (v / 2 ^ 32)) 0 plate
  else (w.unpendDst t d).write t d (convLoad conv v) (convTag conv) plate
def Warp.unpendWide (w : Warp) (t : Nat) (d : Dst) (conv : Nat) : Warp :=
  (List.range (wideOf conv)).foldl (fun x j => x.unpendDst t (d.plus j)) w

/-- Loads whose replies a lane of their own issue may still ask for are kept (R105). -/
def pruneLoads (l : List Load) : List Load :=
  l.filter fun x => !x.finished || (x.reply.isSome && l.any fun y => y.group == x.group && !y.settled && (y.pred == 3 || y.pred == 5))
def Warp.setLoad (w : Warp) (l : Load) : Warp :=
  { w with loads := pruneLoads (w.loads.map fun x => if x.id = l.id then l else x) }
def Warp.loadOf (w : Warp) (id : Nat) : Option Load := w.loads.find? fun l => l.id == id && !l.finished
def Warp.reqOf (w : Warp) (id : Nat) : Option Req := w.reqs.find? fun r => r.id == id
def Warp.setReq (w : Warp) (r : Req) : Warp := { w with reqs := w.reqs.map fun x => if x.id = r.id then r else x }

/-! ### The last-value table (R105, R106) -/

def lvtKey (pc : BitVec 40) : Nat := pc.toNat / 8 % 512
def Cluster.lvtAt (x : Cluster) (cobj : Nat) (pc : BitVec 40) : Lvt :=
  let e := Tab.get {} x.lvt (lvtKey pc)
  if e.ctx = x.ctx ∧ e.cobj = cobj ∧ e.pc = pc then e else { ctx := x.ctx, cobj := cobj, pc := pc }
def Load.lvtLane (l : Load) : Nat := if l.k then 0 else l.t
/-- A true value comes to the table. -/
def State.lvtTrue (s : State) (c : Nat) (cobj : Nat) (l : Load) (v : Word) : State :=
  if l.pred = 1 ∨ l.pred = 2 then
    s.modCluster c fun x =>
      let e := x.lvtAt cobj l.wpc
      let i := l.lvtLane
      let prev := match look e.last i with
        | some u => Tab.put e.prev i u
        | none => e.prev
      { x with lvt := Tab.put x.lvt (lvtKey l.wpc) { e with last := Tab.put e.last i v, prev := prev } }
  else s

/-- 2 · last − previous in the destination's form (R105). -/
def strideGuess (tag : BitVec 2) (last prev : Word) : Word :=
  let two : FVal := .fin false 2 0
  let ext (f : FVal) (g : FVal) : FVal := addX .rn (mulX two f) g.negate
  if tag = 1 then (toF32 .rn (ext (f32 last) (f32 prev))).1
  else if tag = 2 then
    halves (bf16.finish .rn (ext (half16 (lowHalf last)) (half16 (lowHalf prev)))).1
      (bf16.finish .rn (ext (half16 (highHalf last)) (half16 (highHalf prev)))).1
  else last + last - prev
/-- The reply of the nearest lower-numbered lane of the issue that came before the lane's expiry. -/
def Warp.neighbour (w : Warp) (l : Load) : Option Word :=
  (w.loads.foldl (fun (b : Option (Nat × Word)) x =>
    if x.group = l.group ∧ x.t < l.t then
      match x.reply with
      | some (v, tick) =>
        if tick < l.t0 + l.limit ∧ (b.map fun p => p.1).all (· < x.t) then some (x.t, v) else b
      | none => b
    else b) none).map fun p => p.2
/-- The guess of a lane (R105). -/
def State.guessOf (s : State) (c : Nat) (w : Warp) (l : Load) : Word :=
  let e := (s.cluster c).lvtAt (s.wg c w.entry).cobj l.wpc
  match l.pred with
  | 1 => (look e.last l.lvtLane).getD 0
  | 2 => match look e.last l.lvtLane with
    | none => 0
    | some last => match look e.prev l.lvtLane with
      | none => last
      | some prev => strideGuess (convTag l.conv) last prev
  | 3 => (w.neighbour l).getD 0
  | 4 => l.guessK
  | 5 => (w.neighbour l).getD l.guessK
  | _ => 0

/-! ### Limits (R12, R99, R107) -/

/-- The histogram bin of a limit (R124). -/
def limitBin (n : Nat) : Nat := min 15 (Nat.log2 n - 2)
/-- The ticket that a lane can be tied to: the one that serves its register, or the lowest that is free now and was free as
the tick began. -/
def Warp.ticketFor (w : Warp) (k : Bool) (reg : Nat) : Option Nat :=
  match w.ticketOf k reg with
  | some i => some i
  | none => (List.range 8).find? fun i => !(Tab.get {} w.tickets i).valid && w.free0.getLsbD i

/-- LIMIT_EXPIRY (R12, R99). A ticket holds one CONV (R108): where loads of different CONV tie lanes of one register to it, that of
the first stays, and REDEM tags every lane by it (DESIGN CHOICE, log 73). -/
def execLimitExpiry (cl slot id : Nat) (s : State) : Host.Outcome State Fault Refusal :=
  let w := s.warp cl slot
  .next (match w.loadOf id with
    | none => s
    | some l =>
      if l.settled || l.limit == 0 || decide (s.tick < l.t0 + l.limit) then s
      else
        let y := s.count cl (.limitExpiry (limitBin l.limit)) 1
        match w.ticketFor l.k l.reg with
        | none => (y.modWarp cl slot fun q => q.setLoad { l with limit := 0 }).count cl .limitIgnored 1
        | some i =>
          let g := s.guessOf cl w l
          let q1 := w.putReg l.t l.dst { data := g, tag := convTag l.conv, plate := true }
          let x := Tab.get {} w.tickets i
          let lane := l.lvtLane
          let tk : Ticket :=
            if x.valid then { x with lanes := setBit x.lanes lane true }
            else { valid := true, k := l.k, reg := l.reg, conv := l.conv, lanes := setBit 0 lane true }
          let q2 := { q1 with tickets := Tab.put q1.tickets i tk }
          ((y.setWarp cl slot (q2.setLoad { l with settled := true, ticket := some i, guess := g })).count cl .guessesIssued 1).stir
            cl slot)

/-! ### REDEM (R118, R119) -/

/-- Is the lane's ticket answered: with its value, or with a cause? -/
def Ticket.answer (x : Ticket) (lane : Nat) : Option (Word ⊕ Byte) :=
  if bitOf x.failed lane then some (.inr ((Tab.get 0 x.value lane).setWidth 8))
  else if bitOf x.arrived lane then some (.inl (Tab.get 0 x.value lane))
  else none

/-- One lane of a REDEM, or its one performance on a k register. -/
def redemLane (d : Opd) (x : State) (t : Nat) (ts : List Nat) : LaneOut :=
  let w := x.me
  let e := w.dst d
  let r := w.reg t e
  let cms (b : Bool) : List LWrite := ts.map fun u => { t := u, dst := .cm, val := if b then 1 else 0 }
  let same (q : Reg) : LWrite := { t := t, dst := e, val := q.data, tag := q.tag, plate := q.plate }
  match w.tie t e with
  | none => .ok (x.long (same r :: cms r.plate) 0)
  | some i =>
    let tk := Tab.get {} w.tickets i
    match tk.answer (if e.isK then 0 else t) with
    | some (.inr cause) => .hit cause 0 (x.setMe (w.untieDst t e))
    | some (.inl v) =>
      let y := (x.setMe (w.untieDst t e)).count x.cur.cl .guessesRedeemed 1
      .ok (y.long ({ t := t, dst := e, val := v, tag := convTag tk.conv, plate := w.anyTaint ts } :: cms false) 0)
    | none =>
      let q := w.putReg t e { r with pend := true }
      let q1 := ts.foldl (fun z u => z.pendDst u .cm) q
      .ok ((x.setMe q1).await ts (.redem e.isK e.num))
/-- REDEM (R118). -/
def execRedem (h : Hdr) (d : Opd) (s : State) : Host.Outcome State Fault Refusal :=
  let once := uniform [d]
  .next (issue s { h := h, named := [(d, 1)], cm := true, once := once } (lanes once (redemLane d)))

/-- Threads that wait in REDEM for an answered lane take it, or its cause. -/
def State.redeemed (s : State) (c k : Nat) : State :=
  (s.warp c k).waits.foldl (fun x e =>
    match e.why with
    | .redem isK reg =>
      let w := x.warp c k
      let t := e.threads.headD 0
      let d : Dst := if isK then .k reg else .v reg
      match w.tie t d with
      | none => x
      | some i =>
        let tk := Tab.get {} w.tickets i
        let clear (q : Warp) : Warp := e.threads.foldl (fun z u => z.unpendDst u .cm) (q.unpendDst t d)
        let off (q : Warp) : Warp := { q with waits := q.waits.filter fun y => y.id != e.id }
        match tk.answer (if isK then 0 else t) with
        | none => x
        | some (.inr cause) =>
          (x.setWarp c k (clear (w.untieDst t d))).failWait c k e cause 0
        | some (.inl v) =>
          let q := (clear (w.untieDst t d)).write t d v (convTag tk.conv) (w.anyTaint e.threads)
          let q1 := e.threads.foldl (fun z u => z.write u .cm 0 0 false) q
          ((x.setWarp c k (off q1)).count c .guessesRedeemed 1).resume c k e.threads
    | _ => x) s

/-! ### Replies (R99, R107, R110) -/

/-- A load's bytes have come. -/
def State.replied (s : State) (c k : Nat) (l : Load) (v : Nat) : State :=
  let w := s.warp c k
  let val := convLoad l.conv v
  match l.ticket with
  | none =>
    let w1 := w.settleReg l.t l.dst l.conv v l.taint
    ((s.setWarp c k (w1.setLoad { l with settled := true, finished := true, reply := some (val, s.tick) })).lvtTrue c
      (s.wg c w.entry).cobj l val).stir c k
  | some i =>
    let tk := Tab.get {} w.tickets i
    let lane := l.lvtLane
    let tk' := { tk with arrived := setBit tk.arrived lane true, value := Tab.put tk.value lane val }
    let s2 := s.modWarp c k fun q =>
      ({ q with tickets := Tab.put q.tickets i tk' }).setLoad { l with finished := true }
    (((s2.count c .guessesEqual (decide (val = l.guess)).toNat).lvtTrue c (s.wg c w.entry).cobj l val).redeemed c k).stir c k

/-- A cause found at memory comes for a load (R110). -/
def State.loadFailed (s : State) (c k : Nat) (l : Load) (cause : Byte) : State :=
  let w := s.warp c k
  match l.ticket with
  | none =>
    let d : Deferred :=
      { cause := cause, addr := objAddr l.obj l.off, reg := some (l.k, l.reg), wide := l.conv == 3
        atPc := if l.marked then some l.pc else none }
    let w1 := (w.unpendWide l.t l.dst l.conv).setLoad { l with settled := true, finished := true }
    let w2 := l.threads.foldl (fun q t => q.modThread t fun y => { y with deferred := y.deferred ++ [d] }) w1
    (s.setWarp c k w2).stir c k
  | some i =>
    let tk := Tab.get {} w.tickets i
    let lane := l.lvtLane
    let tk' := { tk with
      arrived := setBit tk.arrived lane true, failed := setBit tk.failed lane true, value := Tab.put tk.value lane (cause.setWidth 32) }
    ((s.modWarp c k fun q => ({ q with tickets := Tab.put q.tickets i tk' }).setLoad { l with finished := true }).redeemed c k).stir c k


/-- LOAD_REPLY (R99): the reply, or the cause, at the level named, once the request has left its lane. After a guess it comes on a
later tick (R12). One that is on its way to a cluster in a handshake waits (R321). -/
def execLoadReply (cl slot id : Nat) (via : Via) (s : State) : Host.Outcome State Fault Refusal :=
  let w := s.warp cl slot
  .next (match w.loadOf id with
    | none => s
    | some l =>
      if (l.ticket.isSome && decide (s.tick ≤ l.t0 + l.limit)) || decide ((s.cluster cl).cyc < l.leave) || s.recordOpen l.recAt then s
      else match l.fixed with
        | some v => if (s.cluster cl).crossing && l.obj != stashObj then s else s.replied cl slot l v.toNat
        | none =>
          if w.blocked l.id l.threads l.obj l.off l.size l.strong.isSome then s
          else match s.readLoad cl w l (some via) with
            | some (.ok x v) => x.replied cl slot l v
            | some (.fails cause) => s.loadFailed cl slot l cause
            | _ => s)

/-! ### Long results and atomics (R50, R203) -/

/-- What an atomic comes to: the old value to its destination; `.cas` also to CM. -/
def Warp.atomDone (w : Warp) (r : Req) (fn ty : Nat) (x : Dword) (d : Dst) (old : Nat) : Warp :=
  let w1 := w.settleReg r.t d (if ty = 3 then 3 else if ty = 2 then 1 else 0) old r.taint
  let w2 := if fn = 7 then
      r.threads.foldl (fun q t => (q.unpendDst t .cm).write t .cm (if old = x.toNat then 1 else 0) 0 r.taint) w1
    else w1
  w2.dropReq r.id
/-- A drain error: a KIND 3 record, and FL in the work object (R32, R290). -/
def State.drainError (s : State) (c k : Nat) (cause : Byte) (addr : Dword) (pc : BitVec 40) (ts : List Nat) : State :=
  let w := s.warp c k
  let g := s.wg c w.entry
  ((s.modWg c w.entry fun x => { x with failed := true }).post g.ctx
    { cause := cause, cl := c, slot := if k < trackSlot then k else w.left, wgid := g.wgid, addr := addr, lobj := g.wobj
      pc := pc, lanes := maskOf ts, kind := 3 }).setFl g.ctx g.wobj g.woff

/-- The cause of a request that writes registers: it settles them unwritten (R110); of threads that have left, R32 governs. -/
def State.reqFailed (s : State) (c k : Nat) (r : Req) (d : Dst) (conv : Nat) (cm : Bool) (cause : Byte) : State :=
  let e : Deferred :=
    { cause := cause, addr := objAddr r.obj r.off, reg := some (d.isK, d.num), wide := conv == 3, cm := cm
      atPc := if r.marked then some r.pc else none }
  let w0 := s.warp c k
  let live := r.threads.filter fun t => (w0.thread t).st != .exited
  let w := w0.unpendWide r.t d conv
  let w1 := if cm then r.threads.foldl (fun q t => q.unpendDst t .cm) w else w
  let w2 := live.foldl (fun q t => q.modThread t fun y => { y with deferred := y.deferred ++ [e] }) w1
  let x := s.setWarp c k (w2.dropReq r.id)
  (if k ≥ trackSlot ∨ live.isEmpty then x.drainError c k cause e.addr r.pc r.threads else x).stir c k

/-- An atomic at its point of coherence (R203). -/
def State.atomStep (s : State) (c k : Nat) (r : Req) (fn ty : Nat) (x : Dword) (d : Dst) : State :=
  let w := s.warp c k
  if s.notYet c w r true || w.laneBefore r then s
  else match s.performAt c w r with
    | .ok y old => (y.modWarp c k fun q => q.atomDone r fn ty x d old).stir c k
    | .waits _ => s
    | .fails cause => s.reqFailed c k r d (if ty = 3 then 3 else 0) (fn == 7) cause

/-- The writes of a long result are made (R50, R146). -/
def State.longDone (s : State) (c k : Nat) (l : Long) : State :=
  let w := s.warp c k
  let cyc := (s.cluster c).cyc
  let w1 := l.writes.foldl (fun q x => (q.unpendDst x.t x.dst).write x.t x.dst x.val x.tag x.plate) w
  (s.setWarp c k { w1 with
    longs := w1.longs.filter fun y => y.id != l.id
    sr := w1.sr ||| l.flags
    flagAt := if l.flags = 0 then w1.flagAt else cyc
    flagNow := if w1.flagAt = cyc then w1.flagNow ||| l.flags else if l.flags = 0 then w1.flagNow else l.flags }).stir c k

/-! ### LDH and STH (R178) -/

/-- LDH_WAKE (R178): the step of an LDH lane whose turn it is. -/
def execLdhWake (cl slot id : Nat) (s : State) : Host.Outcome State Fault Refusal :=
  let w := s.warp cl slot
  .next (match w.reqOf id with
    | none => s
    | some r =>
      match r.op with
      | .ldh conv d q =>
        let g := (s.wg cl w.entry).granule r.off
        if s.notYet cl w r false || w.granuleBusy r ||
            (q != 0 && !(s.cluster cl).isFull g) then s
        else match s.stashRead cl w r.off r.size with
          | .ok x v =>
            ((x.modWarp cl slot fun y => (y.settleReg r.t d conv v r.taint).dropReq r.id).modCluster cl fun y =>
              if q = 2 then y.setFull g false else y).stir cl slot
          | .waits _ => s
          | .fails cause => s.reqFailed cl slot r d conv false cause
      | _ => s)

/-- STH_WAKE (R178). -/
def execSthWake (cl slot id : Nat) (s : State) : Host.Outcome State Fault Refusal :=
  let w := s.warp cl slot
  .next (match w.reqOf id with
    | none => s
    | some r =>
      match r.op with
      | .sth bytes q => (s.sthStep cl slot r bytes q).stir cl slot
      | _ => s)

/-! ### Causes met by stores (R100, R32) -/

/-- STORE_MEMORY_CAUSE (R100): the cause waits for the storing threads' next point; of a warp that has left, R32 governs. -/
def execStoreMemoryCause (cl slot id : Nat) (s : State) : Host.Outcome State Fault Refusal :=
  let w := s.warp cl slot
  .next (match w.reqOf id with
    | none => s
    | some r =>
      match r.op with
      | .failed cause =>
        let live := r.threads.filter fun t => (w.thread t).st != .exited
        let x := s.modWarp cl slot fun y => y.dropReq id
        let addr := objAddr r.obj r.off
        (if slot ≥ trackSlot ∨ live.isEmpty then x.drainError cl slot cause addr r.pc r.threads
         else x.modWarp cl slot fun y => live.foldl (fun q t =>
          q.modThread t fun z => { z with deferred := z.deferred ++ [{ cause := cause, addr := addr }] }) y).stir cl slot
      | _ => s)

end Sys2Proof.Machine
end

