-- ==== Sys2Proof/Machine/Slices.lean ====
section
/-! DEFINITION. Stash mappings (R174 to R176), and gather and scatter at the home slices (R180 to R183). -/

namespace Sys2Proof.Machine

/-! ### Mappings -/

/-- Stash words of a mapping. -/
def Wg.mapRange (g : Wg) (m : Map) : Nat × Nat := (g.stashAt m.soff / 4, g.stashAt m.soff / 4 + m.len / 4)
def inMap (r : Nat × Nat) (j : Nat) : Bool := r.1 ≤ j && j < r.2

/-- A request of thread `t` for a word, left by a write-back. -/
def Warp.leaveReq (w : Warp) (t : Nat) (ts : List Nat) (obj off : Nat) (pc : BitVec 40) (op : ReqOp) : Warp :=
  { w with
    nextId := w.nextId + 1
    reqs := w.reqs ++ [{ id := w.nextId, t := t, threads := ts, obj := obj, off := off, size := 4, op := op, pc := pc
                         group := w.nextId }] }
/-- Write back the dirty words of a mapping, as weak writes of thread `t` (R176). A word whose place must wait is written into
the L1, as a weak store is (log 14), from where releases of `t`, and of those who wrote it, perform it (R196, R205), and its
write-back is a request of the warp until it is done; one that meets a cause becomes a store of thread `t` that met it. None where the
L1 has no room for such a word. -/
def State.mapBack (s : State) (c k t : Nat) (ts : List Nat) (m : Map) : Option State :=
  let r := (s.wg c (s.warp c k).entry).mapRange m
  (s.cluster c).mapped.foldl (fun o e => o.bind fun x =>
    match (if inMap r e.1 && e.2.own && e.2.dirty then (x.cluster c).globalOf e.1 else none) with
    | none => some x
    | some (ctx, obj, i) =>
      let w := x.warp c k
      let v := (x.cluster c).stashWord e.1
      let clean (y : State) : State := y.modCluster c fun q => { q with mapped := Tab.put q.mapped e.1 e.2.clean }
      match x.flushWord c w ctx obj i v with
      | .ok y _ => some ((clean y).count c .stashWritebacks 1)
      | .waits _ => (x.room c (wordKey ctx obj i)).map fun y =>
        (y.ownWord c ctx obj i v (some (w.writer t))).modWarp c k fun q => q.leaveReq t ts obj (4 * i) x.cur.pc .back
      | .fails cause => some ((clean x).modWarp c k fun q => q.leaveReq t ts obj (4 * i) x.cur.pc (.failed cause))) (some s)
/-- Stores of the threads to the mapping are not performed yet. -/
def Warp.openIn (w : Warp) (ts : List Nat) (off n : Nat) : Bool :=
  w.reqs.any fun r => r.open_ && !r.isLoad && r.obj == stashObj && (r.threads.any fun t => ts.contains t) &&
    decide (r.off < off + n ∧ off < r.off + r.size)
/-- A word that writes a live mapping back can issue: its threads' earlier stores there are performed (R122), and its words find a
place. -/
def State.mapGoes (s : State) (ts : List Nat) (id : Nat) : Bool :=
  let m := Tab.get {} s.myWg.maps id
  !m.live || (!s.me.openIn ts m.soff m.len && (s.mapBack s.cur.cl s.cur.slot (ts.headD 0) ts m).isSome)
/-- It stays in issue until it can. -/
def afterMap (s : State) (x : Shape) (id : Nat) (f : State → State) : State :=
  let ts := (s.goers x).filter fun t => s.me.guarded x.h.g t
  if (decodeCause s x).isNone && !ts.isEmpty && !s.mapGoes ts id then s else f s

/-- SUNMAP of a mapping (R176): the stash bytes stay as private scratch. -/
def State.unmap (s : State) (c k t : Nat) (ts : List Nat) (id : Nat) : State :=
  let e := (s.warp c k).entry
  let m := Tab.get {} (s.wg c e).maps id
  if !m.live then s
  else
    let x := (s.mapBack c k t ts m).getD s
    let r := (x.wg c e).mapRange m
    (x.modCluster c fun q => { q with mapped := q.mapped.filter fun p => !inMap r p.1 }).modWg c e fun g =>
      { g with maps := Tab.del g.maps id }

/-- Another live mapping of the workgroup meets the range (R174). -/
def Wg.overlaps (g : Wg) (id off n : Nat) : Bool :=
  g.maps.any fun m => m.1 != id && m.2.live && decide (off < m.2.soff + m.2.len ∧ m.2.soff < off + n)

/-- Sources, then plates of every one (R57). -/
def plainCause (w : Warp) (t : Nat) (l : List Src) : Option (Byte × Dword) := (checkSrcs w t l).or (checkPlates w t l)

/-- What SMAP raises (R174). -/
def mapCause (x : State) (t : Nat) (id : Nat) (a b c : Nat) : Option (Byte × Dword) :=
  let w := x.me
  let g := x.myWg
  let cap := w.kPair a
  let kb := (w.getK b).data.toNat
  let kc := (w.getK c).data.toNat
  match plainCause w t [srcA (.k a) .arith 2, srcB (.k b), srcC (.k c)] with
  | some q => some q
  | none =>
    let here := objAddr (capObj cap) (capOff cap)
    match x.checkRange g cap (capOff cap) { rights := 8, kinds := [0, 2, 3, 6], size := kc } 1 with
    | some q => some q
    | none =>
      if kb + kc > 4096 * g.stn ∨ g.overlaps id kb kc then some (Cause.stashBounds, BitVec.ofNat 64 kb)
      else if kb % 256 ≠ 0 ∨ kc % 256 ≠ 0 ∨ capOff cap % 256 ≠ 0 ∨ kc = 0 then some (Cause.align, here)
      else none

/-- SMAP (R174): a range that is not written, for want of WR or by its kind, is mapped read-only. -/
def execSmap (h : Hdr) (id : BitVec 3) (a b c : Nat) (s : State) : Host.Outcome State Fault Refusal :=
  let sh : Shape := { h := h, named := [(.k a, 2), (.k b, 1), (.k c, 1)], once := true }
  .next (afterMap s sh id.toNat fun s0 => issue s0 sh (perRun fun x ts =>
    let t := ts.headD 0
    match mapCause x t id.toNat a b c with
    | some (cause, addr) => .hit cause addr x
    | none =>
      let w := x.me
      let cap := w.kPair a
      let d := x.descFor x.myWg (capObj cap)
      let ro := !(hasRights (capRights cap) 4 && hasRights d.rights 4 && (d.kind == 0 || d.kind == 3))
      let y := x.unmap x.cur.cl x.cur.slot t ts id.toNat
      let m : Map := { cap := cap, live := true, ro := ro, soff := (w.getK b).data.toNat, len := (w.getK c).data.toNat }
      let r := y.myWg.mapRange m
      .ok ((y.setMyWg { y.myWg with maps := Tab.put y.myWg.maps id.toNat m }).modMyCluster fun q =>
        { q with mapped := q.mapped.filter fun p => !inMap r p.1 })))
/-- SUNMAP (R176). -/
def execSunmap (h : Hdr) (id : BitVec 3) (s : State) : Host.Outcome State Fault Refusal :=
  let sh : Shape := { h := h, once := true }
  .next (afterMap s sh id.toNat fun s0 => issue s0 sh (perRun fun x ts =>
    .ok (x.unmap x.cur.cl x.cur.slot (ts.headD 0) ts id.toNat)))
/-- SFLUSH (R176). -/
def execSflush (h : Hdr) (id : BitVec 3) (s : State) : Host.Outcome State Fault Refusal :=
  let sh : Shape := { h := h, once := true }
  .next (afterMap s sh id.toNat fun s0 => issue s0 sh (perRun fun x ts =>
    let m := Tab.get {} x.myWg.maps id.toNat
    .ok (if m.live then (x.mapBack x.cur.cl x.cur.slot (ts.headD 0) ts m).getD x else x)))

/-! ### GATH and SCAT (R180 to R182) -/

/-- What a gather or scatter names. -/
structure Slice where
  h : Hdr
  d : Nat
  a : Nat
  b : Nat
  c : Nat
  size : Nat
  need : Need
  dAlign : Nat
  /-- It writes the stash at D. -/
  fills : Bool := false

def Slice.count (g : Slice) (w : Warp) : Nat := (w.getK g.c).data.toNat
def Slice.dest (g : Slice) (w : Warp) : Nat := (w.getK g.d).data.toNat
/-- The address of element `i`: its index is read from the stash at issue (R181). -/
def Slice.addr (g : Slice) (x : State) (i : Nat) : Nat :=
  let w := x.me
  capOff (w.kPair g.a) + x.stashNat x.cur.cl x.myWg ((w.getK g.b).data.toNat + 4 * i) 4 * g.size

/-- The checks of R181, in order. A gather writes its destination: into a read-only mapping it raises RIGHTS as a store does
(R174; log 74). -/
def Slice.cause (g : Slice) (x : State) (t : Nat) : Option (Byte × Dword) :=
  let w := x.me
  let wg := x.myWg
  let cap := w.kPair g.a
  let obj := capObj cap
  let n := g.count w
  let len := (x.descFor wg obj).len
  let at_ := (w.getK g.b).data.toNat
  let alloc := 4096 * wg.stn
  let d : Src := { o := .k g.d, code := 0 }
  match plainCause w t [d, srcA (.k g.a) .arith 2, srcB (.k g.b), srcC (.k g.c)] with
  | some q => some q
  | none =>
    match x.checkRange wg cap 0 { g.need with size := 0 } 1 with
    | some (q, _) => some (q, objAddr obj (capOff cap))
    | none =>
      if g.fills && n != 0 && wg.readOnlyAt (g.dest w) (g.size * n) then some (Cause.rights, objAddr stashObj (g.dest w))
      else if n > 256 then some (Cause.bounds, BitVec.ofNat 64 n)
      else if at_ + 4 * n > alloc then some (Cause.stashBounds, BitVec.ofNat 64 at_)
      else if g.dest w + g.size * n > alloc then some (Cause.stashBounds, BitVec.ofNat 64 (g.dest w))
      else match (List.range n).find? fun i => g.addr x i + g.size > len with
        | some i => some (Cause.bounds, BitVec.ofNat 64 i)
        | none =>
          if at_ % 4 ≠ 0 then some (Cause.align, objAddr stashObj at_)
          else if g.dest w % g.dAlign ≠ 0 then some (Cause.align, objAddr stashObj (g.dest w))
          else match (List.range n).find? fun i => g.addr x i % g.size ≠ 0 with
            | some i => some (Cause.align, objAddr obj (g.addr x i))
            | none => none

/-- The requests of the elements: `op` says what each does. -/
def Slice.send (g : Slice) (x : State) (ts : List Nat) (op : Nat → ReqOp) : State :=
  let w := x.me
  let id := w.nextId
  let n := g.count w
  let rs := (List.range n).map fun i =>
    ({ id := id + i, t := ts.headD 0, threads := ts, obj := capObj (w.kPair g.a), off := g.addr x i, size := g.size
       op := op i, pc := x.cur.pc, group := id, leave := x.myCluster.cyc } : Req)
  x.modMe fun q => { q with nextId := id + n, reqs := q.reqs ++ rs }

def Slice.named (g : Slice) : List (Opd × Nat) := [(.k g.d, 1), (.k g.a, 2), (.k g.b, 1), (.k g.c, 1)]
/-- A gather or scatter issues. What it reads of the stash as it issues (R181) has its threads' earlier stores there: it stays in issue until they
are performed (R122). -/
def sliceWord (s : State) (g : Slice) (f : State → List Nat → State) : State :=
  let sh : Shape := { h := g.h, named := g.named, once := true }
  let ts := (s.goers sh).filter fun t => s.me.guarded g.h.g t
  let n := g.count s.me
  let reads (o bytes : Nat) : Bool := s.me.openIn ts (s.me.getK o).data.toNat bytes
  if (decodeCause s sh).isNone && (reads g.b (4 * n) || (!g.fills && reads g.d (4 * n))) then s
  else issue s sh (perRun fun x ts =>
    match g.cause x (ts.headD 0) with
    | some (cause, addr) => .hit cause addr x
    | none => .ok (f x ts))

/-- GATH (R181): the granules of its destination become empty. -/
def execGath (h : Hdr) (esz : BitVec 2) (d a b c : Nat) (s : State) : Host.Outcome State Fault Refusal :=
  let size := 2 ^ (esz.toNat + 1)
  let g : Slice := { h := h, d := d, a := a, b := b, c := c, size := size
                     need := { rights := 8, kinds := [0, 2, 3, 5], size := size }, dAlign := 16, fills := true }
  .next (sliceWord s g fun x ts =>
    let dest := g.dest x.me
    let n := size * g.count x.me
    let y := g.send x ts fun i => .gath (dest + size * i) i false
    ((y.modMyCluster fun q => (List.range ((n + 15) / 16)).foldl (fun z i =>
      z.setFull (x.myWg.granule (dest + 16 * i)) false) q)).count x.cur.cl .gathers 1)

/-- SCAT (R182): the values are read at issue. -/
def scatter (s : State) (h : Hdr) (d a b c fn : Nat) : State :=
  let g : Slice := { h := h, d := d, a := a, b := b, c := c, size := 4
                     need := { rights := 6, kinds := [0, 3], size := 4 }, dAlign := 4 }
  sliceWord s g fun x ts =>
    (g.send x ts fun i => .scat fn (BitVec.ofNat 32 (x.stashNat x.cur.cl x.myWg (g.dest x.me + 4 * i) 4)) i).count x.cur.cl
      .scatters 1
/-- SCAT.add.f32 (R182). -/
def execScatAddF32 (h : Hdr) (d a b c : Nat) (s : State) : Host.Outcome State Fault Refusal := .next (scatter s h d a b c 0)
/-- SCAT.add.i32 (R182). -/
def execScatAddI32 (h : Hdr) (d a b c : Nat) (s : State) : Host.Outcome State Fault Refusal := .next (scatter s h d a b c 1)
/-- SCAT.min (R182). -/
def execScatMin (h : Hdr) (d a b c : Nat) (s : State) : Host.Outcome State Fault Refusal := .next (scatter s h d a b c 2)
/-- SCAT.max (R182). -/
def execScatMax (h : Hdr) (d a b c : Nat) (s : State) : Host.Outcome State Fault Refusal := .next (scatter s h d a b c 3)
/-- SCAT.or (R182). -/
def execScatOr (h : Hdr) (d a b c : Nat) (s : State) : Host.Outcome State Fault Refusal := .next (scatter s h d a b c 4)

/-! ### Elements -/

/-- Other elements of the same gather that share the granule. -/
def Warp.granuleMates (w : Warp) (r : Req) (dest : Nat) : List Req :=
  w.reqs.filter fun q => q.id != r.id && q.group == r.group && (match q.op with
    | .gath dest' _ _ => dest' / 16 == dest / 16
    | _ => false)
/-- The granule of a failed element stays empty (R181). -/
def Warp.muteMates (w : Warp) (r : Req) (dest : Nat) : Warp :=
  let ids := (w.granuleMates r dest).map fun q => q.id
  { w with reqs := w.reqs.map fun q => if ids.contains q.id then
      (match q.op with
        | .gath t e _ => { q with op := .gath t e true }
        | _ => q) else q }

/-- GATH_ELEMENT_REPLY (R181): an element, read weakly at its home slice, lands in the stash. In a mapped line it is written as a store
is: it fills the line, and its words become owned, though R175 names GATH neither for the fill nor for the ownership
(DESIGN CHOICE, log 74). -/
def execGathElementReply (cl slot id elem : Nat) (s : State) : Host.Outcome State Fault Refusal :=
  let w := s.warp cl slot
  .next (match w.reqOf id with
    | none => s
    | some r =>
      match r.op with
      | .gath dest e mute =>
        if e ≠ elem ∨ w.blocked r.id r.threads r.obj r.off r.size false ∨ s.recordOpen r.recAt then s
        else
          let ctx := (s.wg cl w.entry).ctx
          let failed (cause : Byte) : State :=
            ((s.modWarp cl slot fun y => (y.muteMates r dest).setReq { r with op := .failed cause }).count cl .elementCauses 1).stir
              cl slot
          let read : Got (Nat × State) := if r.lost then .fails Cause.fabric
            else s.weakSlice cl { w with under := r.old } ctx r.obj r.off r.size
          match read with
          | .waits _ => s
          | .fails cause => failed cause
          | .ok z (a, seen) =>
            match z.stashWrite cl w dest r.size (seen.homeNat ctx r.obj r.off r.size a) (some (w.writer r.t)) with
            | .waits _ => s
            | .fails cause => failed cause
            | .ok x _ =>
              let full := !mute && (w.granuleMates r dest).isEmpty
              (((x.modWarp cl slot fun y => y.dropReq id).modCluster cl fun y =>
                if full then y.setFull ((s.wg cl w.entry).granule dest) true else y).count cl .elementsMoved 1).stir cl slot
      | _ => s)

/-- A word gives up its owner's copy: its value goes to memory (R169). -/
def State.recall (s : State) (ctx obj i a : Nat) : State :=
  match s.ownerValue ctx obj i with
  | none => s
  | some v => (s.dropOwners Config.clusters ctx obj i).putWord ctx obj i a v

/-- SCAT_UPDATE_AT_SLICE (R183): the update collects at the home slice, until any other access merges it. -/
def execScatUpdateAtSlice (cl slot id elem : Nat) (s : State) : Host.Outcome State Fault Refusal :=
  let w := s.warp cl slot
  .next (match w.reqOf id with
    | none => s
    | some r =>
      match r.op with
      | .scat fn y e =>
        let others : Warp := { w with reqs := w.reqs.filter fun q => q.group != r.group }
        if e ≠ elem ∨ others.blocked r.id r.threads r.obj r.off r.size false ∨ s.recordOpen r.recAt then s
        else
          let ctx := (s.wg cl w.entry).ctx
          match (if r.lost then .fails Cause.fabric
            else (s.telling ctx r.obj r.off 4).slice cl { w with under := r.old, wants := r.right } ctx r.obj r.off 4 true) with
          | .waits _ => s
          | .fails cause =>
            ((s.modWarp cl slot fun z => z.setReq { r with op := .failed cause }).count cl .elementCauses 1).stir cl slot
          | .ok s0 a =>
            let i := r.off / 4
            let x := (s0.recall ctx r.obj i a).forget cl ctx r.obj r.off 4
            let ups := x.ups ctx r.obj i ++ [(fn, y)]
            let z := x.dropUps ctx r.obj i
            let z1 : State := { z with scats := z.scats ++ [{ ctx := ctx, obj := r.obj, word := i, ups := ups }] }
            ((z1.modWarp cl slot fun q => q.dropReq id).count cl .elementsMoved 1).stir cl slot
      | _ => s)

end Sys2Proof.Machine
end

