-- ==== Sys2Proof/Machine/Shadow.lean ====
section
/-! DEFINITION. Shadow destinations (R207, R208, R311) and the words that count completions (R191, R314). -/

namespace Sys2Proof.Machine

/-! ### Fresh pages -/

/-- Pages of an object. -/
def Desc.pages (d : Desc) : Nat := (d.len + pageSize d.pg - 1) / pageSize d.pg
/-- The unit in which pages are allocated. -/
def frameSize : Nat := 2 ^ 21
/-- Frames for a list of extent entries, and for the pages. -/
def Desc.listFrames (d : Desc) : Nat := (8 * d.pages + frameSize - 1) / frameSize
def Desc.pageFrames (d : Desc) : Nat := (d.pages * pageSize d.pg + frameSize - 1) / frameSize

/-- Pages of the object in a frame. -/
def Desc.perFrame (d : Desc) : Nat := frameSize / pageSize d.pg
/-- The space of frames, HBM or the tier: where it ends, and how many are taken from its end on. -/
def State.frameTop (s : State) (tier : Bool) : Nat := if tier then Config.tierBytes else s.mscBase 0
def State.framesTaken (s : State) (tier : Bool) : Nat := if tier then s.freshTier else s.fresh
/-- New frames, the highest that none has taken, in falling order (log 16); none where memory has no more. -/
def State.newFrames (s : State) (tier : Bool) (n : Nat) : Option (List Nat × State) :=
  let u := s.framesTaken tier
  if frameSize * (u + n) > s.frameTop tier then none
  else some ((List.range n).map fun i => spaceAddr tier.toNat (s.frameTop tier - frameSize * (u + i + 1)),
    if tier then { s with freshTier := u + n } else { s with fresh := u + n })
/-- Frames: those given back before new ones. -/
def State.takeFrames (s : State) (tier : Bool) (n : Nat) : Option (List Nat × State) :=
  let back := (s.freeFrames.filter fun a => a / 2 ^ 64 == tier.toNat).take n
  (({ s with freeFrames := s.freeFrames.filter fun a => !back.contains a } : State).newFrames tier (n - back.length)).map fun p =>
    (back ++ p.1, p.2)
/-- The frames of an extent list, which lie together. -/
def State.listFrames (s : State) (d : Desc) : Option (List Nat × State) :=
  if d.listFrames = 1 then s.takeFrames false 1 else s.newFrames false d.listFrames
/-- The entry of page `j` (R162): in its frame, or, for a HOME that is the host or a peer, at a place that the manual leaves
open (log 16). -/
def Desc.entry (d : Desc) (frames : List Nat) (j f : Nat) : Dword :=
  let p := pageSize d.pg
  if d.home < 2 then
    let a := frames.getD (j / d.perFrame) 0 + p * (j % d.perFrame)
    BitVec.ofNat 64 (2 ^ 63 + a / 2 ^ 64 * 2 ^ 61 + a % 2 ^ 64)
  else BitVec.ofNat 64 (2 ^ 63 + d.home * 2 ^ 61 + d.peer * 2 ^ 53 + f % 2 ^ 52 / p * p)

/-- Fresh pages for an object, at its HOME, and their list (R161, R207): the list's place, and the state; none where memory has
no more (log 16). -/
def State.allocPages (s : State) (d : Desc) : Option (Nat × State) :=
  match s.listFrames d with
  | none => none
  | some (lf, x) =>
    match (if d.home < 2 then x.takeFrames (d.home == 1) d.pageFrames else some ([], x)) with
    | none => none
    | some (pf, y) =>
      let base := lf.getLastD 0
      let z : State := { y with blocks := Tab.put y.blocks base (lf ++ pf) }
      some (base, (List.range d.pages).foldl (fun q j =>
        let f := q.free
        (if d.home < 2 then q else f.2).setPd (base + 8 * j) 0 (d.entry pf j f.1.toNat)) z)

/-- The frames of a list that the hardware allocated are given back, zeroed (R208, R258, R327). -/
def State.freeBlock (s : State) (list : Nat) : State :=
  match look s.blocks list with
  | none => s
  | some fs =>
    let x := fs.foldl (fun q a => q.zeroAt a frameSize) s
    { x with blocks := Tab.del x.blocks list, freeFrames := x.freeFrames ++ fs }
/-- The pages of a list that lie in the module's memory are zeroed. -/
def State.zeroPages (s : State) (d : Desc) (list : Nat) : State :=
  (List.range d.pages).foldl (fun x j =>
    match s.extent (s.pd (list + 8 * j) 0) 0 d.pg with
    | .found a => if a < 2 ^ 65 then x.zeroAt a (pageSize d.pg) else x
    | _ => x) s
/-- An object's number among the owners of frames (R327; log 78). -/
def frameOwner (ctx obj : Nat) : Nat := ctx * 2 ^ 24 + obj
/-- A page of the module's memory is, from now on, one that the object was the last to map. -/
def State.keepFrames (s : State) (ctx obj a n : Nat) : State :=
  if a ≥ 2 ^ 65 then s
  else { s with frames := (List.range (n / 2 ^ 16)).foldl (fun t i => Tab.put t (a / 2 ^ 16 + i) (frameOwner ctx obj)) s.frames }
/-- A page that an object maps: what of it the object was not the last to map is zeroed (R327). -/
def State.mapFrames (s : State) (ctx obj a n : Nat) : State :=
  if a ≥ 2 ^ 65 then s
  else
    let x := (List.range (n / 2 ^ 16)).foldl (fun (y : State) i =>
      if look y.frames (a / 2 ^ 16 + i) = some (frameOwner ctx obj) then y else y.zeroAt ((a / 2 ^ 16 + i) * 2 ^ 16) (2 ^ 16)) s
    x.keepFrames ctx obj a n
/-- The places in the module's memory of the pages of a list that are present. -/
def State.pagesAt (s : State) (d : Desc) (list : Nat) : List Nat :=
  (List.range d.pages).filterMap fun j => match s.extent (setField (s.pd (list + 8 * j) 0) 59 2 0) 0 d.pg with
    | .found a => if a < 2 ^ 65 then some a else none
    | _ => none
/-- The pages that an object has are its own from now on; and those that it takes are zeroed where they were not. -/
def State.keepPages (s : State) (ctx obj : Nat) (d : Desc) : State :=
  (s.pagesAt d d.xlist).foldl (fun x a => x.keepFrames ctx obj a (pageSize d.pg)) s
def State.mapPages (s : State) (ctx obj : Nat) (d : Desc) : State :=
  (s.pagesAt d d.xlist).foldl (fun x a => x.mapFrames ctx obj a (pageSize d.pg)) s
/-- No page is the object's any longer. -/
def State.dropFrames (s : State) (ctx obj : Nat) : State := { s with frames := s.frames.filter fun e => e.2 != frameOwner ctx obj }
/-- The extents of an object are freed (R208, R258), unless they are already. -/
def State.freeExtents (s : State) (ctx obj : Nat) : State :=
  let d := s.desc ctx obj
  if s.bare.contains (ctx, obj) then s else (s.zeroPages d d.xlist).freeBlock d.xlist

/-- Where byte `off` lies in a pending shadow. -/
def State.shadowPlace (s : State) (ctx obj off : Nat) : Place :=
  let d := s.desc ctx obj
  s.translateBy d d.shadow off

/-! ### Creating, publishing, discarding -/

/-- The shadow pending for an object. -/
def State.shadowOf (s : State) (ctx obj : Nat) : Option Shadow := s.shadows.find? fun x => x.ctx == ctx && x.obj == obj
def State.dropShadow (s : State) (ctx obj : Nat) : State :=
  { s with shadows := s.shadows.filter fun x => !(x.ctx == ctx && x.obj == obj) }

/-- Pages of an object that a range does not cover wholly (R311). -/
def Desc.partPages (d : Desc) (off len : Nat) : List Nat :=
  let p := pageSize d.pg
  (List.range d.pages).filter fun j => !decide (off ≤ p * j ∧ min (p * (j + 1)) d.len ≤ off + len)
/-- The worst of several places: a cause met, then a cause waited for. -/
def worstPlace (l : List Place) : Place :=
  match l.find? fun p => match p with
    | .fails _ => true
    | _ => false with
  | some p => p
  | none =>
    match l.find? fun p => match p with
      | .waits _ => true
      | _ => false with
    | some p => p
    | none => .found 0

/-- The place that hardware outside the clusters reads, for the warp `w` or for none: translated, not poisoned, and of no layer
that is swapped (R243). It waits for a cluster in a handshake that owns a word of it (R321). -/
def State.hwPlace (s : State) (w : Warp) (ctx obj off n : Nat) : Place :=
  if s.snoopWaits Config.clusters ctx obj off n then .waits Cause.migration else s.place { w with under := none } ctx obj off n
/-- The place that it writes of a pending shadow. -/
def State.shadowHw (s : State) (ctx obj off n : Nat) : Place :=
  match s.shadowPlace ctx obj off with
  | .found a => if s.poisoned a n then .fails Cause.poison else .found a
  | p => p

/-- Copy a page of the object into its shadow through XLIST. -/
def State.copyPage (s : State) (ctx obj j : Nat) : State :=
  let d := s.desc ctx obj
  let p := pageSize d.pg
  match s.translate ctx obj (p * j), s.shadowPlace ctx obj (p * j) with
  | .found a, .found b =>
    (s.telling ctx obj (p * j) (min p (d.len - p * j))).putPhysBytes b ((List.range ((min p (d.len - p * j) + 3) / 4)).flatMap fun i =>
      leBytes 4 (s.homeWord ctx obj (p * j / 4 + i) (a + 4 * i)).toNat)
  | _, _ => s

/-- A shadow comes to be or the command has to wait or fail. -/
inductive Made where
  | ok (s : State)
  | waits
  | fails (cause : Byte) (addr : Dword)

/-- Create the shadow for a write of bytes `off` to `off + len` (R207, R311). The pages that are copied into it are reached first, the
object's and the shadow's: one that has to wait delays the command, and a cause met there makes it fail (R312). -/
def State.createShadow (s : State) (ctx obj off len : Nat) (deferred : Bool) (seq : Dword) : Made :=
  let d := s.desc ctx obj
  let part := d.partPages off len
  let p := pageSize d.pg
  match worstPlace (part.map fun j => s.hwPlace {} ctx obj (p * j) (min p (d.len - p * j))) with
  | .fails cause => .fails cause (objAddr obj off)
  | .waits _ => .waits
  | .found _ =>
    match s.allocPages d with
    | none => .waits
    | some (list, x) =>
      let a := x.descAt ctx obj
      let y := x.setPd a 2 (BitVec.ofNat 64 list)
      match worstPlace (part.map fun j => y.shadowHw ctx obj (p * j) (min p (d.len - p * j))) with
      | .fails cause => .fails cause (objAddr obj off)
      | .waits _ => .waits
      | .found _ =>
        let z := part.foldl (fun q j => q.copyPage ctx obj j) y
        .ok { z with
          shadows := z.shadows ++ [{ ctx := ctx, obj := obj, list := list, deferred := deferred, filled := false
                                     seqObj := capObj seq, seqOff := capOff seq }] }

/-- A page of the object, by its current or its shadow extents, is migrating (R166, R208). -/
def State.listMoving (s : State) (d : Desc) (list : Nat) : Bool :=
  (List.range d.pages).any fun j => let e := s.pd (list + 8 * j) 0; field e 59 2 == 1 || field e 59 2 == 3
def State.moving (s : State) (ctx obj : Nat) : Bool :=
  let d := s.desc ctx obj
  (!s.bare.contains (ctx, obj) && s.listMoving d d.xlist) || s.listMoving d d.shadow

/-- Nothing above memory holds data of the object any more (R208). -/
def Cluster.purge (x : Cluster) (ctx obj : Nat) : Cluster :=
  { x.dropWords fun k _ => keyCtx k == ctx && keyObj k == obj with
    mapped := x.mapped.filter fun e => match x.globalOf e.1 with
      | some (c, o, _) => !(c == ctx && o == obj)
      | none => true }
def State.purge (s : State) (ctx obj : Nat) : State :=
  { s.l2Drop fun k _ => keyCtx k == ctx && keyObj k == obj with
    clusters := s.clusters.map fun e => (e.1, e.2.purge ctx obj)
    l2Dirty := s.l2Dirty.filter fun e => !(keyCtx e.1 == ctx && keyObj e.1 == obj)
    scats := s.scats.filter fun p => !(p.ctx == ctx && p.obj == obj) }
/-- An LDH that waits for a full granule is no access under way (R178), where its warp has issued no access after it: its thread turns
to the new data before it does. -/
def Cluster.held (x : Cluster) (w : Warp) (g : Wg) (r : Req) : Bool := match r.op with
  | .ldh _ _ q => q != 0 && !x.full.contains (g.stashAt r.off / 16) &&
    decide (w.nextId = r.id + 1 + (w.reqs.filter fun p => p.group == r.group && decide (r.id < p.id)).length)
  | _ => false
/-- An access to the object has issued and is not performed, directly or through a mapped line of it (R175). -/
def State.openOn (s : State) (ctx obj : Nat) : Bool :=
  s.clusters.any fun e => (e.2.warps ++ e.2.tracker).any fun w =>
    let g := e.2.wg w.2.entry
    g.ctx == ctx && ((w.2.loads.any fun l => l.open_ && (g.standsFor l.obj l.off).1 == obj) ||
      w.2.reqs.any fun r => r.open_ && !e.2.held w.2 g r && (g.standsFor r.obj r.off).1 == obj)

/-- Publish (R208), once no page of it migrates, and no access to it that has issued is left to perform, so that each thread has
one point at which it turns to the new data (log 17): XLIST ← SHADOW, SHADOW ← 0, GEN + 1. The old extents are freed and
zeroed. -/
def State.publish (s : State) (ctx obj : Nat) : Option State :=
  if s.moving ctx obj || s.openOn ctx obj then none
  else
    let q := s.freeExtents ctx obj
    let a := q.descAt ctx obj
    let d1 := q.pd a 1
    let d2 := q.pd a 2
    let d3 := q.pd a 3
    let y := q.setPd a 1 (BitVec.ofNat 64 (field d1 52 12 * 2 ^ 52 + field d2 0 52))
    let z := y.setPd a 2 (BitVec.ofNat 64 (field d2 52 12 * 2 ^ 52))
    let v := ((z.setPd a 3 (dword (loWord d3 + 1) (hiWord d3))).purge ctx obj).dropShadow ctx obj
    some { v with bare := v.bare.filter fun p => p != (ctx, obj) }

/-- Discard a pending shadow (R312). -/
def State.discardShadow (s : State) (ctx obj : Nat) : State :=
  let a := s.descAt ctx obj
  ((s.freeBlock (s.desc ctx obj).shadow).setPd a 2 (BitVec.ofNat 64 (field (s.pd a 2) 52 12 * 2 ^ 52))).dropShadow ctx obj

/-! ### Counting words -/

/-- Add `n` to the word at an object's byte `off`, as one strong write (R191, R208, R314). -/
def State.countUp (s : State) (ctx obj off n : Nat) : Option State :=
  match s.objRead ctx obj off 4 with
  | some v => s.objWrite ctx obj off 4 ((v + n) % 2 ^ 32)
  | none => none
/-- A count has reached a target (R192). -/
def reached (c n : Word) : Bool := (c - n).toNat < 2 ^ 31

end Sys2Proof.Machine
end

