-- ==== Sys2Proof/Machine/Sync.lean ====
section
/-! DEFINITION. Synchronisation: WAITW (R87, R88), AT and RED (R201 to R204), BIND (R193 to R195), REL and ACQ (R196 to
R198), FENCE (R199), and PUBL (R209). -/

namespace Sys2Proof.Machine

/-- A register lane that a word writes after its issue; a tie that the write ends counts as a guess discarded (R124). -/
def State.lateWrite (s : State) (c k t : Nat) (d : Dst) (v : Word) (tag : BitVec 2) (plate : Bool) : State :=
  let w := s.warp c k
  (s.setWarp c k (w.write t d v tag plate)).count c .guessesDiscarded (w.tie t d).isSome.toNat
/-- A word that will write a register lane ends its tie as it issues (R109, R124). -/
def State.untied (s : State) (t : Nat) (d : Dst) : State :=
  (s.setMe (s.me.untieDst t d)).count s.cur.cl .guessesDiscarded (s.me.tie t d).isSome.toNat
/-- CM of threads, and CPM ← TT in each. -/
def State.lateCm (s : State) (c k : Nat) (ts : List Nat) (b : Bool) : State :=
  s.modWarp c k fun w => ts.foldl (fun x t => x.write t .cm (if b then 1 else 0) 0 (x.thread t).tt) w
/-- A wait's time has passed: TMO codes 1 to 14 give 2^(TMO+2) ticks. -/
def Wait.passed (x : Wait) (tmo now : Nat) : Bool := tmo != 0 && decide (x.t0 + 2 ^ (tmo + 2) ≤ now)
/-- A strong access of threads has its turn: their earlier strong ones and those to its bytes are performed (R122, R190). -/
def State.strongTurn (s : State) (c k id : Nat) (ts : List Nat) (obj off : Nat) : Bool := !(s.warp c k).blocked id ts obj off 4 true

/-- A word whose access leaves the cluster as it issues waits in issue for the end of a handshake (R321). -/
def afterShake (s : State) (x : Shape) (f : State → State) : State :=
  if (decodeCause s x).isNone && s.myCluster.crossing then s else f s
/-- A strong access that a word makes as it issues waits in issue for its threads' earlier strong accesses (R190), and for the end of
a handshake (R321). -/
def afterStrong (s : State) (x : Shape) (f : State → State) : State :=
  if (decodeCause s x).isSome then f s
  else if s.myCluster.crossing || !s.strongTurn s.cur.cl s.cur.slot s.me.nextId ((s.goers x).filter fun t => s.me.guarded x.h.g t) 0 0 then s
  else f s

/-! ### WAITW -/

def condHolds (c : WCond) (x n : Word) : Bool :=
  match c with
  | .eq => x == n
  | .ne => x != n
  | .ge => n.sle x
  | .lt => x.slt n

/-- What a read of a wait comes to. -/
inductive Look where
  | value (s : State) (v : Word)
  | waits (s : State)
  | fails (cause : Byte) (addr : Dword) (s : State)

/-- The warp as the accesses of a wait see it: under the descriptor that the wait was checked against (R164). -/
def Warp.underWait (w : Warp) (id : Nat) : Warp := { w with under := (w.waits.find? fun x => x.id == id).bind fun x => x.old }
/-- A wait's strong read of a word, once it has its turn. -/
def State.waitRead (s : State) (c k id obj off : Nat) (sc : Scope) : Got Nat :=
  let w := (s.warp c k).underWait id
  (if nearScope sc then s.demand c w obj off 4 else s).strongRead c w obj off 4 sc
/-- A wait's strong read of its word. -/
def State.look4 (s : State) (c k id : Nat) (ts : List Nat) (obj off : Nat) (sc : Scope) : Look :=
  if s.strongTurn c k id ts obj off then
    match s.waitRead c k id obj off sc with
    | .ok x v => .value x (BitVec.ofNat 32 v)
    | .waits _ => .waits s
    | .fails cause => .fails cause (objAddr obj off) s
  else .waits s

/-- The result of a WAITW: D ← x, CM. -/
def State.waited (s : State) (c k : Nat) (ts : List Nat) (d : Dst) (v : Word) (b : Bool) : State :=
  (s.lateWrite c k (ts.headD 0) d v 0 ((s.warp c k).anyTaint ts)).lateCm c k ts b

/-- One lane of WAITW: it reads at once, and parks where the condition does not hold, from its lane cycle on. Its write to D ends a
tie at its issue (R109). -/
def waitwLane (cond : WCond) (m : MemOpd) (d cmp : Opd) (tmo : Nat) (sc : Scope) (once : Bool) (x : State) (t : Nat) (ts : List Nat) :
    LaneOut :=
  let w := x.me
  let ord := checkSrcs w t (m.srcs ++ [srcC cmp])
  match ord.or (checkPlates w t m.srcs) with
  | some (cause, addr) => .hit cause addr x
  | none =>
    if (srcC cmp).plated w t then .hit Cause.plateControl 0 x
    else match x.checkAccess x.myWg (m.cap w t) (m.addr w t) { rights := 8, kinds := [0, 2, 3, 5, 6], size := 4 } with
      | some (cause, addr) => .hit cause addr x
      | none =>
        let obj := capObj (m.cap w t)
        let off := m.addr w t
        let c := w.val t cmp
        let why : WaitFor := .waitw cond sc tmo obj off c (w.dst d)
        match x.look4 x.cur.cl x.cur.slot w.nextId ts obj off sc with
        | .fails cause addr y => .hit cause addr y
        | .waits y => .ok ((y.untied t (w.dst d)).await ts why once)
        | .value y v =>
          .ok (if condHolds cond v c then y.waited x.cur.cl x.cur.slot ts (w.dst d) v true
            else (y.untied t (w.dst d)).await ts why once)
/-- WAITW (R87). -/
def execWaitw (h : Hdr) (cond : WCond) (d a b c : Opd) (tmo : BitVec 4) (scl : BitVec 2) (sc : Scope) (s : State) :
    Host.Outcome State Fault Refusal :=
  let m : MemOpd := ⟨a, b, scl⟩
  let once := uniform [d, a, b, c]
  .next (issue s { h := h, named := (d, 1) :: m.named ++ [(c, 1)], cm := true, once := once } fun x act =>
    lanes once (waitwLane cond m d c tmo.toNat sc once) x act)

/-- A parked WAITW reads again; `last` when its time has passed. -/
def State.waitwRead (s : State) (c k : Nat) (x : Wait) (last : Bool) : State :=
  match x.why with
  | .waitw cond sc tmo obj off n d =>
    if last && !x.passed tmo s.tick then s
    else match s.look4 c k x.id x.threads obj off sc with
      | .waits _ => s
      | .fails cause addr y => y.failWait c k x cause addr
      | .value y v =>
        if condHolds cond v n then (y.waited c k x.threads d v true).endWait c k x
        else if last then (y.waited c k x.threads d v false).endWait c k x
        else y
  | _ => s
/-- WAITW_WAKE (R87). -/
def execWaitwWake (cl slot id : Nat) (s : State) : Host.Outcome State Fault Refusal :=
  .next (match (s.warp cl slot).waitOf id with
    | some x => s.waitwRead cl slot x false
    | none => s)
/-- WAITW_TIMEOUT (R87). -/
def execWaitwTimeout (cl slot id : Nat) (s : State) : Host.Outcome State Fault Refusal :=
  .next (match (s.warp cl slot).waitOf id with
    | some x => s.waitwRead cl slot x true
    | none => s)

/-! ### AT and RED -/

/-- An atomic. -/
structure AtomWord where
  h : Hdr
  m : MemOpd
  fn : Nat
  ty : Nat
  sc : Scope
  d : Option Opd
  c : Opd

/-- Registers of one operand, and of C. -/
def AtomWord.unit (a : AtomWord) : Nat := if a.ty = 3 then 2 else 1
def AtomWord.cWidth (a : AtomWord) : Nat := a.unit * (if a.fn = 7 then 2 else 1)
def AtomWord.src (a : AtomWord) : Src := srcC a.c (.tagged (if a.ty = 2 then 1 else 0)) a.cWidth
/-- The operand with number `i`: 0 the operand or the expected value, 1 the new value of `.cas`. -/
def AtomWord.value (a : AtomWord) (w : Warp) (t i : Nat) : Dword :=
  if a.ty = 3 then dword (w.readAt t a.c (2 * i)).data (w.readAt t a.c (2 * i + 1)).data
  else (w.readAt t a.c i).data.setWidth 64

/-- The word is uniform (R25). -/
def AtomWord.once (a : AtomWord) : Bool := uniform (a.d.toList ++ [a.m.a, a.m.b, a.c])
/-- One lane of an atomic (R203, R204). R204 gives RED the effect of AT, whose kinds name the stash, and R163 leaves RED out of those that
reach it: a RED to the stash raises RIGHTS (DESIGN CHOICE, log 100). -/
def AtomWord.lane (a : AtomWord) (group : Nat) (x : State) (t : Nat) (ts : List Nat) : LaneOut :=
  let w := x.me
  let size := 4 * a.unit
  match memCause x t a.m [a.src] { rights := 2, kinds := if a.d.isSome then [0, 3, 5, 8] else [0, 3, 5], size := size } with
  | some (cause, addr) => .hit cause addr x
  | none =>
    if a.src.plated w t || w.anyTaint ts then .hit Cause.plateEscape 3 x
    else
      let p := x.freshId
      let dst := a.d.map fun o => w.dst o
      let r : Req :=
        { id := p.1, t := t, threads := ts, obj := capObj (a.m.cap w t), off := a.m.addr w t, size := size, strong := some a.sc
          op := .atom a.fn a.ty (a.value w t 0) (if a.fn = 7 then a.value w t 1 else 0) dst
          pc := x.cur.pc, marked := a.h.sw && x.cur.last, group := group }
      match dst with
      | none => .ok (p.2.send r a.once)
      | some e =>
        let y := p.2.pendWide t e a.unit
        let z := if a.fn = 7 then ts.foldl (fun q u => q.pend u .cm) y else y
        .ok (z.send r a.once)
/-- An atomic issues. -/
def atomWord (s : State) (a : AtomWord) : State :=
  issue s { h := a.h, once := a.once, cm := a.fn == 7
            named := (a.d.map fun o => (o, a.unit)).toList ++ a.m.named ++ [(a.c, a.cWidth)] } fun x act =>
    lanes a.once (a.lane x.me.nextId) x act
def at_ (s : State) (h : Hdr) (sc : Scope) (scl ty : BitVec 2) (d a b c : Opd) (fn : Nat) : Host.Outcome State Fault Refusal :=
  .next (atomWord s { h := h, m := ⟨a, b, scl⟩, fn := fn, ty := ty.toNat, sc := sc, d := some d, c := c })
def red (s : State) (h : Hdr) (sc : Scope) (scl ty : BitVec 2) (a b c : Opd) (fn : Nat) : Host.Outcome State Fault Refusal :=
  .next (atomWord s { h := h, m := ⟨a, b, scl⟩, fn := fn, ty := ty.toNat, sc := sc, d := none, c := c })
/-- AT.add (R202, R203). -/
def execAtAdd (h : Hdr) (sc : Scope) (scl ty : BitVec 2) (d a b c : Opd) (s : State) : Host.Outcome State Fault Refusal :=
  at_ s h sc scl ty d a b c 0
/-- AT.min (R202, R203). -/
def execAtMin (h : Hdr) (sc : Scope) (scl ty : BitVec 2) (d a b c : Opd) (s : State) : Host.Outcome State Fault Refusal :=
  at_ s h sc scl ty d a b c 1
/-- AT.max (R202, R203). -/
def execAtMax (h : Hdr) (sc : Scope) (scl ty : BitVec 2) (d a b c : Opd) (s : State) : Host.Outcome State Fault Refusal :=
  at_ s h sc scl ty d a b c 2
/-- AT.and (R202, R203). -/
def execAtAnd (h : Hdr) (sc : Scope) (scl ty : BitVec 2) (d a b c : Opd) (s : State) : Host.Outcome State Fault Refusal :=
  at_ s h sc scl ty d a b c 3
/-- AT.or (R202, R203). -/
def execAtOr (h : Hdr) (sc : Scope) (scl ty : BitVec 2) (d a b c : Opd) (s : State) : Host.Outcome State Fault Refusal :=
  at_ s h sc scl ty d a b c 4
/-- AT.xor (R202, R203). -/
def execAtXor (h : Hdr) (sc : Scope) (scl ty : BitVec 2) (d a b c : Opd) (s : State) : Host.Outcome State Fault Refusal :=
  at_ s h sc scl ty d a b c 5
/-- AT.exch (R202, R203). -/
def execAtExch (h : Hdr) (sc : Scope) (scl ty : BitVec 2) (d a b c : Opd) (s : State) : Host.Outcome State Fault Refusal :=
  at_ s h sc scl ty d a b c 6
/-- AT.cas (R202, R203). -/
def execAtCas (h : Hdr) (sc : Scope) (scl ty : BitVec 2) (d a b c : Opd) (s : State) : Host.Outcome State Fault Refusal :=
  at_ s h sc scl ty d a b c 7
/-- RED.add (R202, R204). -/
def execRedAdd (h : Hdr) (sc : Scope) (scl ty : BitVec 2) (a b c : Opd) (s : State) : Host.Outcome State Fault Refusal :=
  red s h sc scl ty a b c 0
/-- RED.min (R202, R204). -/
def execRedMin (h : Hdr) (sc : Scope) (scl ty : BitVec 2) (a b c : Opd) (s : State) : Host.Outcome State Fault Refusal :=
  red s h sc scl ty a b c 1
/-- RED.max (R202, R204). -/
def execRedMax (h : Hdr) (sc : Scope) (scl ty : BitVec 2) (a b c : Opd) (s : State) : Host.Outcome State Fault Refusal :=
  red s h sc scl ty a b c 2
/-- RED.and (R202, R204). -/
def execRedAnd (h : Hdr) (sc : Scope) (scl ty : BitVec 2) (a b c : Opd) (s : State) : Host.Outcome State Fault Refusal :=
  red s h sc scl ty a b c 3
/-- RED.or (R202, R204). -/
def execRedOr (h : Hdr) (sc : Scope) (scl ty : BitVec 2) (a b c : Opd) (s : State) : Host.Outcome State Fault Refusal :=
  red s h sc scl ty a b c 4
/-- RED.xor (R202, R204). -/
def execRedXor (h : Hdr) (sc : Scope) (scl ty : BitVec 2) (a b c : Opd) (s : State) : Host.Outcome State Fault Refusal :=
  red s h sc scl ty a b c 5

/-! ### BIND -/

/-- The address of a binding-table entry (R195). -/
def State.bindAt (s : State) (ctx i : Nat) : Nat := (s.ctx ctx).binds + 32 * i
def State.bindValid (s : State) (ctx i : Nat) : Bool := (s.pd (s.bindAt ctx i) 0).getLsbD 63
/-- A valid entry's region meets the range. -/
def State.bindMeets (s : State) (ctx obj off len i : Nat) : Bool :=
  let a := s.bindAt ctx i
  s.bindValid ctx i && field (s.pd a 0) 0 24 == obj &&
    decide (off < field (s.pd a 1) 0 36 + field (s.pd a 2) 0 32 ∧ field (s.pd a 1) 0 36 < off + len)
/-- The step of a BIND at the table (R194): the index, or the reason of its failure. -/
def State.bindStep (s : State) (ctx : Nat) (region obj : Dword) (len : Nat) : Nat ⊕ (Nat × State) :=
  if (List.range 256).any fun i => s.bindMeets ctx (capObj region) (capOff region) len i then .inl 1
  else match (List.range 256).find? fun i => !s.bindValid ctx i with
    | none => .inl 2
    | some i =>
      let a := s.bindAt ctx i
      .inr (i, ((((s.setPd a 1 (BitVec.ofNat 64 (capOff region))).setPd a 2 (BitVec.ofNat 64 len)).setPd a 3
        (BitVec.ofNat 64 (capObj obj * 2 ^ 36 + capOff obj))).setPd a 0 (BitVec.ofNat 64 (2 ^ 63 + capObj region))))

/-- The checks of a synchronisation object's capability (R193). -/
def State.syncCause (s : State) (g : Wg) (cap : Dword) : Option (Byte × Dword) :=
  s.checkRange g cap (capOff cap) { rights := 2, kinds := [0, 5], size := 16 } 16

/-- BIND (R193, R194). -/
def execBind (h : Hdr) (d a b c : Nat) (s : State) : Host.Outcome State Fault Refusal :=
  let sh : Shape := { h := h, named := [(.k d, 1), (.k a, 2), (.k b, 2), (.k c, 1)], cm := true, once := true }
  .next (afterShake s sh fun s0 => issue s0 sh (perRun fun x ts =>
    let w := x.me
    let t := ts.headD 0
    let region := w.kPair a
    let obj := w.kPair b
    let len := (w.getK c).data.toNat
    let l : List Src := [srcA (.k a) .arith 2, srcB (.k b) .arith 2, srcC (.k c)]
    let bad := if len % 256 ≠ 0 ∨ len = 0 then some (Cause.align, objAddr (capObj region) (capOff region)) else none
    let acc := firstCause [x.checkRange x.myWg region (capOff region) { rights := 8, kinds := [0, 3, 5], size := len } 256, bad,
      x.syncCause x.myWg obj]
    match ((checkSrcs w t l).or (checkPlates w t (l.take 2))).or acc with
    | some (cause, addr) => .hit cause addr x
    | none =>
      let p := resultPlate w t ts l
      .ok (match x.bindStep x.myCtx region obj len with
        | .inl r => (x.writeReg t (.k d) (BitVec.ofNat 32 (2 ^ 31 + r)) 0 p).lateCm x.cur.cl x.cur.slot ts false
        | .inr (i, y) => (y.writeReg t (.k d) (BitVec.ofNat 32 i) 0 p).lateCm x.cur.cl x.cur.slot ts true)))
/-- BIND.un (R193, R194). -/
def execBindUn (h : Hdr) (a : Nat) (s : State) : Host.Outcome State Fault Refusal :=
  let sh : Shape := { h := h, named := [(.k a, 1)], cm := true, once := true }
  .next (afterShake s sh fun s0 => issue s0 sh (perRun fun x ts =>
    let w := x.me
    match plainCause w (ts.headD 0) [srcA (.k a)] with
    | some (cause, addr) => .hit cause addr x
    | none =>
      let i := (w.getK a).data.toNat
      let here := decide (i < 256) && x.bindValid x.myCtx i
      let e := x.bindAt x.myCtx i
      let y := if here then (((x.setPd e 0 0).setPd e 1 0).setPd e 2 0).setPd e 3 0 else x
      .ok (y.lateCm x.cur.cl x.cur.slot ts here)))

/-! ### ACQ -/

/-- What an acquire discards: unowned words in regions, or every one (R197, R198). -/
def State.acquire (s : State) (c e obj off : Nat) (sc : Scope) (every : Bool) : State :=
  if nearScope sc then s
  else
    let g := s.wg c e
    s.acquireIn c g (if every then [ctxKeys g.ctx]
      else (s.regions g.ctx obj off).map fun q => (wordKey g.ctx q.1 (q.2.1 / 4), wordKey g.ctx q.1 ((q.2.1 + q.2.2 + 3) / 4 - 1)))

/-- One try of an ACQ; `last` when its time has passed. None where it goes on waiting. -/
def State.acqTry (s : State) (c k id : Nat) (ts : List Nat) (sc : Scope) (obj off : Nat) (n : Word) (last : Bool) :
    Look ⊕ State :=
  match s.look4 c k id ts obj off sc with
  | .waits x => .inl (.waits x)
  | .fails cause addr x => .inl (.fails cause addr x)
  | .value x v =>
    if reached v n then
      match x.waitRead c k id obj (off + 4) sc with
      | .waits _ => .inl (.waits x)
      | .fails cause => .inl (.fails cause (objAddr obj (off + 4)) x)
      | .ok y w => .inr ((y.acquire c (s.warp c k).entry obj off sc (w % 2 == 1)).lateCm c k ts true)
    else if last then .inr (x.lateCm c k ts false)
    else .inl (.waits x)

/-- ACQ (R197). -/
def execAcq (h : Hdr) (tmo : BitVec 4) (sc : Scope) (a b : Nat) (s : State) : Host.Outcome State Fault Refusal :=
  .next (issue s { h := h, named := [(.k a, 2), (.k b, 1)], cm := true, once := true, sync := true } (perRun fun x ts =>
    let w := x.me
    let t := ts.headD 0
    let cap := w.kPair a
    let l : List Src := [srcA (.k a) .arith 2, srcB (.k b)]
    match ((checkSrcs w t l).or (checkPlates w t (l.take 1))).or (x.syncCause x.myWg cap) with
    | some (cause, addr) => .hit cause addr x
    | none =>
      let n := (w.getK b).data
      match x.acqTry x.cur.cl x.cur.slot w.nextId ts sc (capObj cap) (capOff cap) n false with
      | .inr y => .ok y
      | .inl (.fails cause addr y) => .hit cause addr y
      | .inl (.waits y) => .ok (y.await ts (.acq sc tmo.toNat (capObj cap) (capOff cap) n))
      | .inl (.value y _) => .ok y))
/-- A parked ACQ reads again. -/
def State.acqRead (s : State) (c k : Nat) (x : Wait) (last : Bool) : State :=
  match x.why with
  | .acq sc tmo obj off n =>
    if last && !x.passed tmo s.tick then s
    else match s.acqTry c k x.id x.threads sc obj off n last with
      | .inr y => y.endWait c k x
      | .inl (.fails cause addr y) => y.failWait c k x cause addr
      | .inl _ => s
  | _ => s
/-- ACQ_WAKE (R197). -/
def execAcqWake (cl slot id : Nat) (s : State) : Host.Outcome State Fault Refusal :=
  .next (match (s.warp cl slot).waitOf id with
    | some x => s.acqRead cl slot x false
    | none => s)
/-- ACQ_TIMEOUT (R197). -/
def execAcqTimeout (cl slot id : Nat) (s : State) : Host.Outcome State Fault Refusal :=
  .next (match (s.warp cl slot).waitOf id with
    | some x => s.acqRead cl slot x true
    | none => s)

/-! ### REL and FENCE -/

/-- A store of the threads, in the regions, that met a cause and has not told it yet. -/
def Warp.failedStore (w : Warp) (ts : List Nat) (sel : Req → Bool) : Option (Req × Byte) :=
  w.reqs.findSome? fun r => match r.op with
    | .failed cause => if (r.threads.any fun t => ts.contains t) && sel r then some (r, cause) else none
    | _ => none

/-- A tarnish access of the threads is not performed (R252). -/
def Warp.tarnOpen (w : Warp) (ts : List Nat) : Bool :=
  w.reqs.any fun r => (r.threads.any fun t => ts.contains t) && (match r.op with
    | .tarn .. => true
    | _ => false)

/-- Perform, at a scope's point of coherence, the weak writes of some threads before request `id` that `sel` picks:
done, or to wait, or a cause with its address. -/
def State.releaseBy (s : State) (c k id : Nat) (ts : List Nat) (sc : Scope) (sel : Nat → Nat → Bool) : Go :=
  let w := s.warp c k
  let ctx := (s.wg c w.entry).ctx
  let inSel (r : Req) : Bool :=
    let p := (s.wg c w.entry).standsFor r.obj r.off
    decide (r.id < id) && (wordList p.2 r.size).any fun i => sel p.1 i
  match w.failedStore ts inSel with
  | some (r, cause) => .fails cause (objAddr r.obj r.off)
  | none =>
    if w.storesOpen ts inSel then .waits
    else if nearScope sc then .sent s
    else match s.flush c w fun ctx' obj i e => ctx' == ctx && sel obj i && e.byAny (w.writers ts) with
      | (.ok x _, _) => .sent x
      | (.waits _, _) => .waits
      | (.fails cause, addr) => .fails cause addr

/-- A release that met a store's cause takes it: the store is done with. -/
def State.dropFailed (s : State) (c k : Nat) (ts : List Nat) (addr : Dword) : State :=
  s.modWarp c k fun w => { w with reqs := w.reqs.filter fun r => !((match r.op with
    | .failed _ => true
    | _ => false) && (r.threads.any fun t => ts.contains t) && objAddr r.obj r.off == addr) }

/-- REL (R196): the threads park until its steps are done. -/
def execRel (h : Hdr) (sc : Scope) (a : Nat) (s : State) : Host.Outcome State Fault Refusal :=
  .next (issue s { h := h, named := [(.k a, 2)], once := true, sync := true } (perRun fun x ts =>
    let w := x.me
    let cap := w.kPair a
    match (plainCause w (ts.headD 0) [srcA (.k a) .arith 2]).or (x.syncCause x.myWg cap) with
    | some (cause, addr) => .hit cause addr x
    | none => .ok (x.await ts (.rel sc (capObj cap) (capOff cap)))))

/-- The steps of a REL: GLOBAL is read, the writes are performed, COUNT rises by 1. -/
def State.relStep (s : State) (c k : Nat) (x : Wait) (sc : Scope) (obj off : Nat) : State :=
  if !s.strongTurn c k x.id x.threads obj off || (s.warp c k).tarnOpen x.threads then s
  else
    let w := s.warp c k
    match s.waitRead c k x.id obj (off + 4) sc with
    | .waits _ => s
    | .fails cause => s.failWait c k x cause (objAddr obj (off + 4))
    | .ok y g =>
      let rs := y.regions (y.wg c w.entry).ctx obj off
      match y.releaseBy c k x.id x.threads sc fun o i => g % 2 == 1 || inRegions rs o i with
      | .waits => s
      | .fails cause addr => (y.dropFailed c k x.threads addr).failWait c k x cause addr
      | .sent z =>
        match z.strongStep c { (w.underWait x.id) with wants := 2 } obj off 4 sc true fun v => some ((v + 1) % 2 ^ 32) with
        | .ok q _ => q.endWait c k x
        | .waits _ => s
        | .fails cause => z.failWait c k x cause (objAddr obj off)
/-- REL_COMPLETE (R196). -/
def execRelComplete (cl slot id : Nat) (s : State) : Host.Outcome State Fault Refusal :=
  .next (match (s.warp cl slot).waitOf id with
    | some x =>
      match x.why with
      | .rel sc obj off => s.relStep cl slot x sc obj off
      | _ => s
    | none => s)

/-- A written word is dirty no longer: it is written back, or its write-back met a cause and it is given up. -/
def State.giveUp (s : State) (c ctx obj i : Nat) : State :=
  s.modCluster c fun x =>
    let k := wordKey ctx obj i
    { x with
      l1 := if (Tab.get {} x.l1 k).dirty then Tab.put x.l1 k (Tab.get {} x.l1 k).clean else x.l1
      mapped := (x.mapWords ctx obj i).foldl (fun m j =>
        if (Tab.get {} m j).dirty then Tab.put m j (Tab.get {} m j).clean else m) x.mapped }
/-- Write back what `sel` picks, giving up words that meet a cause: the causes with their addresses. -/
def State.flushAll (s : State) (c : Nat) (w : Warp) (sel : Nat → Nat → Nat → L1Word → Bool) : Nat → Got (List (Byte × Dword))
  | 0 => .ok s []
  | n + 1 =>
    match s.flush c w sel with
    | (.ok x _, _) => .ok x []
    | (.waits cause, _) => .waits cause
    | (.fails cause, addr) =>
      match (s.giveUp c (s.wg c w.entry).ctx (field addr 40 24) (field addr 0 36 / 4)).flushAll c w sel n with
      | .ok x l => .ok x ((cause, addr) :: l)
      | g => g
/-- Words that can be dirty. -/
def Cluster.wordsHeld (x : Cluster) : Nat := x.l1.length + x.mapped.length

/-- FENCE (R199). -/
def execFence (h : Hdr) (sc : Scope) (s : State) : Host.Outcome State Fault Refusal :=
  .next (issue s { h := h, sync := true } (perLane fun x t => .ok (x.await [t] (.fence sc))))
/-- FENCE_COMPLETE (R199): the thread's weak writes are performed. -/
def execFenceComplete (cl slot id : Nat) (s : State) : Host.Outcome State Fault Refusal :=
  let w := s.warp cl slot
  .next (match w.waitOf id with
    | some x =>
      match x.why with
      | .fence sc =>
        if w.storesOpen x.threads (fun _ => true) || w.tarnOpen x.threads then s
        else if nearScope sc then s.endWait cl slot x
        else match s.flushAll cl w (fun _ _ _ e => e.byAny (w.writers x.threads)) ((s.cluster cl).wordsHeld + 1) with
          | .ok y l =>
            let z := y.modWarp cl slot fun q => x.threads.foldl (fun q t => q.modThread t fun v =>
              { v with deferred := v.deferred ++ l.map fun p => ({ cause := p.1, addr := p.2 } : Deferred) }) q
            z.endWait cl slot x
          | _ => s
      | _ => s
    | none => s)

/-! ### PUBL -/

/-- PUBL (R209). -/
def execPubl (h : Hdr) (a : Nat) (s : State) : Host.Outcome State Fault Refusal :=
  .next (issue s { h := h, named := [(.k a, 2)], cm := true, once := true } (perRun fun x ts =>
    let w := x.me
    let l : List Src := [srcA (.k a) .arith 2]
    let cap := w.kPair a
    match checkSrcs w (ts.headD 0) l with
    | some (cause, addr) => .hit cause addr x
    | none =>
      if resultPlate w (ts.headD 0) ts l then .hit Cause.plateEscape 1 x
      else match x.checkRange x.myWg cap 0 { rights := 1, kinds := [0, 3], size := 0 } 1 with
        | some (cause, _) => .hit cause (objAddr (capObj cap) (capOff cap)) x
        | none =>
          match x.shadowOf x.myCtx (capObj cap) with
          | some q => if q.deferred then .ok (x.await ts (.publ (capObj cap)))
            else .ok (x.lateCm x.cur.cl x.cur.slot ts false)
          | none => .ok (x.lateCm x.cur.cl x.cur.slot ts false)))
/-- PUBL_COMPLETE (R209): the shadow is filled and is published; PCOUNT counts it, once its page is there. A shadow that its command
discarded leaves CM ← 0. -/
def execPublComplete (cl slot id : Nat) (s : State) : Host.Outcome State Fault Refusal :=
  let w := s.warp cl slot
  .next (match w.waitOf id with
    | some x =>
      match x.why with
      | .publ obj =>
        let ctx := (s.wg cl w.entry).ctx
        match s.shadowOf ctx obj with
        | some q =>
          if !q.deferred then (s.lateCm cl slot x.threads false).endWait cl slot x
          else if !q.filled || s.snoopWaits Config.clusters ctx q.seqObj (q.seqOff + 8) 4 then s
          else match s.translate ctx q.seqObj (q.seqOff + 8) with
          | .waits cause => s.askPage ctx cl q.seqObj (q.seqOff + 8) cause
          | _ => match s.publish ctx obj with
            | none => s
            | some y => (((y.countUp ctx q.seqObj (q.seqOff + 8) 1).getD y).lateCm cl slot x.threads true).endWait cl slot x
        | none => (s.lateCm cl slot x.threads false).endWait cl slot x
      | _ => s
    | none => s)

end Sys2Proof.Machine
end

