-- ==== Sys2Proof/Machine/Models.lean ====
section
/-! DEFINITION. Model contexts and layer residency: LWAIT, LDONE, LQRY (R241 to R243, R255 to R262), and Sprue's fetches,
evictions and revocations (R257 to R261). -/

namespace Sys2Proof.Machine


/-! ### Entries of models and layers (R255, R256) -/

def State.modelDw (s : State) (ctx m i : Nat) : Dword := s.pd (s.modelAt ctx m) i
def State.layerDw (s : State) (ctx m l i : Nat) : Dword := s.pd (s.layerAt ctx m l) i
def State.modelPrio (s : State) (ctx m : Nat) : Nat := field (s.modelDw ctx m 0) 60 3
def State.modelPool (s : State) (ctx m : Nat) : Nat := field (s.modelDw ctx m 0) 50 4
def State.modelDie (s : State) (ctx m : Nat) : Nat := field (s.modelDw ctx m 0) 54 1
def State.modelHeld (s : State) (ctx m : Nat) : Nat := field (s.modelDw ctx m 3) 0 36
def State.setHeld (s : State) (ctx m n : Nat) : State := s.setPd (s.modelAt ctx m) 3 (setField (s.modelDw ctx m 3) 0 36 n)
def State.layerInUse (s : State) (ctx m l : Nat) : Nat := field (s.layerDw ctx m l 0) 32 16
def State.layerFail (s : State) (ctx m l : Nat) : Bool := (s.layerDw ctx m l 0).getLsbD 61
def State.layerBytes (s : State) (ctx m l : Nat) : Nat := field (s.layerDw ctx m l 2) 0 36
def State.setLayer (s : State) (ctx m l lo n v : Nat) : State :=
  s.setPd (s.layerAt ctx m l) 0 (setField (s.layerDw ctx m l 0) lo n v)
def State.setLayerState (s : State) (ctx m l st : Nat) : State := s.setLayer ctx m l 62 2 st
/-- The layers that an entry names: LCNT, FIRST and LTAB. Another chain in the entry is another model. -/
def State.modelSign (s : State) (ctx m : Nat) : Nat := field (s.modelDw ctx m 0) 30 20 + field (s.modelDw ctx m 1) 0 52 * 2 ^ 20
/-- CURSOR: the layer of the latest successful LWAIT on the model; FIRST until then, for a model written anew too. -/
def State.cursor (s : State) (ctx m : Nat) : Nat :=
  field (s.modelDw ctx m 0) (if s.cursors.contains (ctx, m, s.modelSign ctx m) then 20 else 30) 10

/-! ### LWAIT, LDONE, LQRY -/

/-- A and B do not name a layer of a model context (R241): ILLEGAL, where both are raw integers and not plated. -/
def layerHandle (a b : Nat) (x : State) : Option (Byte × Dword) :=
  let w := x.me
  let ra := w.getK a
  let rb := w.getK b
  if ra.tag == 0 && rb.tag == 0 && !ra.plate && !rb.plate &&
      !(x.modelValid x.myCtx ra.data.toNat && decide (rb.data.toNat < x.layerCount x.myCtx ra.data.toNat)) then
    some (Cause.illegal, 0)
  else none
/-- A alone names no model context (R267). -/
def modelHandle (a : Nat) (x : State) : Option (Byte × Dword) :=
  let ra := x.me.getK a
  if ra.tag == 0 && !ra.plate && !x.modelValid x.myCtx ra.data.toNat then some (Cause.illegal, 0) else none

/-- Writes of CM, with CPM ← TT. -/
def Warp.cmWrites (w : Warp) (ts : List Nat) (b : Bool) : List LWrite :=
  ts.map fun t => { t := t, dst := .cm, val := if b then 1 else 0, plate := (w.thread t).tt }

def layerSrcs (a b : Nat) : List Src := [srcA (.k a), srcB (.k b)]

/-- Ask for a fetch of a layer (R258). -/
def State.askFetch (s : State) (ctx m l : Nat) : State :=
  if s.lwaits.contains (ctx, m, l) then s else { s with lwaits := s.lwaits ++ [(ctx, m, l)] }
/-- Some thread waits for the layer. -/
def State.awaited (s : State) (ctx m l : Nat) : Bool :=
  s.clusters.any fun e => e.2.warps.any fun p => (e.2.wg p.2.entry).ctx == ctx && p.2.waits.any fun x => match x.why with
    | .lwait _ m' l' _ => m' == m && l' == l
    | _ => false
/-- Requests that nothing waits for any more go: their LWAITs have ended, or are saved or killed. -/
def State.dropAsks (s : State) : State := { s with lwaits := s.lwaits.filter fun q => s.awaited q.1 q.2.1 q.2.2 }

/-- The warp's hold on a layer is live (R243). -/
def Warp.holdOf (w : Warp) (m l : Nat) : Option Hold := w.holds.find? fun h => h.model == m && h.layer == l
def Warp.dropHold (w : Warp) (m l : Nat) : Warp := { w with holds := w.holds.filter fun h => !(h.model == m && h.layer == l) }
def Warp.isLive (w : Warp) (m l : Nat) : Bool := (w.holdOf m l).any fun h => h.live

/-- LWAIT finds its layer RESIDENT: the hold, the acquire, CURSOR (R241, R243, R255). -/
def State.takeHold (s : State) (c k ctx m l : Nat) : State :=
  let w := s.warp c k
  let x := if w.isLive m l then s
    else (s.setLayer ctx m l 32 16 (s.layerInUse ctx m l + 1)).modWarp c k fun y =>
      { (y.dropHold m l) with holds := (y.dropHold m l).holds ++ [{ model := m, layer := l, live := true }] }
  let obj := s.layerObj ctx m l
  let y := x.modCluster c fun q => q.dropWords fun i p => !p.own && keyCtx i == ctx && keyObj i == obj
  let z := y.setPd (y.modelAt ctx m) 0 (setField (y.modelDw ctx m 0) 20 10 l)
  { z with cursors := (z.cursors.filter fun p => !(p.1 == ctx && p.2.1 == m)) ++ [(ctx, m, z.modelSign ctx m)] }

/-- The pending bits of a word long on D, of `n` registers, and CM, set at issue; cleared unwritten. -/
def State.pendBoth (s : State) (t : Nat) (ts : List Nat) (d : Dst) (n : Nat) : State :=
  ts.foldl (fun x u => x.pend u .cm) (s.pendWide t d n)
def Warp.unpendBoth (w : Warp) (t : Nat) (ts : List Nat) (d : Dst) (n : Nat) : Warp :=
  ts.foldl (fun x u => x.unpendDst u .cm) ((List.range n).foldl (fun x j => x.unpendDst t (d.plus j)) w)

/-- LWAIT (R241). -/
def execLwait (h : Hdr) (tmo : BitVec 4) (d a b : Opd) (s : State) : Host.Outcome State Fault Refusal :=
  let ka := (s.me.dst a).num
  let kb := (s.me.dst b).num
  .next (issue s { h := h, named := [(d, 2), (a, 1), (b, 1)], cm := true, once := true, handle := layerHandle ka kb }
    (perRun fun x ts =>
      let w := x.me
      match plainCause w (ts.headD 0) (layerSrcs ka kb) with
      | some (cause, addr) => .hit cause addr x
      | none =>
        let m := (w.getK ka).data.toNat
        let l := (w.getK kb).data.toNat
        let ctx := x.myCtx
        if x.layerFail ctx m l then
          .hit ((x.layerDw ctx m l 3).setWidth 8) (objAddr (x.layerObj ctx m l) 0) x
        else
          let y := (x.pendBoth (ts.headD 0) ts (w.dst d) 2).await ts (.lwait tmo.toNat m l (w.dst d))
          .ok (if x.layerState ctx m l = 0 then y.askFetch ctx m l else y)))

/-- A waiting LWAIT looks at its layer, after its threads' earlier strong accesses (R190, R261); `last` when its time has
passed. Sprue's answer does not reach a cluster in a handshake (R321). -/
def State.lwaitLook (s : State) (c k : Nat) (x : Wait) (last : Bool) : State :=
  match x.why with
  | .lwait tmo m l d =>
    let w := s.warp c k
    let ctx := (s.wg c w.entry).ctx
    let t := x.threads.headD 0
    let off (y : State) : State := y.modWarp c k fun q => q.unpendBoth t x.threads d 2
    if (s.cluster c).crossing || !s.strongTurn c k x.id x.threads 0 0 || (last && !x.passed tmo s.tick) then s
    else if s.layerFail ctx m l then
      (((off s).failWait c k x ((s.layerDw ctx m l 3).setWidth 8) (objAddr (s.layerObj ctx m l) 0))).dropAsks
    else if s.layerState ctx m l = 2 then
      let cap := BitVec.ofNat 64 (s.layerObj ctx m l * 2 ^ 40 + 8 * 2 ^ 36)
      let p := w.anyTaint x.threads
      let y := off (s.takeHold c k ctx m l)
      (((((y.lateWrite c k t d (loWord cap) 0 p).lateWrite c k t (d.plus 1) (hiWord cap) 0 p).lateCm c k x.threads true).endWait
        c k x)).dropAsks
    else if last then (((off s).lateCm c k x.threads false).endWait c k x).dropAsks
    else if s.layerState ctx m l = 0 then s.askFetch ctx m l
    else s
  | _ => s
/-- LWAIT_WAKE (R241). -/
def execLwaitWake (cl slot id : Nat) (s : State) : Host.Outcome State Fault Refusal :=
  .next (match (s.warp cl slot).waitOf id with
    | some x => s.lwaitLook cl slot x false
    | none => s)
/-- LWAIT_TIMEOUT (R241). -/
def execLwaitTimeout (cl slot id : Nat) (s : State) : Host.Outcome State Fault Refusal :=
  .next (match (s.warp cl slot).waitOf id with
    | some x => s.lwaitLook cl slot x true
    | none => s)

/-- LDONE (R242): a strong access to the layer's entry (R261). -/
def execLdone (h : Hdr) (a b : Opd) (s : State) : Host.Outcome State Fault Refusal :=
  let ka := (s.me.dst a).num
  let kb := (s.me.dst b).num
  let sh : Shape := { h := h, named := [(a, 1), (b, 1)], cm := true, once := true, handle := layerHandle ka kb }
  .next (afterStrong s sh fun s0 => issue s0 sh (perRun fun x ts =>
    let w := x.me
    match plainCause w (ts.headD 0) (layerSrcs ka kb) with
    | some (cause, addr) => .hit cause addr x
    | none =>
      let m := (w.getK ka).data.toNat
      let l := (w.getK kb).data.toNat
      let live := w.isLive m l
      let y := if live then
          (x.setLayer x.myCtx m l 32 16 (x.layerInUse x.myCtx m l - 1)).modMe fun q => q.dropHold m l
        else x
      .ok (y.long (w.cmWrites ts live) 0)))

/-- LQRY (R262): a strong access to the layer's entry. -/
def execLqry (h : Hdr) (d a b : Opd) (s : State) : Host.Outcome State Fault Refusal :=
  let ka := (s.me.dst a).num
  let kb := (s.me.dst b).num
  let sh : Shape := { h := h, named := [(d, 1), (a, 1), (b, 1)], cm := true, once := true, handle := layerHandle ka kb }
  .next (afterStrong s sh fun s0 => issue s0 sh
    (perRun fun x ts =>
      let w := x.me
      match plainCause w (ts.headD 0) (layerSrcs ka kb) with
      | some (cause, addr) => .hit cause addr x
      | none =>
        let m := (w.getK ka).data.toNat
        let l := (w.getK kb).data.toNat
        let st := x.layerState x.myCtx m l
        let revoked := (w.holdOf m l).any fun q => !q.live
        let v := x.layerInUse x.myCtx m l * 65536 + (x.layerFail x.myCtx m l).toNat * 16 + revoked.toNat * 8 +
          (w.isLive m l).toNat * 4 + st
        .ok (x.long ({ t := ts.headD 0, dst := w.dst d, val := BitVec.ofNat 32 v, plate := w.anyTaint ts } ::
          w.cmWrites ts (st == 2)) 0)))

/-! ### Sprue: the chain, the window, and who leaves first (R258, R259) -/

/-- Layers along NEXT from `l`, at most `n`, ending at NV or at one already met. -/
def State.chainFrom (s : State) (ctx m : Nat) : Nat → Nat → List Nat → List Nat
  | 0, _, seen => seen.reverse
  | n + 1, l, seen =>
    if decide (l ≥ s.layerCount ctx m) || seen.contains l then seen.reverse
    else
      let d := s.layerDw ctx m l 0
      if d.getLsbD 60 then (l :: seen).reverse else s.chainFrom ctx m n (field d 50 10) (l :: seen)
/-- The chain from FIRST; a layer's position is its place in it. -/
def State.chain (s : State) (ctx m : Nat) : List Nat :=
  s.chainFrom ctx m (s.layerCount ctx m) (field (s.modelDw ctx m 0) 30 10) []
/-- The window: CURSOR and the WINDOW layers that follow it. -/
def State.window (s : State) (ctx m : Nat) : List Nat :=
  let n := field (s.modelDw ctx m 0) 55 4
  s.chainFrom ctx m ((if n = 0 then 4 else n) + 1) (s.cursor ctx m) []

/-- A layer of a model of a context. -/
structure Lay where
  ctx : Nat
  m : Nat
  l : Nat
  deriving DecidableEq, Repr, Inhabited

/-- The valid models of live contexts, by model number, and those of equal number in the order of the context table: R258 gives no order
between models of equal PRIO and number in different contexts (DESIGN CHOICE, log 91). -/
def State.allModels (s : State) : List (Nat × Nat) :=
  (List.range 64).flatMap fun m => (s.ctxs.filter fun e => s.modelValid e.1 m).map fun e => (e.1, m)
def State.poolModels (s : State) (pool : Nat) : List (Nat × Nat) := s.allModels.filter fun p => s.modelPool p.1 p.2 == pool
def State.layersIn (s : State) (l : List (Nat × Nat)) (st : Nat) : List Lay :=
  l.flatMap fun p => ((List.range (s.layerCount p.1 p.2)).filter fun i => s.layerState p.1 p.2 i == st).map fun i => ⟨p.1, p.2, i⟩
def State.bytesOf (s : State) (l : List Lay) : Nat := (l.map fun x => s.layerBytes x.ctx x.m x.l).sum

/-- The order in which layers leave (R259): a list of numbers compared from the left. Models of equal priority and number in different
contexts go by the context's number, which R259 leaves open (DESIGN CHOICE, log 91). -/
def State.leaveKey (s : State) (x : Lay) : List Nat :=
  let ch := s.chain x.ctx x.m
  let cur := s.cursor x.ctx x.m
  let inWin := (s.window x.ctx x.m).contains x.l
  let at_ :=
    if !ch.contains x.l then [1, 1024 - x.l]
    else if ch.contains cur && decide (ch.idxOf x.l < ch.idxOf cur) then [0, ch.idxOf x.l]
    else [2, 1024 - ch.idxOf x.l]
  [s.modelPrio x.ctx x.m, x.m, x.ctx, inWin.toNat] ++ at_
def lexLt : List Nat → List Nat → Bool
  | [], _ => false
  | _ :: _, [] => false
  | a :: r, b :: q => a < b || (a == b && lexLt r q)
def insertBy {α : Type} (f : α → List Nat) (x : α) : List α → List α
  | [] => [x]
  | y :: r => if lexLt (f x) (f y) then x :: y :: r else y :: insertBy f x r
/-- Sorted by a key, equal ones in their order. -/
def sortBy {α : Type} (f : α → List Nat) (l : List α) : List α := l.foldl (fun a x => insertBy f x a) []

/-- The layer has a weights object that can be fetched (R256). -/
def State.fetchable (s : State) (x : Lay) : Bool :=
  let d := s.desc x.ctx (s.layerObj x.ctx x.m x.l)
  d.valid && d.kind == 2 && decide (s.layerBytes x.ctx x.m x.l ≤ d.len)

/-- What a fetch lacks of room, in its pool and in its model's BUDGET, beyond what is LEAVING; and whether it would break
BUDGET. -/
structure Lack where
  fits : Bool
  breaks : Bool
  pool : Nat
  model : Nat
def State.lack (s : State) (x : Lay) : Lack :=
  let pool := s.modelPool x.ctx x.m
  let ms := s.poolModels pool
  let b := s.layerBytes x.ctx x.m x.l
  let held := (ms.map fun p => s.modelHeld p.1 p.2).sum
  let budget := field (s.modelDw x.ctx x.m 2) 0 36
  let p := held + b - Tab.get 0 s.pools pool
  let q := if budget = 0 then 0 else s.modelHeld x.ctx x.m + b - budget
  { fits := p == 0 && q == 0
    breaks := q != 0
    pool := p - s.bytesOf (s.layersIn ms 3)
    model := q - s.bytesOf (s.layersIn [(x.ctx, x.m)] 3) }

/-- Leaving layers in their order until the room suffices; none if all of them do not. -/
def State.pick (s : State) (x : Lay) (k : Lack) (l : List Lay) : Option (List Lay) :=
  let ok (q : List Lay) : Bool := decide (k.pool ≤ s.bytesOf q) &&
    decide (k.model ≤ s.bytesOf (q.filter fun y => y.ctx == x.ctx && y.m == x.m))
  let r := sortBy s.leaveKey l
  ((List.range (r.length + 1)).find? fun n => ok (r.take n)).map fun n => r.take n

/-- The layers that go for a fetch (R259, R260). -/
def State.victims (s : State) (x : Lay) (asked : Bool) : Option (List Lay) :=
  let k := s.lack x
  let own (y : Lay) : Bool := !k.breaks || (y.ctx == x.ctx && y.m == x.m)
  let res := (s.layersIn (s.poolModels (s.modelPool x.ctx x.m)) 2).filter own
  let prio := s.modelPrio x.ctx x.m
  let ev := res.filter fun y => s.layerInUse y.ctx y.m y.l == 0 &&
    (asked || (decide (s.modelPrio y.ctx y.m ≤ prio) && !(s.window y.ctx y.m).contains y.l))
  match s.pick x k ev with
  | some l => some l
  | none =>
    if asked then
      s.pick x k (ev ++ res.filter fun y => s.layerInUse y.ctx y.m y.l != 0 && (s.modelDw y.ctx y.m 0).getLsbD 59 &&
        decide (s.modelPrio y.ctx y.m < prio))
    else none

/-- Every live hold on the layer becomes revoked (R243). -/
def Warp.revoke (w : Warp) (m l : Nat) : Warp :=
  { w with holds := w.holds.map fun h => if h.model = m ∧ h.layer = l then { h with live := false } else h }
/-- The holds of a saved workgroup too. -/
def Image.revoke (i : Image) (m l : Nat) : Image :=
  { i with warps := i.warps.map fun w => w.revoke m l, core := i.core.map fun w => w.revoke m l }
/-- RESIDENT to LEAVING (R258, R260). -/
def State.leave (s : State) (x : Lay) : State :=
  let n := s.layerInUse x.ctx x.m x.l
  let y := (s.setLayer x.ctx x.m x.l 32 16 0).setLayerState x.ctx x.m x.l 3
  let z : State := { y with
    clusters := y.clusters.map fun e =>
      let f (w : Warp) : Warp := if (e.2.wg w.entry).ctx = x.ctx then w.revoke x.m x.l else w
      (e.1, { e.2 with
        warps := e.2.warps.map fun p => (p.1, f p.2)
        tracker := e.2.tracker.map fun p => (p.1, f p.2) })
    images := y.images.map fun i => if i.wg.ctx = x.ctx then i.revoke x.m x.l else i }
  z.count (128 + s.modelDie x.ctx x.m) (if n = 0 then .evictions else .revocations) 1

/-- The fetches that a die's Sprue wants, in their order (R258): those that an LWAIT waits for, then those of the windows. -/
def State.wanted (s : State) (die : Nat) : List (Lay × Bool) :=
  let ask := (s.dropAsks.lwaits.filter fun q => s.modelValid q.1 q.2.1 && s.modelDie q.1 q.2.1 == die).map fun q =>
    (⟨q.1, q.2.1, q.2.2⟩ : Lay)
  let ms := sortBy (fun p => [7 - s.modelPrio p.1 p.2]) (s.allModels.filter fun p => s.modelDie p.1 p.2 == die)
  (sortBy (fun (x : Lay) => [7 - s.modelPrio x.ctx x.m]) ask).map (fun x => (x, true)) ++
    (ms.flatMap fun p => (s.window p.1 p.2).map fun l => ((⟨p.1, p.2, l⟩ : Lay), false))

/-- ABSENT to ARRIVING: HELD += BYTES, and a shadow of the weights object. -/
def State.startFetch (s : State) (x : Lay) : State :=
  let obj := s.layerObj x.ctx x.m x.l
  let d := s.desc x.ctx obj
  match s.createShadow x.ctx obj 0 d.len false 0 with
  | .ok y =>
    let z := (y.setHeld x.ctx x.m (y.modelHeld x.ctx x.m + y.layerBytes x.ctx x.m x.l)).setLayerState x.ctx x.m x.l 1
    { z with lwaits := z.lwaits.filter fun q => q != (x.ctx, x.m, x.l) }
  | _ => s

/-- Sprue acts on the first wanted fetch that can start or can be given room (R258 to R260); a fetch that waits for leaving layers, or that
all candidates do not make room for, keeps the fetches of its pool behind it: nothing of the pool starts until its state changes. -/
def State.serve (s : State) (l : List (Lay × Bool)) (kept : List Nat) : State :=
  match l with
  | [] => s
  | (x, asked) :: r =>
    let pool := s.modelPool x.ctx x.m
    if kept.contains pool || s.layerState x.ctx x.m x.l != 0 || s.layerFail x.ctx x.m x.l || !s.fetchable x ||
        (s.shadowOf x.ctx (s.layerObj x.ctx x.m x.l)).isSome then s.serve r kept
    else if (s.lack x).fits then s.startFetch x
    else match s.victims x asked with
      | some (v :: q) => (v :: q).foldl State.leave s
      | _ => s.serve r (pool :: kept)

/-- SPRUE_FETCH_START (R258 to R260). A module that has FAILED does nothing of it (R322). -/
def execSprueFetchStart (die : Nat) (s : State) : Host.Outcome State Fault Refusal :=
  .next (if s.health = 2 then s else s.serve (s.wanted die) [])

/-- A fetch ends in a cause: ABSENT, FAIL, CAUSE, a record (R258). -/
def State.fetchFailed (s : State) (x : Lay) (cause : Byte) (addr : Dword) : State :=
  let die := s.modelDie x.ctx x.m
  let b := s.layerBytes x.ctx x.m x.l
  let y := (s.discardShadow x.ctx (s.layerObj x.ctx x.m x.l)).setHeld x.ctx x.m (s.modelHeld x.ctx x.m - b)
  let z := (y.setLayerState x.ctx x.m x.l 0).setLayer x.ctx x.m x.l 61 1 1
  let q := z.setPd (z.layerAt x.ctx x.m x.l) 3 (setField (z.layerDw x.ctx x.m x.l 3) 0 8 cause.toNat)
  (q.post x.ctx { cause := cause, cl := die * Config.dieClusters, slot := noSlot, wgid := 0, addr := addr, lobj := 0, pc := 0
                  lanes := 0, kind := 3 }).count (128 + die) .fetchFails 1

/-- The pages of a range of an object, as (offset, bytes). -/
def Desc.pieces (d : Desc) (off len : Nat) : List (Nat × Nat) :=
  let p := pageSize d.pg
  if len = 0 then []
  else (List.range ((off + len - 1) / p - off / p + 1)).map fun i =>
    let lo := max off (p * (off / p + i))
    (lo, min (off + len) (p * (off / p + i + 1)) - lo)
/-- The places of a range that hardware reads, for the warp `w` or for none. -/
def State.rangePlace (s : State) (w : Warp) (ctx obj off len : Nat) : Place :=
  let d := s.desc ctx obj
  if d.kind = 5 then s.hwPlace w ctx obj off len
  else worstPlace ((d.pieces off len).map fun q => s.hwPlace w ctx obj q.1 q.2)
/-- A byte of an object as its home slice answers. -/
def State.objByte (s : State) (ctx obj off : Nat) : Byte :=
  match s.translate ctx obj off with
  | .found a => BitVec.ofNat 8 (s.homeNat ctx obj off 1 a)
  | _ => 0
/-- Put bytes into an object's pending shadow; the memory-side cache serves each 64 bytes of the tier once (R185). -/
def State.shadowPut (s : State) (ctx obj off : Nat) (l : List Byte) : State :=
  l.zipIdx.foldl (fun x p => match x.shadowPlace ctx obj (off + p.2) with
    | .found a => (if p.2 = 0 ∨ a % 64 = 0 then x.mscServe a else x).putPhys a p.1
    | _ => x) s
/-- The page of a range of an object for which hardware outside the warps waits is asked for (R165). -/
def State.askRange (s : State) (ctx cl obj off len : Nat) : State :=
  (((s.desc ctx obj).pieces off len).findSome? fun q => match s.hwPlace {} ctx obj q.1 q.2 with
    | .waits cause => some (s.askPage ctx cl obj q.1 cause)
    | _ => none).getD s

/-- SPRUE_FETCH_COMPLETE (R258): the source is copied into the shadow, which is published; ARRIVING to RESIDENT. -/
def execSprueFetchComplete (ctx model layer : Nat) (s : State) : Host.Outcome State Fault Refusal :=
  let x : Lay := ⟨ctx, model, layer⟩
  let obj := s.layerObj ctx model layer
  .next (if !(s.modelValid ctx model && decide (layer < s.layerCount ctx model)) || s.layerState ctx model layer != 1 ||
      (s.shadowOf ctx obj).isNone || s.health == 2 then s
    else
      let d1 := s.layerDw ctx model layer 1
      let src := field d1 40 24
      let off := field d1 0 36
      let n := s.layerBytes ctx model layer
      match s.rangePlace {} ctx src off n with
      | .waits _ => s.askRange ctx (s.modelDie ctx model * Config.dieClusters) src off n
      | .fails cause => s.fetchFailed x cause (objAddr src off)
      | .found _ =>
        let y := (s.served ctx src off n).shadowPut ctx obj 0 ((List.range n).map fun i => s.objByte ctx src (off + i))
        match y.publish ctx obj with
        | none => s
        | some z =>
          let f := z.layerDw ctx model layer 3
          (((z.setPd (z.layerAt ctx model layer) 3 (setField f 32 32 (field f 32 32 + 1))).setLayerState ctx model layer 2).count
            (128 + s.modelDie ctx model) .fetches 1).count (128 + s.modelDie ctx model) .fetchBytes n)

/-- LAYER_LEAVE_COMPLETE (R258): LEAVING to ABSENT, once what was translated under the old extents is complete: they are freed,
and HELD −= BYTES. -/
def execLayerLeaveComplete (ctx model layer : Nat) (s : State) : Host.Outcome State Fault Refusal :=
  .next (if s.modelValid ctx model && decide (layer < s.layerCount ctx model) && s.layerState ctx model layer == 3 then
      let obj := s.layerObj ctx model layer
      let x := (((s.freeExtents ctx obj).purge ctx obj).setHeld ctx model
        (s.modelHeld ctx model - s.layerBytes ctx model layer)).setLayerState ctx model layer 0
      { x with bare := (ctx, obj) :: x.bare.filter fun p => p != (ctx, obj) }
    else s)

end Sys2Proof.Machine
end

