-- ==== Sys2Proof/Machine/Attention.lean ====
section
/-! DEFINITION. KV caches across chips (R263, R264), the prefix table with SHAKE256 (R265 to R267), work-item queues (R268),
last-arriver merging (R269, R270) and rings (R271, R272). -/

namespace Sys2Proof.Machine

/-! ### Requests with a result pair and CM -/

/-- A request of a word long on D and CM is done: D is written where `v` is given. -/
def State.pairDone (s : State) (c k : Nat) (r : Req) (d : Dst) (n : Nat) (v : Option Dword) (cm : Bool) : State :=
  let w := (s.warp c k).unpendBoth r.t r.threads d n
  let w1 := match v with
    | some x =>
      let y := w.write r.t d (loWord x) 0 r.taint
      if n = 2 then y.write r.t (d.plus 1) (hiWord x) 0 r.taint else y
    | none => w
  let w2 := r.threads.foldl (fun q t => q.write t .cm (if cm then 1 else 0) 0 (bitOf r.tts t)) w1
  (s.setWarp c k (w2.dropReq r.id)).stir c k
/-- The warp as the accesses of a request see it: under the entry that it was checked against (R164). -/
def State.warpFor (s : State) (c k : Nat) (r : Req) : Warp := { s.warp c k with under := r.old }
/-- The request goes on with its next access, to another object checked as it does. -/
def State.nextAccess (s : State) (c k : Nat) (r : Req) (obj off size : Nat) (op : ReqOp) : State :=
  s.modWarp c k fun w => w.setReq { r with
    obj := obj, off := off, size := size, op := op, posted := false, recAt := 0, old := if obj = r.obj then r.old else none }
/-- A word long on D, of `n` registers, and CM leaves a request. -/
def State.sendBoth (s : State) (h : Hdr) (t : Nat) (ts : List Nat) (d : Dst) (n obj off size : Nat) (sc : Option Scope)
    (op : ReqOp) (once : Bool := true) : State :=
  let w := s.me
  let p := s.freshId
  let r : Req :=
    { id := p.1, t := t, threads := ts, obj := obj, off := off, size := size, strong := sc, taint := w.anyTaint ts, op := op
      tts := w.taints ts, pc := s.cur.pc, marked := h.sw && s.cur.last, group := p.1 }
  (p.2.pendBoth t ts d n).send r once

/-- Bytes of an object read strongly, at any alignment. -/
def State.strongBytes (s : State) (c : Nat) (w : Warp) (obj off : Nat) (sc : Scope) : Nat → Got Nat
  | 0 => .ok s 0
  | n + 1 =>
    match s.strongRead c w obj off 1 sc with
    | .ok x b =>
      match x.strongBytes c w obj (off + 1) sc n with
      | .ok y r => .ok y (b + 256 * r)
      | g => g
    | g => g

/-! ### KVX -/

/-- KVPOOL and KVS2 of a device in the context's KV record (log 18). -/
def State.kvPool (s : State) (ctx c : Nat) : Nat := field (s.pd ((s.ctx ctx).kv + 8 * c) 0) 40 24
def State.kvS2 (s : State) (ctx c : Nat) : Nat := field (s.pd ((s.ctx ctx).kv + 8 * c) 0) 0 24

/-- A KVX lane with no translation: D pair ← 0, CM ← 1. -/
def kvNull (x : State) (t : Nat) (ts : List Nat) (d : Dst) : State :=
  let w := x.me
  let p := w.anyTaint ts
  (x.long ({ t := t, dst := d, val := 0, plate := p } :: { t := t, dst := d.plus 1, val := 0, plate := p } ::
    w.cmWrites ts true) 0).count x.cur.cl .kvxNulls 1

/-- One lane of a KVX (R264). -/
def kvxLane (h : Hdr) (d : Opd) (a : Nat) (b c : Opd) (x : State) (t : Nat) (ts : List Nat) : LaneOut :=
  let w := x.me
  let dir := w.kPair a
  let e := w.dst d
  match plainCause w t [srcA (.k a) .arith 2, srcB b, srcC c] with
  | some (cause, addr) => .hit cause addr x
  | none =>
    match x.checkRange x.myWg dir 0 { rights := 8, kinds := [0], size := 0 } 1 with
    | some (cause, _) => .hit cause (objAddr (capObj dir) (capOff dir)) x
    | none =>
      let pos := (w.val t b).toNat
      let off := capOff dir + 8 * (pos / 16)
      if pos ≥ 2 ^ 28 ∨ off + 8 > (x.descFor x.myWg (capObj dir)).len then .ok (kvNull x t ts e)
      else .ok (x.sendBoth h t ts e 2 (capObj dir) off 8 (some .pod) (.kvx (w.val t b) (w.val t c) none e)
        (uniform [d, .k a, b, c]))
/-- KVX (R264). -/
def execKvx (h : Hdr) (d : Opd) (a : Nat) (b c : Opd) (s : State) : Host.Outcome State Fault Refusal :=
  let once := uniform [d, .k a, b, c]
  .next (issue s { h := h, named := [(d, 2), (.k a, 2), (b, 1), (c, 1)], cm := true, once := once }
    (lanes once (kvxLane h d a b c)))

/-- The capability of a position in its block. -/
def kvCap (pool rights base pos stride : Nat) : Dword :=
  BitVec.ofNat 64 (pool * 2 ^ 40 + rights * 2 ^ 36 + (base + pos % 16 * stride) % 2 ^ 36)

/-- The next access of a KVX lane. -/
def State.kvxStep (s : State) (c k : Nat) (r : Req) (pos stride : Word) (first : Option Dword) (d : Dst) : State :=
  let w := s.warpFor c k r
  let ctx := (s.wg c w.entry).ctx
  let null (x : State) : State := (x.pairDone c k r d 2 (some 0) true).count c .kvxNulls 1
  match s.strongBytes c w r.obj r.off .pod 8 with
  | .waits _ => s
  | .fails cause => s.reqFailed c k r d 3 true cause
  | .ok x v =>
    match first with
    | none =>
      let e := BitVec.ofNat 64 v
      let chip := field e 57 6
      let s2 := s.kvS2 ctx chip
      let t2 := s.desc ctx s2
      let g := field e 0 32
      if !e.getLsbD 63 || field e 55 2 == 3 || decide (chip > 36) || s.kvPool ctx chip == 0 || s2 == 0 || !t2.valid ||
          decide (16 * g + 16 > t2.len) then null x
      else x.nextAccess c k r s2 (16 * g) 8 (.kvx pos stride (some e) d)
    | some e =>
      let b := BitVec.ofNat 64 v
      let pool := s.kvPool ctx (field e 57 6)
      if !b.getLsbD 63 then null x
      else x.pairDone c k r d 2 (some (kvCap pool (s.desc ctx pool).rights (field b 0 36) pos.toNat stride.toNat)) false

/-! ### SHAKE256 (FIPS 202) -/

/-- The linear feedback shift register that gives the bits of the round constants, after `n` steps: x^8 + x^6 + x^5 + x^4 + 1. -/
def shiftReg : Nat → Nat
  | 0 => 1
  | n + 1 => let v := 2 * shiftReg n; if v < 256 then v else Nat.xor (v - 256) 0x71
/-- What round `i` adds to lane 0: seven bits of the register, at the places 2^j − 1. -/
def roundBits (i : Nat) : Dword :=
  BitVec.ofNat 64 ((List.range 7).foldl (fun v j => v + shiftReg (7 * i + j) % 2 * 2 ^ (2 ^ j - 1)) 0)
/-- The walk over the lanes but the first: each comes after the one whose place it takes. -/
def laneWalk : Nat → Nat × Nat
  | 0 => (1, 0)
  | n + 1 => let p := laneWalk n; (p.2, (2 * p.1 + 3 * p.2) % 5)
/-- How far lane (x, y) turns: by a triangular number, of its step in the walk. -/
def laneTurn (x y : Nat) : Nat :=
  match (List.range 24).find? fun n => laneWalk n == (x, y) with
  | some n => (n + 1) * (n + 2) / 2 % 64
  | none => 0
/-- The state as 25 lanes; lane (x, y), with x and y modulo 5. -/
def laneAt (a : List Dword) (x y : Nat) : Dword := a.getD (5 * (y % 5) + x % 5) 0
/-- A state from its lanes. -/
def lanesOf (f : Nat → Nat → Dword) : List Dword := (List.range 5).flatMap fun y => (List.range 5).map fun x => f x y
/-- Each lane takes the parity of the column before it, and of the one after it turned by 1. -/
def mixColumns (a : List Dword) : List Dword :=
  let parity := (List.range 5).map fun x => (List.range 5).foldl (fun p y => p ^^^ laneAt a x y) 0
  lanesOf fun x y => laneAt a x y ^^^ parity.getD ((x + 4) % 5) 0 ^^^ (parity.getD ((x + 1) % 5) 0).rotateLeft 1
/-- Lane (x, y), turned, moves to (y, 2x + 3y). -/
def moveLanes (a : List Dword) : List Dword :=
  lanesOf fun x y => let z := (x + 3 * y) % 5; (laneAt a z x).rotateLeft (laneTurn z x)
/-- Each lane takes what the next two of its row give. -/
def mixRows (a : List Dword) : List Dword :=
  lanesOf fun x y => laneAt a x y ^^^ (laneAt a (x + 2) y &&& ~~~laneAt a (x + 1) y)
/-- The permutation of 24 rounds. -/
def keccakF (a : List Dword) : List Dword :=
  (List.range 24).foldl (fun b i => (mixRows (moveLanes (mixColumns b))).modifyHead fun v => v ^^^ roundBits i) a
/-- The lanes of a byte block. -/
def toLanes (l : List Byte) : List Dword := (List.range 25).map fun i => BitVec.ofNat 64 (leNat ((l.drop (8 * i)).take 8))
/-- The first 8 output bytes of SHAKE256 over a message of fewer than 135 bytes, as a little-endian number. -/
def shake256 (m : List Byte) : Dword :=
  let block := m ++ [0x1F] ++ List.replicate (134 - m.length) 0 ++ [0x80]
  (keccakF (toLanes block)).headD 0

/-! ### PFXH, PFXM, PFXP -/

/-- PFXH (R265). -/
def execPfxh (h : Hdr) (d a b : Nat) (s : State) : Host.Outcome State Fault Refusal :=
  .next (issue s { h := h, named := [(.k d, 2), (.k a, 2), (.k b, 2)], once := true } (perRun fun x ts =>
    let w := x.me
    let t := ts.headD 0
    let sa := srcA (.k a) .arith 2
    let sb := srcB (.k b) .arith 2
    let cap := w.kPair b
    match ((checkSrcs w t [sa, sb]).or (checkPlates w t [sb])).or
        (x.checkRange x.myWg cap (capOff cap) { rights := 8, kinds := [0, 2, 3, 5, 6], size := 64 } 4) with
    | some (cause, addr) => .hit cause addr x
    | none =>
      let p := x.freshId
      let r : Req :=
        { id := p.1, t := t, threads := ts, obj := capObj cap, off := capOff cap, size := 64
          taint := w.anyTaint ts || sa.plated w t, op := .pfxh (w.kPair a) (.k d), pc := x.cur.pc, marked := h.sw && x.cur.last
          group := p.1 }
      .ok ((p.2.pendWide t (.k d) 2).send r)))

/-- Words read weakly, one after the other in one step. -/
def State.weakWords (s : State) (c : Nat) (w : Warp) (obj off : Nat) : Nat → Got (List Byte)
  | 0 => .ok s []
  | n + 1 =>
    match s.anyRead c w obj off 4 with
    | .ok x v =>
      match x.weakWords c w obj (off + 4) n with
      | .ok y l => .ok y (leBytes 4 v ++ l)
      | g => g
    | .waits cause => .waits cause
    | .fails cause => .fails cause
/-- The access of a PFXH. -/
def State.pfxhStep (s : State) (c k : Nat) (r : Req) (prev : Dword) (d : Dst) : State :=
  match s.weakWords c (s.warpFor c k r) r.obj r.off 16 with
  | .waits _ => s
  | .fails cause => s.reqFailed c k r d 3 false cause
  | .ok x l =>
    let v := shake256 (leBytes 8 prev.toNat ++ l)
    (x.modWarp c k fun q => (q.settleReg r.t d 3 v.toNat r.taint).dropReq r.id).stir c k

/-- The prefix table of a model: its address, 0 for none (R255, R266). -/
def State.pfxTable (s : State) (ctx m : Nat) : Nat := field (s.modelDw ctx m 4) 0 52
def State.pfxValid (s : State) (a i : Nat) : Bool := (s.pd (a + 32 * i) 0).getLsbD 63
def State.pfxFind (s : State) (a : Nat) (hash : Dword) : Option Nat :=
  if a = 0 then none else (List.range 64).find? fun i => s.pfxValid a i && s.pd (a + 32 * i) 1 == hash
/-- Where an `.insert` that misses goes: the lowest invalid entry, or the unpinned one used longest ago. -/
def State.pfxPlace (s : State) (a : Nat) : Option Nat :=
  if a = 0 then none
  else match (List.range 64).find? fun i => !s.pfxValid a i with
    | some i => some i
    | none =>
      ((List.range 64).filter fun i => !(s.pd (a + 32 * i) 0).getLsbD 62).foldl (fun o i => match o with
        | none => some i
        | some j => if (s.pd (a + 32 * i) 3).toNat < (s.pd (a + 32 * j) 3).toNat then some i else some j) none

/-- A word on a prefix table: A and B checked, then `f` with the table and the hash; a strong access (R266). -/
def pfxWord (s : State) (h : Hdr) (d : Option Nat) (a b : Nat) (c : Option Nat)
    (f : State → List Nat → Nat → Dword → State) : State :=
  let l := [srcA (.k a), srcB (.k b) .arith 2] ++ (c.map fun n => srcC (.k n) .arith 2).toList
  let sh : Shape :=
    { h := h, named := (d.map fun n => (Opd.k n, 2)).toList ++ l.map fun x => (x.o, x.width), cm := true, once := true
      handle := modelHandle a }
  afterStrong s sh fun s0 => issue s0 sh (perRun fun x ts =>
    let w := x.me
    let t := ts.headD 0
    match (checkSrcs w t l).or (checkPlates w t (l.take 2)) with
    | some (cause, addr) => .hit cause addr x
    | none =>
      if c.isSome && ((l.drop 2).any (fun y => y.plated w t) || w.anyTaint ts) then .hit Cause.plateEscape 3 x
      else .ok (f x ts (x.pfxTable x.myCtx (w.getK a).data.toNat) (w.kPair b)))
def State.setUse (s : State) (a i : Nat) : State := s.setPd (a + 32 * i) 3 (BitVec.ofNat 64 s.tick)

/-- PFXM (R267). -/
def execPfxm (h : Hdr) (d a b : Nat) (s : State) : Host.Outcome State Fault Refusal :=
  .next (pfxWord s h (some d) a b none fun x ts tab hash =>
    let w := x.me
    let p := w.anyTaint ts
    match x.pfxFind tab hash with
    | some i =>
      let v := x.pd (tab + 32 * i) 2
      ((x.setUse tab i).long ({ t := ts.headD 0, dst := .k d, val := loWord v, plate := p } ::
        { t := ts.headD 0, dst := .k (d + 1), val := hiWord v, plate := p } :: w.cmWrites ts true) 0).count x.cur.cl .pfxmHits 1
    | none =>
      let same (n : Nat) : LWrite :=
        { t := ts.headD 0, dst := .k n, val := (w.getK n).data, tag := (w.getK n).tag, plate := (w.getK n).plate }
      (x.long (same d :: same (d + 1) :: w.cmWrites ts false) 0).count x.cur.cl .pfxmMisses 1)
/-- PIN of an entry. -/
def pfxPin (x : State) (ts : List Nat) (tab : Nat) (hash : Dword) (b : Nat) : State :=
  match x.pfxFind tab hash with
  | some i => (x.setPd (tab + 32 * i) 0 (setField (x.pd (tab + 32 * i) 0) 62 1 b)).long (x.me.cmWrites ts true) 0
  | none => x.long (x.me.cmWrites ts false) 0
/-- PFXP.pin (R267). -/
def execPfxpPin (h : Hdr) (a b : Nat) (s : State) : Host.Outcome State Fault Refusal :=
  .next (pfxWord s h none a b none fun x ts tab hash => pfxPin x ts tab hash 1)
/-- PFXP.unpin (R267). -/
def execPfxpUnpin (h : Hdr) (a b : Nat) (s : State) : Host.Outcome State Fault Refusal :=
  .next (pfxWord s h none a b none fun x ts tab hash => pfxPin x ts tab hash 0)
/-- PFXP.insert (R267). -/
def execPfxpInsert (h : Hdr) (a b c : Nat) (s : State) : Host.Outcome State Fault Refusal :=
  .next (pfxWord s h none a b (some c) fun x ts tab hash =>
    let v := x.me.kPair c
    match x.pfxFind tab hash with
    | some i => ((x.setPd (tab + 32 * i) 2 v).setUse tab i).long (x.me.cmWrites ts true) 0
    | none =>
      match x.pfxPlace tab with
      | some i =>
        (((((x.setPd (tab + 32 * i) 1 hash).setPd (tab + 32 * i) 2 v).setUse tab i).setPd (tab + 32 * i) 0 (1#64 <<< 63))).long
          (x.me.cmWrites ts true) 0
      | none => (x.long (x.me.cmWrites ts false) 0).count x.cur.cl .pfxpFails 1)

/-! ### WQPOP -/

/-- WQPOP (R268). -/
def execWqpop (h : Hdr) (d : Nat) (s : State) : Host.Outcome State Fault Refusal :=
  .next (issue s { h := h, named := [(.k d, 2)], cm := true, once := true } (perRun fun x ts =>
    let g := x.myWg
    .ok (x.sendBoth h (ts.headD 0) ts (.k d) 2 g.wobj (g.woff + 52) 4 (some .dev) (.wqpop (.k d)))))
/-- The pop: the head is taken and rises, and the item is read, in one step. -/
def State.wqpopStep (s : State) (c k : Nat) (r : Req) (d : Dst) : State :=
  let w := s.warpFor c k r
  let g := s.wg c w.entry
  let empty (x : State) : State := (x.pairDone c k r d 2 none false).count c .wqEmpty 1
  match s.strongRead c w g.wobj (g.woff + 16) 8 .dev, s.strongRead c w r.obj r.off 4 .dev with
  | .ok _ st, .ok _ i =>
    if (BitVec.ofNat 64 st).getLsbD 58 || g.qobj == 0 || decide (i ≥ g.qcnt) then empty s
    else match s.strongRead c (s.warp c k) g.qobj (g.qoff + 8 * i) 8 .dev with
      | .ok y v =>
        match y.strongWrite c w r.obj r.off 4 .dev (i + 1) with
        | .ok z _ => z.pairDone c k r d 2 (some (BitVec.ofNat 64 v)) true
        | _ => s
      | .waits _ => s
      | .fails cause => s.reqFailed c k r d 3 true cause
  | .fails cause, _ => s.reqFailed c k r d 3 true cause
  | _, .fails cause => s.reqFailed c k r d 3 true cause
  | _, _ => s

/-! ### LARR -/

/-- LARR (R269). -/
def execLarr (h : Hdr) (sc : Scope) (d a b c : Nat) (s : State) : Host.Outcome State Fault Refusal :=
  .next (issue s { h := h, named := [(.k d, 1), (.k a, 2), (.k b, 2), (.k c, 1)], cm := true, once := true } (perRun fun x ts =>
    let w := x.me
    let t := ts.headD 0
    let ka := w.kPair a
    let kb := w.kPair b
    let n := (w.getK c).data.toNat
    let empty := if n = 0 then some (Cause.bounds, objAddr (capObj kb) (capOff kb)) else none
    match (plainCause w t [srcA (.k a) .arith 2, srcB (.k b) .arith 2, srcC (.k c)]).or (firstCause
        [x.syncCause x.myWg ka, x.checkRange x.myWg kb (capOff kb) { rights := 8, kinds := [0, 3, 5], size := n } 1, empty]) with
    | some (cause, addr) => .hit cause addr x
    | none => .ok (x.sendBoth h t ts (.k d) 1 (capObj ka) (capOff ka) 4 (some sc) (.larr (capObj kb) (capOff kb) n (.k d)))))
/-- The arrival (R269): the region's writes are performed, then COUNT rises; the last arriver acquires. -/
def State.larrStep (s : State) (c k : Nat) (r : Req) (robj roff len : Nat) (d : Dst) : State :=
  let w := s.warpFor c k r
  let g := s.wg c w.entry
  match s.releaseBy c k r.id r.threads (r.strong.getD .dev) fun o i => o == robj && decide (roff < 4 * i + 4 ∧ 4 * i < roff + len) with
  | .waits => s
  | .fails cause addr => (s.dropFailed c k r.threads addr).reqFailed c k r d 0 true cause
  | .sent x =>
    match x.strongRead c w r.obj (r.off + 4) 4 (r.strong.getD .dev) with
    | .waits _ => s
    | .fails cause => x.reqFailed c k r d 0 true cause
    | .ok y target =>
      match y.strongStep c w r.obj r.off 4 (r.strong.getD .dev) true fun v => some ((v + 1) % 2 ^ 32) with
      | .waits _ => s
      | .fails cause => y.reqFailed c k r d 0 true cause
      | .ok z v =>
        let n := (v + 1) % 2 ^ 32
        let q := if n = target then (z.acquireIn c g [objKeys g.ctx robj]).count c .larrMerges 1 else z
        q.pairDone c k r d 1 (some (BitVec.ofNat 64 n)) (n == target)

/-! ### RNEXT -/

/-- RNEXT (R272). -/
def execRnext (h : Hdr) (d a b : Nat) (s : State) : Host.Outcome State Fault Refusal :=
  .next (issue s { h := h, named := [(.k d, 2), (.k a, 2), (.k b, 1)], cm := true, once := true } (perRun fun x ts =>
    let w := x.me
    let cap := w.kPair a
    match (plainCause w (ts.headD 0) [srcA (.k a) .arith 2, srcB (.k b)]).or
        (x.checkRange x.myWg cap (capOff cap) { rights := 8, kinds := [0, 2, 3, 5, 6], size := 544 } 8) with
    | some (cause, addr) => .hit cause addr x
    | none =>
      .ok (x.sendBoth h (ts.headD 0) ts (.k d) 2 (capObj cap) (capOff cap) 4 (some .pod) (.rnext (w.getK b).data none 0 (.k d)))))
/-- The next read of an RNEXT: COUNT, then one entry after the other. The table's base is the request's own offset less
that of the entry it reads. -/
def State.rnextStep (s : State) (c k : Nat) (r : Req) (b : Word) (count : Option Nat) (i : Nat) (d : Dst) : State :=
  let w := s.warpFor c k r
  let none_ (x : State) : State := x.pairDone c k r d 2 (some 0xFFFFFFFF) false
  match s.strongRead c w r.obj r.off r.size .pod with
  | .waits _ => s
  | .fails cause => s.reqFailed c k r d 3 true cause
  | .ok x v =>
    match count with
    | none =>
      if v = 0 ∨ v > 64 ∨ b.toNat ≥ v then none_ x
      else x.nextAccess c k r r.obj (r.off + 32 + 8 * ((b.toNat + 1) % v)) 8 (.rnext b (some v) 1 d)
    | some n =>
      let j := (b.toNat + i) % n
      let e := BitVec.ofNat 64 v
      if !e.getLsbD 63 then
        x.pairDone c k r d 2 (some (dword (BitVec.ofNat 32 j) (BitVec.ofNat 32 (field e 32 6)))) (decide (j ≤ b.toNat))
      else if i ≥ n then none_ x
      else x.nextAccess c k r r.obj (r.off - 8 * j + 8 * ((b.toNat + i + 1) % n)) 8 (.rnext b (some n) (i + 1) d)

/-- The port of the request went down while it was on its way (R305). -/
def State.serviceLost (s : State) (c k : Nat) (r : Req) : State :=
  match r.op with
  | .pfxh _ d => s.reqFailed c k r d 3 false Cause.fabric
  | .larr _ _ _ d => s.reqFailed c k r d 0 true Cause.fabric
  | .kvx _ _ _ d => s.reqFailed c k r d 3 true Cause.fabric
  | .wqpop d => s.reqFailed c k r d 3 true Cause.fabric
  | .rnext _ _ _ d => s.reqFailed c k r d 3 true Cause.fabric
  | _ => s
/-- The next access of a request of this file. -/
def State.serviceStep (s : State) (c k : Nat) (r : Req) : State :=
  let w := s.warp c k
  if s.notYet c w r r.strong.isSome || (s.cluster c).crossing then s
  else if r.lost then s.serviceLost c k r
  else match r.op with
    | .kvx pos stride first d => s.kvxStep c k r pos stride first d
    | .pfxh prev d => s.pfxhStep c k r prev d
    | .wqpop d => s.wqpopStep c k r d
    | .larr robj roff len d => s.larrStep c k r robj roff len d
    | .rnext b count i d => s.rnextStep c k r b count i d
    | _ => s

end Sys2Proof.Machine
end

