-- ==== Sys2Proof/Machine/Work.lean ====
section
/-! DEFINITION. Work objects (R275 to R277), launch descriptors (R278), the device queues (R280), and the words LNCH (R91)
and WCAN (R92). -/

namespace Sys2Proof.Machine

/-! ### Launch descriptors -/

/-- A launch descriptor; `zero` says that its reserved fields are 0 and its offsets aligned. -/
structure LaunchDesc where
  cobj : Nat
  entry : Nat
  wgm1 : Nat
  threads : Nat
  alloc : Nat
  stk : Nat
  bobj : Nat
  boff : Nat
  wobj : Nat
  woff : Nat
  qobj : Nat
  qoff : Nat
  qcnt : Nat
  ae : Bool
  aentry : Nat
  wdog : Nat
  slice : Nat
  zero : Bool
  deriving DecidableEq, Repr, Inhabited

/-- The descriptor in eight doublewords. -/
def launchDesc (d : Nat → Dword) : LaunchDesc :=
  let f (i lo n : Nat) : Nat := field (d i) lo n
  { cobj := f 0 40 24, entry := f 0 0 36, wgm1 := f 1 32 32, threads := f 1 22 10 + 1, alloc := 8 * f 1 16 6
    stk := f 1 8 8, bobj := f 2 40 24, boff := f 2 0 36, wobj := f 3 40 24, woff := f 3 0 36, qobj := f 4 40 24
    qoff := f 4 0 36, qcnt := f 5 32 32, ae := f 6 63 1 == 1, aentry := f 6 0 36, wdog := 65536 * f 7 32 32
    slice := 1024 * f 7 16 16
    zero := f 0 36 4 == 0 && f 1 0 8 == 0 && f 2 36 4 == 0 && f 3 36 4 == 0 && f 4 36 4 == 0 && f 5 0 32 == 0 &&
      f 6 36 27 == 0 && f 7 0 16 == 0 && f 0 0 3 == 0 && f 2 0 4 == 0 && f 3 0 6 == 0 && f 4 0 3 == 0 && f 6 0 3 == 0 }

def LaunchDesc.warps (d : LaunchDesc) : Nat := (d.threads + 31) / 32
/-- A warp of this allocation is wide (R19). -/
def LaunchDesc.wide (d : LaunchDesc) : Bool := decide (d.alloc ≥ 136)
/-- A descriptor refused for its contents (R278). -/
def State.refusesDesc (s : State) (ctx : Nat) (d : LaunchDesc) : Bool :=
  let ok (o : Nat) : Bool := (s.desc ctx o).valid
  let c := s.desc ctx d.cobj
  !d.zero || decide (d.alloc < 16 ∨ d.alloc > 256) || decide (d.stk > 192) || (d.wide && decide (d.warps > 16)) ||
    !ok d.cobj || !ok d.bobj || !ok d.wobj || (d.qobj != 0 && !ok d.qobj) || c.kind != 6 || !hasRights c.rights 8

/-- The descriptor that a queue entry names, as Umailo reads it; none where its page has no place. -/
def State.readDesc (s : State) (ctx obj off : Nat) : Option LaunchDesc :=
  match s.objRead ctx obj off 64 with
  | some _ => some (launchDesc fun i => (s.dwRead ctx obj (off + 8 * i)).getD 0)
  | none => none

/-! ### Work objects -/

/-- A work object: its context, its object and its offset. -/
structure WorkId where
  ctx : Nat
  obj : Nat
  off : Nat
  deriving DecidableEq, Repr, Inhabited

def State.workDw (s : State) (w : WorkId) (i : Nat) : Dword := (s.dwRead w.ctx w.obj (w.off + 8 * i)).getD 0
def State.setWorkDw (s : State) (w : WorkId) (i : Nat) (d : Dword) : State := (s.dwWrite w.ctx w.obj (w.off + 8 * i) d).getD s
/-- The work object can be accessed. -/
def State.workHere (s : State) (w : WorkId) : Bool := (s.objRead w.ctx w.obj w.off 64).isSome
/-- Pages of work objects that Umailo or dispatch waits for are asked for (R165). -/
def State.askWork (s : State) (cl : Nat) (l : List WorkId) : State :=
  l.foldl (fun x w => match x.translate w.ctx w.obj w.off with
    | .waits cause => x.askPage w.ctx cl w.obj w.off cause
    | _ => x) s
def State.workCount (s : State) (w : WorkId) : Nat := field (s.workDw w 0) 0 32
def State.workLevel (s : State) (w : WorkId) : Nat := field (s.workDw w 2) 62 2
/-- STATUS: 0 pending, 1 running, 2 complete, 3 cancelled. -/
def State.workStatus (s : State) (w : WorkId) : Nat := field (s.workDw w 2) 60 2
def State.workFl (s : State) (w : WorkId) : Bool := (s.workDw w 2).getLsbD 59
def State.workCx (s : State) (w : WorkId) : Bool := (s.workDw w 2).getLsbD 58
def State.workPrio (s : State) (w : WorkId) : Nat := field (s.workDw w 2) 55 3
def State.workTarget (s : State) (w : WorkId) : Nat := field (s.workDw w 3) 32 32
def State.workDisp (s : State) (w : WorkId) : Nat := field (s.workDw w 3) 0 32
def State.workDeps (s : State) (w : WorkId) : Nat := field (s.workDw w 4) 32 32
/-- COUNT is written; GLOBAL is held at 1 (R275). -/
def State.setCount (s : State) (w : WorkId) (n : Nat) : State := s.setWorkDw w 0 (BitVec.ofNat 64 (2 ^ 32 + n % 2 ^ 32))
/-- The object is under way: GLOBAL is held; or at its end, and stays as the last COUNT left it (log 75). -/
def State.workHeld (s : State) (w : WorkId) : State := s.holdGlobal w.ctx w.obj w.off
def State.workFreed (s : State) (w : WorkId) : State := s.freeGlobal w.ctx w.obj w.off
def State.setStatus (s : State) (w : WorkId) (n : Nat) : State := s.setWorkDw w 2 (setField (s.workDw w 2) 60 2 n)
def State.setWorkBit (s : State) (w : WorkId) (b : Nat) : State := s.setWorkDw w 2 (setField (s.workDw w 2) b 1 1)
def State.addDisp (s : State) (w : WorkId) : State := s.setWorkDw w 3 (setField (s.workDw w 3) 0 32 (s.workDisp w + 1))

/-- The parent: PARENT names its object; it lies at offset 0 (log 19). -/
def State.parentOf (s : State) (w : WorkId) : Option WorkId :=
  let p := field (s.workDw w 2) 0 24
  if p = 0 then none else some { ctx := w.ctx, obj := p, off := 0 }
/-- The parent, its parent, and so on: graph, phase, job. -/
def State.above (s : State) (w : WorkId) : Nat → List WorkId
  | 0 => []
  | n + 1 => match s.parentOf w with
    | none => []
    | some p => p :: s.above p n
def State.ancestors (s : State) (w : WorkId) : List WorkId := s.above w 3

/-- The object, or one of those above it, is `r`. -/
def State.under (s : State) (w r : WorkId) : Bool := w == r || (s.ancestors w).contains r
/-- A launch as a reference to its descriptor names it. -/
def State.launchWork (s : State) (ctx obj off : Nat) : List WorkId :=
  match s.readDesc ctx obj off with
  | some d => [{ ctx := ctx, obj := d.wobj, off := d.woff }]
  | none => []
/-- Launches that Umailo has taken, at `w` or below it, begin to wait for a place now (R284). -/
def State.sinceNow (s : State) (w : WorkId) : State :=
  { s with launches := s.launches.map fun l =>
      if (s.launchWork l.ctx l.dobj l.doff).any fun v => s.under v w then { l with since := s.tick } else l }

/-! ### Completion (R276) -/

/-- Umailo decrements DEPS of the successors: the edges of a graph are Umailo's, so which of the launches of the same graph
they are is free (log 20). -/
def State.decDeps (s : State) (w : WorkId) : State :=
  let l := (Config.freeEdges s.frees).eraseDups.map fun e => ({ ctx := w.ctx, obj := e.1, off := e.2 } : WorkId)
  l.foldl (fun x v =>
    if v != w && (x.desc v.ctx v.obj).valid && x.workHere v && x.workLevel v == 0 && x.parentOf v == x.parentOf w &&
        (x.parentOf w).isSome && x.workDeps v != 0 then
      (x.setWorkDw v 4 (setField (x.workDw v 4) 32 32 (x.workDeps v - 1))).sinceNow v
    else x) { s with frees := s.frees + 1 }

/-- The count has reached TARGET of an object that is not complete and not to be cancelled. -/
def State.countFull (s : State) (w : WorkId) : Bool :=
  s.workCount w == s.workTarget w && decide (s.workStatus w < 2) && !s.workCx w
/-- One completion below an object: its COUNT, and the child's FL. -/
def State.raise (s : State) (w : WorkId) (fl : Bool) : State :=
  let x := s.setCount w (s.workCount w + 1)
  if fl then x.setWorkBit w 59 else x
/-- What is known of an object's cancelled children goes, at its end and where it is used anew (R276, R277). -/
def State.dropSkips (s : State) (w : WorkId) : State := { s with skips := s.skips.filter fun p => p != (w.ctx, w.obj, w.off) }
/-- An object completes, and so may its parents. -/
def State.finish (s : State) (w : WorkId) : Nat → State
  | 0 => s
  | n + 1 =>
    let x := (((s.setStatus w 2).workFreed w).dropSkips w).decDeps w
    match x.parentOf w with
    | none => x
    | some p =>
      let y := x.raise p (x.workFl w)
      if y.countFull p then y.finish p n else y

/-! ### Cancelling (R277) -/

def Wg.work (g : Wg) : WorkId := { ctx := g.ctx, obj := g.wobj, off := g.woff }
/-- The launches of the workgroups that are resident. -/
def State.residents (s : State) : List WorkId := (s.clusters.flatMap fun c => c.2.wgs.map fun g => g.2.work).eraseDups
def State.runningUnder (s : State) (r : WorkId) : Bool := s.residents.any fun w => s.under w r

/-- The launches that the module knows: resident, taken by Umailo, or in a device queue. -/
def State.known (s : State) : List WorkId :=
  (s.residents ++ (s.launches.flatMap fun l => s.launchWork l.ctx l.dobj l.doff) ++
    (s.ctxs.flatMap fun c => (c.2.queue0 ++ c.2.queue1).flatMap fun e => s.launchWork c.1 e.1 e.2.1)).eraseDups

/-- The object and those on the way to it from the launches below, lowest level first, that are not complete. -/
def State.cancelled (s : State) (r : WorkId) (more : List WorkId) : List WorkId :=
  let l := (((more ++ s.known).filter fun w => s.under w r).flatMap fun w => w :: (s.ancestors w).filter fun p => s.under p r)
  let m := ((r :: l).filter fun w => decide (s.workStatus w < 2)).eraseDups
  (List.range 4).flatMap fun k => m.filter fun w => s.workLevel w == k
/-- Every object that a cancel writes can be accessed: those it cancels, and those above them. -/
def State.cancelObjs (s : State) (r : WorkId) (more : List WorkId) : List WorkId := r :: s.ancestors r ++ s.cancelled r more
def State.cancelHere (s : State) (r : WorkId) (more : List WorkId) : Bool := (s.cancelObjs r more).all fun w => s.workHere w
/-- The steps of R277 for an object with CX under which nothing runs. One that had not started counts in its parent's COUNT and never in
DISP: it is remembered as skipped. -/
def State.cancelDone (s : State) (r : WorkId) (more : List WorkId) : State :=
  let l := s.cancelled r more
  let x := l.foldl (fun y w => y.setCount w (y.workTarget w)) s
  let y := l.foldl (fun z w => ((z.setStatus w 3).workFreed w).dropSkips w) x
  match y.parentOf r with
  | none => y
  | some p =>
    let z : State := { y.raise p (y.workFl r) with
      skips := if s.workStatus r = 0 then y.skips ++ [(p.ctx, p.obj, p.off)] else y.skips }
    if z.countFull p then z.finish p 4 else z
/-- Cancelled objects over launch `w`, itself included, complete once nothing runs under them. -/
def State.cancelCheck (s : State) (w : WorkId) : State :=
  (w :: s.ancestors w).foldl (fun x r =>
    if x.workCx r && decide (x.workStatus r < 2) && !x.runningUnder r then x.cancelDone r [w] else x) s

/-! ### The device queues (R280) -/

def Ctx.queue (x : Ctx) (die : Nat) : List (Nat × Nat × Nat) := if die = 0 then x.queue0 else x.queue1
def Ctx.setQueue (x : Ctx) (die : Nat) (q : List (Nat × Nat × Nat)) : Ctx :=
  if die = 0 then { x with queue0 := q } else { x with queue1 := q }
/-- A launch enters the device queue of its context; none where the ring is full. -/
def State.enqueueLaunch (s : State) (ctx die obj off : Nat) : Option State :=
  let x := s.ctx ctx
  if (x.queue die).length ≥ 1024 then none
  else
    let held := (s.launchWork ctx obj off).foldl (fun (z : State) w => (w :: z.ancestors w).foldl State.workHeld z) s
    let y : State := { held with enqueued := s.enqueued + 1 }
    some (y.setCtx ctx (x.setQueue die (x.queue die ++ [(obj, off, s.enqueued)])))

/-! ### LNCH -/

/-- A load of a descriptor, in doublewords from number `i`. -/
def State.loadDws (s : State) (c : Nat) (w : Warp) (obj off : Nat) : Nat → Got (List Dword)
  | 0 => .ok s []
  | n + 1 =>
    match s.loadDws c w obj off n with
    | .ok x l =>
      match x.anyRead c w obj (off + 8 * n) 8 with
      | .ok y v => .ok y (l ++ [BitVec.ofNat 64 v])
      | .waits cause => .waits cause
      | .fails cause => .fails cause
    | g => g

/-- What a checked LNCH comes to: done, accepted or not; or it waits at the word; or its load or its release meets a cause. -/
inductive Launched where
  | done (s : State) (ok : Bool)
  | waits
  | fails (cause : Byte) (addr : Dword)

def State.lnchGo (s : State) (ts : List Nat) (cap : Dword) : Launched :=
  let c := s.cur.cl
  let obj := capObj cap
  let off := capOff cap
  match s.loadDws c s.me obj off 8 with
  | .waits _ => .waits
  | .fails cause => .fails cause (objAddr obj off)
  | .ok x l =>
    if x.me.tarnOpen ts then .waits
    else match x.releaseBy c s.cur.slot x.me.nextId ts .dev fun _ _ => true with
      | .waits => .waits
      | .fails cause addr => .fails cause addr
      | .sent y =>
        if y.refusesDesc y.myCtx (launchDesc fun i => l.getD i 0) then .done y false
        else if y.myCluster.crossing then .waits
        else match y.enqueueLaunch y.myCtx (dieOf c) obj off with
          | some z => .done z true
          | none => .done y false

/-- A page that is not present and that a LNCH waits for: its descriptor's, or one of its release's (R165). -/
def State.lnchStuck (s : State) (ts : List Nat) (cap : Dword) : Option (Nat × Nat) :=
  let w := s.me
  match s.place w s.myCtx (capObj cap) (capOff cap) 64 with
  | .waits cause => if cause = Cause.translation then some (capObj cap, capOff cap) else none
  | _ => s.stuckWord s.cur.cl w fun _ _ _ e => e.byAny (w.writers ts)
/-- A word that stays in issue waits for a page that is not present: one KIND 0 record is posted, and the warp issues nothing while it is
open (R165, R290). -/
def State.stayFor (s : State) (ts : List Nat) (p : Option (Nat × Nat)) : State :=
  match p with
  | none => s
  | some (obj, off) =>
    let q := s.portRecord s.cur.cl s.cur.slot Cause.translation obj off s.cur.pc (maskOf ts)
    q.2.modMe fun w => { w with fetchRec := q.1 }

/-- What LNCH raises before it acts, in the order of R91. -/
def lnchCause (x : State) (t : Nat) (ts : List Nat) (ka : Nat) : Option (Byte × Dword) :=
  let w := x.me
  let l := [srcA (.k ka) .arith 2]
  let cap := w.kPair ka
  ((checkSrcs w t l).or (x.checkRange x.myWg cap (capOff cap) { rights := 9, kinds := [0], size := 64 } 64)).or
    (if resultPlate w t ts l then some (Cause.plateEscape, 1) else none)

/-- LNCH (R91). It stays in issue while its load or its release has to wait. -/
def execLnch (h : Hdr) (ka : Nat) (s : State) : Host.Outcome State Fault Refusal :=
  let x : Shape := { h := h, named := [(.k ka, 2)], cm := true, once := true }
  let w := s.me
  let act := s.cur.run.filter fun t => w.guarded h.g t && (w.due x t).isNone && !w.guardPlated h t
  let free := (decodeCause s x).isNone && (w.portThreads s.cur.run x).isEmpty && !act.isEmpty
  let stays := free && (lnchCause s (act.headD 0) act ka).isNone && (match s.lnchGo act (w.kPair ka) with
    | .waits => true
    | _ => false)
  .next (if stays then s.stayFor act (s.lnchStuck act (w.kPair ka)) else issue s x (perRun fun y ts =>
    match lnchCause y (ts.headD 0) ts ka with
    | some (cause, addr) => .hit cause addr y
    | none =>
      match y.lnchGo ts (y.me.kPair ka) with
      | .done z ok => .ok (ts.foldl (fun q t => q.writeCm t ok false) z)
      | .fails cause addr => .hit cause addr (y.dropFailed y.cur.cl y.cur.slot ts addr)
      | .waits => .ok y))

/-! ### WCAN -/

/-- WCAN (R92, R277): CX is set; with nothing running under the object, the cancel completes. It stays in issue while a work object that it
writes has to wait. -/
def execWcan (h : Hdr) (_lvl : BitVec 2) (ka : Nat) (s : State) : Host.Outcome State Fault Refusal :=
  let x : Shape := { h := h, named := [(.k ka, 2)], once := true }
  let w := s.me
  let cap := w.kPair ka
  let act := s.cur.run.filter fun t => w.guarded h.g t && (w.due x t).isNone && !w.guardPlated h t
  let cause (y : State) (ts : List Nat) : Option (Byte × Dword) :=
    let l := [srcA (.k ka) .arith 2]
    ((checkSrcs y.me (ts.headD 0) l).or (y.checkRange y.myWg cap (capOff cap) { rights := 1, kinds := [0], size := 64 } 64)).or
      (if resultPlate y.me (ts.headD 0) ts l then some (Cause.plateEscape, 1) else none)
  let place := s.placeFrom s.cur.cl w s.myCtx (capObj cap) (capOff cap) 64
  let stays := (decodeCause s x).isNone && (w.portThreads s.cur.run x).isEmpty && !act.isEmpty && (cause s act).isNone &&
    (match place with
      | .waits _ => true
      | .fails _ => false
      | .found _ => !s.cancelHere { ctx := s.myCtx, obj := capObj cap, off := capOff cap } [])
  let far := (s.cancelObjs { ctx := s.myCtx, obj := capObj cap, off := capOff cap } []).find? fun r => match s.translate r.ctx r.obj r.off with
    | .waits cause => cause == Cause.translation
    | _ => false
  .next (if stays then s.stayFor act (if place = .waits Cause.translation then some (capObj cap, capOff cap) else far.map fun r => (r.obj, r.off))
    else issue s x (perRun fun y ts =>
    match cause y ts with
    | some (q, addr) => .hit q addr y
    | none =>
      match place with
      | .fails q => .hit q (objAddr (capObj cap) (capOff cap)) y
      | _ =>
        let r : WorkId := { ctx := y.myCtx, obj := capObj cap, off := capOff cap }
        let z := y.setWorkBit r 58
        .ok (if decide (z.workStatus r < 2) && !z.runningUnder r then z.cancelDone r [] else z)))

end Sys2Proof.Machine
end

