-- ==== Sys2Proof/Machine/Place.lean ====
section
/-! DEFINITION. Where a workgroup can go (R15, R18, R19, R154, R167, R340), Umailo's taking of launches and writing of bind
records (R276, R280, R281, R284), and the gating of idle clusters (R286). -/

namespace Sys2Proof.Machine

/-! ### Slots and lanes -/

/-- What a workgroup asks for: warps, registers per thread, stash granules, a control-core stream. -/
structure Need4 where
  warps : Nat
  alloc : Nat
  stk : Nat
  ae : Bool
  deriving DecidableEq, Repr, Inhabited

def LaunchDesc.need (d : LaunchDesc) : Need4 := { warps := d.warps, alloc := d.alloc, stk := d.stk, ae := d.ae }
def Wg.need (g : Wg) : Need4 := { warps := g.warps, alloc := g.alloc, stk := g.stn, ae := g.ae }
def wideAlloc (n : Nat) : Bool := decide (n ≥ 136)

/-- The four slots of a wide warp's group (R18). -/
def groupMask (s : Nat) : Dword := (3#64 <<< s) ||| (3#64 <<< (s + 32))
/-- The positions that a SLOTS mask names, in order: none where they do not form whole groups. -/
def positions (m : Dword) (wide : Bool) : Option (List Nat) :=
  if wide then
    let g := ((List.range 16).map fun i => 2 * i).filter fun s => m.getLsbD s
    if g.foldl (fun x s => x ||| groupMask s) 0 = m then some g else none
  else some ((List.range 64).filter fun s => m.getLsbD s)
/-- The slots that a warp at a position holds. -/
def heldSlots (s alloc : Nat) : List Nat := if wideAlloc alloc then [s, s + 1, s + 32, s + 33] else [s]

/-- Warps of a bench: the slot of each with its allocation. -/
def Cluster.benchWarps (x : Cluster) (b : Nat) : List (Nat × Nat) :=
  (x.warps.filter fun p => p.1 != Config.coreSlot && p.1 / 64 == b).map fun p => (p.1 % 64, p.2.alloc)
def Cluster.taken (x : Cluster) (b : Nat) : List Nat := (x.benchWarps b).flatMap fun p => heldSlots p.1 p.2
/-- Registers per thread that the seats of a lane use. -/
def Cluster.laneUse (x : Cluster) (b lane : Nat) : Nat :=
  (((x.benchWarps b).filter fun p => p.1 % 32 == lane).map fun p => p.2).sum
/-- The warps of a workgroup can take the positions (R18, R19). -/
def Cluster.seatsOk (x : Cluster) (b : Nat) (l : List Nat) (n : Need4) : Bool :=
  l.length == n.warps && l.all (fun s => (heldSlots s n.alloc).all fun q => !(x.taken b).contains q) &&
    (wideAlloc n.alloc || (List.range 32).all fun lane =>
      decide (x.laneUse b lane + n.alloc * (l.filter fun s => s % 32 == lane).length ≤ 128))
/-- Positions that are free for warps of an allocation. -/
def Cluster.room (x : Cluster) (b alloc : Nat) : Nat :=
  if wideAlloc alloc then
    ((List.range 16).filter fun i => (heldSlots (2 * i) alloc).all fun q => !(x.taken b).contains q).length
  else
    ((List.range 32).map fun lane =>
      min (([lane, lane + 32].filter fun q => !(x.taken b).contains q).length) ((128 - x.laneUse b lane) / max alloc 1)).sum

/-! ### Stash -/

/-- No workgroup has a granule of the range. -/
def Cluster.stashFree (x : Cluster) (b n : Nat) : Bool :=
  x.wgs.all fun g => decide (b + n ≤ g.2.stb ∨ g.2.stb + g.2.stn ≤ b) || n == 0 || g.2.stn == 0
/-- The stash part in force, or the one that a record will set (R167). -/
def Cluster.part (x : Cluster) (spart : Nat) : Nat := if x.wgs.isEmpty then spart else x.spart

/-- The record meets R15, R18, R19, R154 and R167. -/
def Cluster.recordOk (x : Cluster) (e : SlotEnt) (n : Need4) : Bool :=
  decide (e.bench < 4) && (match positions e.slots (wideAlloc n.alloc) with
    | some l => x.seatsOk e.bench l n
    | none => false) &&
  e.stn == n.stk && decide (x.part e.spart ≤ 192) && decide (e.stb + e.stn ≤ x.part e.spart) && x.stashFree e.stb e.stn &&
  !(n.ae && x.wgs.any fun g => g.2.ae)

/-- A record of the slot table that dispatch has not acted on. -/
def Cluster.unbound (x : Cluster) : Bool := x.slots.any fun e => e.2.v && e.2.st == 0
def Cluster.entryFree (x : Cluster) (i : Nat) : Bool := let e := Tab.get {} x.slots i; !e.v && e.st == 0
/-- The cluster has a place for a workgroup. -/
def Cluster.hasRoom (x : Cluster) (n : Need4) : Bool :=
  !x.unbound && (List.range 16).any x.entryFree && (List.range 4).any (fun b => decide (x.room b n.alloc ≥ n.warps)) &&
  (x.wgs.isEmpty || (List.range (x.spart + 1 - n.stk)).any fun b => x.stashFree b n.stk) && !(n.ae && x.wgs.any fun g => g.2.ae)

/-! ### Umailo's choice (R284, R340) -/

/-- Clusters of a die that Umailo binds to. -/
def State.openClusters (s : State) (die : Nat) : List Nat :=
  ((List.range Config.dieClusters).map fun i => die * Config.dieClusters + i).filter fun c => !s.retiredClusters.contains c
def State.hasPlace (s : State) (die : Nat) (n : Need4) : Bool := (s.openClusters die).any fun c => (s.cluster c).hasRoom n
/-- Umailo runs on the die, one of two (R2), the host is admitted (R330), and the module dispatches (R322). -/
def State.dispatches (s : State) (die : Nat) : Bool := decide (die < 2) && decide (s.boot ≥ 8) && s.health != 2 && !s.deadDies.contains die

def Launch.work (l : Launch) (d : LaunchDesc) : WorkId := { ctx := l.ctx, obj := d.wobj, off := d.woff }
/-- A launch may bind: not cancelled, its predecessors complete, every ancestor running (R276, R277). -/
def State.eligible (s : State) (w : WorkId) : Bool :=
  s.workHere w && decide (s.workStatus w < 2) && !s.workCx w && s.workDeps w == 0 &&
  (s.ancestors w).all fun p => s.workHere p && s.workStatus p == 1 && !s.workCx p
/-- `a` comes before `b`: higher PRIO, or the same and enqueued earlier. -/
def before (a b : Nat × Nat) : Bool := decide (a.1 > b.1) || (a.1 == b.1 && decide (a.2 < b.2))
/-- A launch that has waited so long has a reservation (R284). -/
def reserveTicks : Nat := 3000000
/-- Some launch of the die that comes before binds first, or has a reservation (R284): Umailo reserves from the tick on at which the
wait is over, told of it by PLACEMENT_RESERVATION or not yet. -/
def State.outranked (s : State) (l : Launch) (prio : Nat) : Bool :=
  s.launches.any fun m =>
    m.die == l.die && m.enq != l.enq && (match s.readDesc m.ctx m.dobj m.doff with
      | none => false
      | some d =>
        s.eligible (m.work d) && before (s.workPrio (m.work d), m.enq) (prio, l.enq) && 
          (m.reserved || decide (m.since + reserveTicks ≤ s.tick) || s.hasPlace m.die d.need))

/-! ### Starting the levels above (R276) -/

/-- Children of an object that were cancelled before they started (R276, R277). -/
def State.skipped (s : State) (p : WorkId) : Nat := s.skips.countP (· == (p.ctx, p.obj, p.off))
/-- An object above a launch is started: a job when it is admitted; a phase or a graph once its parent runs, those started before
it under the parent have completed, and its turn in Umailo's order has come, which is free (log 20). -/
def State.startOne (s : State) (p : WorkId) : State :=
  if s.workStatus p != 0 then s
  else
    match s.parentOf p with
    | none => (s.setStatus p 1).sinceNow p
    | some q =>
      if s.workStatus q != 1 || s.workCount q != s.workDisp q + s.skipped q then s
      else
        let f := s.free
        if f.1.getLsbD 0 then ((f.2.setStatus p 1).addDisp q).sinceNow p else f.2
/-- From the job down. -/
def State.startAbove (s : State) (w : WorkId) : State := (s.ancestors w).reverse.foldl (fun x p => x.startOne p) s

/-! ### DEVICE_QUEUE_TAKE -/

/-- The page of a descriptor that Umailo waits for is asked for (R165). -/
def State.askDesc (s : State) (ctx die obj off : Nat) : State := match s.translate ctx obj off with
  | .waits cause => s.askPage ctx (die * Config.dieClusters) obj off cause
  | _ => s
/-- Umailo takes the entry at the head of a context's ring (R280); a descriptor that is refused is dropped, and reported. An object above it
whose COUNT is 0 has had no child cancelled yet. -/
def State.takeEntry (s : State) (die ctx : Nat) : State :=
  let x := s.ctx ctx
  match x.queue die with
  | [] => s
  | (obj, off, n) :: r =>
    match s.readDesc ctx obj off with
    | none => s.askDesc ctx die obj off
    | some d =>
      let y := s.setCtx ctx (x.setQueue die r)
      let w : WorkId := { ctx := ctx, obj := d.wobj, off := d.woff }
      if y.refusesDesc ctx d then y.tell 2 ctx
      else if !((w :: s.ancestors w).all fun p => s.workHere p) then s.askWork (die * Config.dieClusters) (w :: s.ancestors w)
      else if decide (y.workStatus w ≥ 2) then y
      else
        let new := (y.ancestors w).foldl (fun (x : State) p => if x.workCount p = 0 then x.dropSkips p else x) y
        let z := ((w :: y.ancestors w).foldl State.workHeld new).startAbove w
        { z with launches := z.launches ++
            [{ die := die, ctx := ctx, dobj := obj, doff := off, enq := n, since := z.tick }] }

/-- Umailo writes the bind record of a launch's next workgroup; V is written last. -/
def State.writeRecord (s : State) (p : Sys2Proof.Place) (l : Launch) (d : LaunchDesc) : State :=
  let e : SlotEnt :=
    { v := true, bench := p.bench, lobj := d.wobj, wgid := l.next, slots := p.slots, stb := p.stb, stn := d.stk
      spart := p.spart, dctx := l.ctx, dobj := l.dobj, doff := l.doff }
  let x := s.modCluster p.cl fun q => { q with slots := Tab.put q.slots p.entry e }
  { x with launches := x.launches.filterMap fun m =>
      if m.enq != l.enq then some m
      else if l.next = d.wgm1 then none
      else some { m with next := l.next + 1, reserved := false, since := s.tick } }

/-- The place is one that Umailo may choose for a workgroup (R340). -/
def State.placeOk (s : State) (p : Sys2Proof.Place) (die : Nat) (n : Need4) : Bool :=
  let x := s.cluster p.cl
  (s.openClusters die).contains p.cl && decide (p.entry < 16) && x.entryFree p.entry && !x.unbound &&
  x.recordOk { bench := p.bench, slots := p.slots, stb := p.stb, stn := n.stk, spart := p.spart } n

/-- Umailo places the next workgroup of a launch that it has taken. -/
def State.placeLaunch (s : State) (l : Launch) (p : Sys2Proof.Place) : State :=
  match s.readDesc l.ctx l.dobj l.doff with
  | none => s.askDesc l.ctx l.die l.dobj l.doff
  | some d =>
    let w := l.work d
    let x := (s.askWork (l.die * Config.dieClusters) (w :: s.ancestors w)).startAbove w
    if x.eligible w && !x.outranked l (x.workPrio w) && x.placeOk p l.die d.need then x.writeRecord p l d else x

/-- A bind record with RST = 1 for a saved image (R281, R293), on the die whose queue held its launch (R340). -/
def State.placeImage (s : State) (die : Nat) (m : Image) (p : Sys2Proof.Place) : State :=
  let w := m.wg.work
  if die == m.die && s.placeOk p die m.wg.need && (w :: s.ancestors w).all (fun q => s.workHere q && !s.workCx q) then
    let e : SlotEnt :=
      { v := true, rst := true, bench := p.bench, lobj := m.wg.wobj, wgid := m.wg.wgid, slots := p.slots, stb := p.stb
        stn := m.wg.stn, spart := p.spart, iobj := m.obj, ioff := m.off, dctx := m.wg.ctx, dobj := m.wg.dobj
        doff := m.wg.doff }
    s.modCluster p.cl fun q => { q with slots := Tab.put q.slots p.entry e }
  else s.askWork (die * Config.dieClusters) (w :: s.ancestors w)

/-- DEVICE_QUEUE_TAKE (R280, R284, R340): Umailo takes a ring entry, or writes the record of a launch it has taken, or of a
saved workgroup (numbered after the launches). -/
def execDeviceQueueTake (die ctx : Nat) (idx : Option Nat) (place : Option Sys2Proof.Place) (s : State) : Host.Outcome State Fault Refusal :=
  .next (if !s.dispatches die then s
    else match idx, place with
      | some i, some p =>
        (match s.launches[i]? with
          | some l => if l.die = die ∧ l.ctx = ctx then s.placeLaunch l p else s
          | none =>
            match s.images[i - s.launches.length]? with
            | some m => if m.wg.ctx = ctx then s.placeImage die m p else s
            | none => s)
      | _, _ => s.takeEntry die ctx)

/-- PLACEMENT_RESERVATION (R284): a launch that has waited 3,000,000 ticks for a place. -/
def execPlacementReservation (die idx : Nat) (s : State) : Host.Outcome State Fault Refusal :=
  .next (match s.launches[idx]? with
    | none => s
    | some l =>
      match s.readDesc l.ctx l.dobj l.doff with
      | none => s
      | some d =>
        if s.dispatches die && l.die == die && s.eligible (l.work d) && !s.hasPlace die d.need &&
            decide (l.since + reserveTicks ≤ s.tick) then
          { s with launches := s.launches.map fun m => if m.enq = l.enq then { m with reserved := true } else m }
        else s)

/-! ### CLUSTER_GATE -/

/-- Dirty words of an L1 are written back, and the L1 is emptied: none where a page has to wait. -/
def State.drainL1 (s : State) (c : Nat) : Option State :=
  ((s.cluster c).l1.foldl (fun (o : Option State) e =>
    match o with
    | none => none
    | some x =>
      if e.2.own && e.2.dirty then
        match x.flushWord c {} (keyCtx e.1) (keyObj e.1) (keyWord e.1) e.2.data with
        | .ok y _ => some y
        | .waits _ => none
        | .fails _ => some x
      else some x) (some s)).map fun x => x.modCluster c fun q => { q.dropWords fun _ _ => true with homeOnly := [] }
/-- Pages that such a write-back waits for are asked for (R165). -/
def State.askL1 (s : State) (c : Nat) : State :=
  (s.cluster c).l1.foldl (fun x e =>
    if e.2.own && e.2.dirty then
      match s.placeFrom c {} (keyCtx e.1) (keyObj e.1) (4 * keyWord e.1) 4 with
      | .waits cause => x.askPage (keyCtx e.1) c (keyObj e.1) (4 * keyWord e.1) cause
      | _ => x
    else x) s

/-- A retired cluster keeps no data (R323): nothing but its clock is left of it. -/
def Cluster.erased (x : Cluster) : Cluster :=
  { m := x.m, boost := x.boost, stretch := x.stretch, cyc := x.cyc, phase := x.phase, shakes := x.shakes, gated := x.gated
    idleAt := x.idleAt, claimNo := x.claimNo, nextId := x.nextId }
/-- The cluster is retired and idle: its retirement takes effect, once what its L1 owns can be written back (R323). -/
def State.retiredIdle (s : State) (c : Nat) : Bool := s.retiredClusters.contains c && (s.cluster c).idle
/-- Clusters of which a retirement is to take effect now. -/
def State.eraseDue (s : State) : List Nat :=
  s.retiredClusters.filter fun c => s.retiredIdle c && (s.cluster c).erased != s.cluster c && (s.drainL1 c).isSome

/-- A cluster that can be gated, once it has been idle for long enough. -/
def State.gateable (s : State) (c : Nat) : Bool :=
  decide (c < Config.clusters) && decide (s.boot ≥ 6) && !(s.cluster c).gated && (s.cluster c).idle && (s.drainL1 c).isSome
/-- Ticks after which an idle cluster is gated (R286). -/
def gateTicks : Nat := 30000
/-- Ticks by which clusters are gated. One that has held nothing since reset has nothing to lose by it, and stops no tick. -/
def State.gateDues (s : State) : List Nat :=
  s.clusters.filterMap fun e => if s.gateable e.1 then some (max s.tick (e.2.idleAt + gateTicks)) else none
/-- CLUSTER_GATE (R286, R323): a cluster that has been idle for 30,000 ticks, and whose L1 can be written back; one that is retired
keeps no data from the first idle tick on. -/
def execClusterGate (cl : Nat) (s : State) : Host.Outcome State Fault Refusal :=
  let x := s.cluster cl
  .next (if s.retiredIdle cl && (x.erased != x) then
      match s.drainL1 cl with
      | some y => y.modCluster cl Cluster.erased
      | none => s.askL1 cl
    else if decide (cl < Config.clusters) && decide (s.boot ≥ 6) && !x.gated && x.idle && decide (x.idleAt + gateTicks ≤ s.tick) then
      match s.drainL1 cl with
      | some y => y.modCluster cl fun q => { q with gated := true, lvt := [] }
      | none => s.askL1 cl
    else s)

end Sys2Proof.Machine
end

