-- ==== Sys2Proof/Machine/Retire.lean ====
section
/-! DEFINITION. The end of a warp's work and of a workgroup (R31 to R33, R154, R176, R205, R276): WARP_RETIRE,
TRACKER_ENTRY_FREE, WORKGROUP_COMPLETE; and the kill of a workgroup (R290). -/

namespace Sys2Proof.Machine

/-- WARP_RETIRE (R31): the work of a warp that exited is performed: its slot and registers are free. -/
def execWarpRetire (cl slot : Nat) (s : State) : Host.Outcome State Fault Refusal :=
  .next (match look (s.cluster cl).warps slot with
    | some w => if w.retiring && !w.unfinished then s.modCluster cl fun x => { x with warps := Tab.del x.warps slot } else s
    | none => s)

/-- Threads in TRACK issue their TAIL again (R32). -/
def Warp.untrack (w : Warp) : Warp :=
  { w with threads := w.threads.map fun t => if t.2.st = .track then (t.1, { t.2 with st := .ready }) else t }
/-- TRACKER_ENTRY_FREE (R32). -/
def execTrackerEntryFree (cl entry : Nat) (s : State) : Host.Outcome State Fault Refusal :=
  .next (match look (s.cluster cl).tracker entry with
    | some w =>
      if w.unfinished then s
      else (s.modCluster cl fun x =>
        { x with tracker := Tab.del x.tracker entry, warps := x.warps.map fun p => (p.1, p.2.untrack) }).idleMark cl
    | none => s)

/-! ### Records that name a workgroup and no thread -/

/-- The lowest warp slot that the workgroup's record names. -/
def Cluster.firstSlot (x : Cluster) (e : Nat) : Nat :=
  let q := Tab.get {} x.slots e
  64 * q.bench + ((List.range 64).find? fun i => q.slots.getLsbD i).getD 0
/-- A record of a cause that no word met (log 22). -/
def State.wgRecord (s : State) (c e : Nat) (cause : Byte) (addr : Dword) (kind : Nat) : State :=
  let g := s.wg c e
  s.post g.ctx { cause := cause, cl := c, slot := (s.cluster c).firstSlot e, wgid := g.wgid, addr := addr, lobj := g.wobj
                 pc := 0, lanes := 0, kind := kind }
/-- A drain error of the workgroup's write-backs (R32, R290). -/
def State.wgDrain (s : State) (c e : Nat) (cause : Byte) (addr : Dword) : State :=
  let g := s.wg c e
  ((s.modWg c e fun x => { x with failed := true }).wgRecord c e cause addr 3).setFl g.ctx g.wobj g.woff

/-! ### WORKGROUP_COMPLETE -/

/-- Every thread of the workgroup is EXITED and none of its warps, its stream, or the array has work left (R33, R154). -/
def Cluster.drained (x : Cluster) (e : Nat) : Bool :=
  (x.warps.all fun p => p.2.entry != e || (p.2.members.isEmpty && !p.2.unfinished)) &&
  (x.tracker.all fun p => p.2.entry != e) && (x.acts.all fun a => a.entry != e) && (!(x.wg e).ae || x.queue.isEmpty)

/-- A live mapping of the workgroup covers word `i` of an object. -/
def Wg.covers (g : Wg) (obj i : Nat) : Bool :=
  g.maps.any fun m => m.2.live && capObj m.2.cap == obj &&
    decide (capOff m.2.cap ≤ 4 * i ∧ 4 * i < capOff m.2.cap + m.2.len)
/-- The weak writes of a workgroup, and what its mappings hold, are performed (R176, R205). -/
def State.flushWg (s : State) (c e : Nat) : Got (List (Byte × Dword)) :=
  let g := s.wg c e
  s.flushAll c { entry := e } (fun ctx obj i w => ctx == g.ctx && ((w.writers.any fun p => p.1 == e) || g.covers obj i))
    ((s.cluster c).wordsHeld + 1)

/-- A write-back of the workgroup that waits for a page that is not present has a KIND 0 record (R165). -/
def State.flushRecord (s : State) (c e : Nat) : State :=
  let g := s.wg c e
  if s.recordOpen g.flushRec then s
  else match s.stuckWord c { entry := e } fun ctx obj i w =>
      ctx == g.ctx && ((w.writers.any fun p => p.1 == e) || g.covers obj i) with
    | some (obj, off) =>
      (s.wgRecord c e Cause.translation (objAddr obj off) 0).modWg c e fun x =>
        { x with flushRec := s.nextRecord g.ctx (dieOf c) }
    | none => s
/-- What a workgroup held on its cluster is released and zeroed; its slot-table entry is free (R33, R154, R282). -/
def Cluster.freeWg (x : Cluster) (e : Nat) : Cluster :=
  let g := x.wg e
  let lo := 4096 * g.stb
  let hi := lo + 4096 * g.stn
  { x with
    wgs := Tab.del x.wgs e
    warps := x.warps.filter fun p => p.2.entry != e
    stash := x.stash.filter fun p => !decide (lo ≤ p.1 ∧ p.1 < hi)
    full := x.full.filter fun i => !decide (lo ≤ 16 * i ∧ 16 * i < hi)
    mapped := x.mapped.filter fun p => !decide (lo ≤ 4 * p.1 ∧ 4 * p.1 < hi)
    ops := if g.ae then [] else x.ops
    rows := if g.ae then [] else x.rows
    queue := if g.ae then [] else x.queue
    claims := if g.ae then [] else x.claims
    torn := if g.ae then [] else x.torn
    slots := Tab.put x.slots e { (Tab.get {} x.slots e) with v := false, st := 0 } }

/-- The workgroup counts at its launch, which may complete, with the levels above it (R205, R276, R277). -/
def State.countWg (s : State) (w : WorkId) : State :=
  let x := s.raise w false
  (if x.countFull w then x.finish w 4 else x).cancelCheck w

/-- WORKGROUP_COMPLETE (R33, R205, R276). FL of a failure whose work object could not be reached then is set now (R32, R290). -/
def execWorkgroupComplete (cl entry : Nat) (s : State) : Host.Outcome State Fault Refusal :=
  .next (match look (s.cluster cl).wgs entry with
    | none => s
    | some g =>
      let up := g.work :: s.ancestors g.work
      if !(s.cluster cl).drained entry || s.recordOpen g.flushRec then s
      else if !(up.all fun p => s.workHere p) then s.askWork cl up
      else match s.flushWg cl entry with
        | .ok x l =>
          let z := l.foldl (fun z p => z.wgDrain cl entry p.1 p.2) x
          let y := if (z.wg cl entry).failed then z.setFl g.ctx g.wobj g.woff else z
          ((y.modCluster cl fun q => q.freeWg entry).countWg g.work).idleMark cl
        | .waits _ => s.flushRecord cl entry
        | .fails _ => s)

/-! ### Killing (R290) -/

/-- Every thread of a warp is set EXITED; what it has issued drains. -/
def State.killWarp (s : State) (c k : Nat) : State :=
  let x := (s.warp c k).members.foldl (fun y t => y.exitThread c k t) s
  ((x.discard c k).release c k).modWarp c k fun w => { w with retiring := true, rep := none }
/-- The workgroup is killed: FL is set, and it drains. -/
def State.kill (s : State) (c e : Nat) : State :=
  let g := s.wg c e
  let x := ((s.cluster c).slotsOf e).foldl (fun y k => y.killWarp c k) s
  let y := x.modCluster c fun q =>
    { (q.setWg e { q.wg e with parked := false, killed := true, failed := true, records := 0 }) with
      slots := Tab.put q.slots e { (Tab.get {} q.slots e) with st := 4 } }
  y.setFl g.ctx g.wobj g.woff

end Sys2Proof.Machine
end

