-- ==== Sys2Proof/Machine/Preempt.lean ====
section
/-! DEFINITION. Time slices and the watchdog (R287), pre-emption and the saved image (R111, R238, R291, R292), its restore
(R293), and the resolution of fault records (R290). -/

namespace Sys2Proof.Machine

def State.slotSt (s : State) (c e : Nat) : Nat := (Tab.get {} (s.cluster c).slots e).st
def State.setSlotSt (s : State) (c e n : Nat) : State :=
  s.modCluster c fun x => { x with slots := Tab.put x.slots e { (Tab.get {} x.slots e) with st := n } }

/-! ### WATCHDOG and slices -/

/-- The watchdog limit of a workgroup has passed and has not been acted on (R287). -/
def State.watchDue (s : State) (c e : Nat) : Bool :=
  let g := s.wg c e
  g.wdog != 0 && !g.late && !g.killed && decide (g.bound + g.wdog ≤ s.tick)
/-- WATCHDOG is taken: the workgroup parks, with a KIND 2 record that holds the ticks resident (R287 to R290). -/
def State.watch (s : State) (c e : Nat) : State :=
  let g := s.wg c e
  ((s.modWg c e fun x => { x with late := true }).park c e).wgRecord c e Cause.watchdog (BitVec.ofNat 64 (s.tick - g.bound)) 2
/-- The watchdog limit of a saved workgroup has passed, and Umailo has not acted on it. -/
def State.savedLate (s : State) (m : Image) : Bool :=
  m.wg.wdog != 0 && !m.wg.late && decide (m.wg.bound + m.wg.wdog ≤ s.tick) && s.workHere m.wg.work && !s.workCx m.wg.work
/-- Umailo cancels the launch of a saved workgroup, as WCAN does, without restoring it (R277, R287). -/
def State.cancelSaved (s : State) (w : WorkId) : State :=
  let x := s.setWorkBit w 58
  if !x.cancelHere w [] then s
  else if decide (x.workStatus w < 2) && !x.runningUnder w then x.cancelDone w [] else x
/-- WATCHDOG (R287): of a resident workgroup; or, with a cluster number that is none, the launch of the saved workgroup with this number,
which Umailo may cancel. A workgroup that is being saved is resident still: it parks, which ends the save (R287 and R291 do not say what
becomes of it: DESIGN CHOICE, log 76). -/
def execWatchdog (cl entry : Nat) (s : State) : Host.Outcome State Fault Refusal :=
  .next (if cl ≥ Config.clusters then
      match s.images[entry]? with
      | some m => if s.dispatches m.die && s.savedLate m then s.cancelSaved m.wg.work else s
      | none => s
    else if (look (s.cluster cl).wgs entry).isSome && s.watchDue cl entry then s.watch cl entry else s)

/-- Every bench thread of the workgroup is EXITED (R287). -/
def Cluster.allExited (x : Cluster) (e : Nat) : Bool := (x.benchOf e).all fun k => (x.warp k).members.isEmpty
/-- A launch of this PRIO or a higher one waits for a place on the die (R287), with a next workgroup or with one that is saved. -/
def State.waitedFor (s : State) (die prio : Nat) : Bool :=
  (s.images.any fun m => m.die == die && decide (m.wg.prio ≥ prio) && !s.hasPlace die m.wg.need &&
    (m.wg.work :: s.ancestors m.wg.work).all fun q => s.workHere q && !s.workCx q) ||
  s.launches.any fun m => m.die == die && (match s.readDesc m.ctx m.dobj m.doff with
    | some d => s.eligible (m.work d) && decide (s.workPrio (m.work d) ≥ prio) && !s.hasPlace die d.need
    | none => false)
/-- SLICE_EXPIRY (R287): the workgroup is pre-empted where a launch waits; else the slice starts again. -/
def execSliceExpiry (cl entry : Nat) (s : State) : Host.Outcome State Fault Refusal :=
  let g := s.wg cl entry
  .next (if g.slice != 0 && s.slotSt cl entry == 1 && decide (g.sliceAt + g.slice ≤ s.tick) && !(s.cluster cl).allExited entry then
      if s.waitedFor (dieOf cl) g.prio then s.setSlotSt cl entry 3
      else s.modWg cl entry fun x => { x with sliceAt := s.tick }
    else s)
/-- PREEMPT_REQUEST (R291): Umailo sets ST to saving. No new run of the workgroup begins, nor an Anvil operation. -/
def execPreemptRequest (cl entry : Nat) (s : State) : Host.Outcome State Fault Refusal :=
  .next (if s.dispatches (dieOf cl) && s.slotSt cl entry == 1 && (look (s.cluster cl).wgs entry).isSome then s.setSlotSt cl entry 3
    else s)

/-! ### When the image can be written (R291) -/

/-- A request that a save withdraws, to be issued again after restore, or that waits behind one. -/
def Req.withdrawn (r : Req) : Bool := match r.op with
  | .ldh .. => true
  | .sth .. => true
  | .accrd .. => true
  | .accrel _ => true
  | _ => false
/-- A wait that a save withdraws. -/
def WaitFor.withdrawn : WaitFor → Bool
  | .waitw .. => true
  | .acq .. => true
  | .publ _ => true
  | .lwait .. => true
  | .xrw .. => true
  | .owait .. => true
  | .orel .. => true
  | _ => false
/-- A wait that ends before the save. -/
def WaitFor.ends : WaitFor → Bool
  | .rel .. => true
  | .fence _ => true
  | .cwgo .. => true
  | _ => false
/-- Every tied lane of the ticket has its value or its cause (R111). -/
def Ticket.whole (x : Ticket) : Bool := !x.valid || x.lanes &&& ~~~(x.arrived ||| x.failed) == 0
/-- Nothing of the warp is left to finish; a wait whose port went down takes its cause first (R307). -/
def Warp.quiet (w : Warp) : Bool :=
  (w.loads.all fun l => l.finished) && (w.tickets.all fun t => t.2.whole) && w.longs.isEmpty &&
  (w.reqs.all fun r => r.withdrawn) && w.cmds.isEmpty && w.winQ.isEmpty && w.waits.all fun x => !x.why.ends && !x.lost
/-- Step 3 of R291. -/
def Cluster.quiet (x : Cluster) (e : Nat) : Bool :=
  ((x.slotsOf e).all fun k => (x.warp k).quiet) && (x.tracker.all fun p => p.2.entry != e) && (x.acts.all fun a => a.entry != e) &&
  (!(x.wg e).ae || (x.claims.isEmpty && (match x.queue with
    | q :: _ => q.began.isNone
    | [] => true)))

/-! ### The image -/

/-- The number of the warp in a slot; 32 for the control-core stream. -/
def Cluster.numOf (x : Cluster) (k : Nat) : Nat := if k = Config.coreSlot then 32 else (x.warp k).num
/-- Barriers with slots turned by `f`. -/
def Bar.moved (b : Bar) (f : Nat → Nat) : Bar :=
  { b with arrived := b.arrived.map fun p => 32 * f (p / 32) + p % 32, held := b.held.map fun p => (f p.1, p.2) }
/-- A withdrawn request joins those of its word, if it is another lane of it. -/
def joinRedo (l : List Redo) (r : Redo) : List Redo :=
  match l with
  | [] => [r]
  | x :: q =>
    if x.lanes && r.lanes && x.word == r.word && x.pc == r.pc && !(x.threads.any fun t => r.threads.contains t) then
      { x with threads := x.threads ++ r.threads } :: q
    else x :: joinRedo q r
/-- What a save withdraws of a warp, in the order of issue (R291). -/
def Warp.withdrawals (w : Warp) : List Redo :=
  let ws := (w.waits.filter fun x => x.why.withdrawn).map fun x =>
    (x.id, ({ word := x.word, pc := x.pc, threads := x.threads, lanes := false, t0 := x.t0 } : Redo))
  let rs := (w.reqs.filter fun r => r.withdrawn).map fun r =>
    (r.id, ({ word := r.word, pc := r.pc, threads := r.threads, lanes := true } : Redo))
  ((sortBy (fun p => [p.1]) (ws ++ rs)).map fun p => p.2).foldl joinRedo w.redo
/-- What a warp keeps while its workgroup is saved: a repeat in progress is in REPC alone (R55); a withdrawn wait has its threads at its
word (R291); a window set in this cycle is in force, and cycles of the cluster it leaves say nothing on the next. -/
def Warp.saved (w : Warp) (cyc : Nat) : Warp :=
  let v := w.window (cyc + 1)
  let back := (w.waits.filter fun x => x.why.withdrawn).foldl (fun y x => x.threads.foldl (fun z t => z.modThread t fun q =>
    { q with pc := x.pc, repc := x.repc.getD q.repc, marked := false }) y) w
  { back with
    rep := none, awb := v.1, awl := v.2, awNew := none, flagAt := 0, flagNow := 0, waited := 0, lastRun := 0
    reqs := [], redo := w.withdrawals
    waits := (w.waits.filter fun x => !x.why.withdrawn).map fun x => { x with leave := 0 } }
/-- The image of a workgroup of a cluster of die `die`. -/
def Cluster.image (x : Cluster) (e obj off die : Nat) : Image :=
  let g := (x.wg e).settle (x.cyc + 1)
  { obj := obj, off := off, die := die
    wg := { g with bars := g.bars.map fun b => (b.1, { (b.2.moved x.numOf) with doneAt := 0 }) }
    warps := (x.benchOf e).map fun k => (x.warp k).saved x.cyc
    core := if g.ae then (look x.warps Config.coreSlot).map fun w => w.saved x.cyc else none
    ops := if g.ae then x.ops.map fun p => (p.1, { p.2 with fullAt := 0 }) else []
    rows := if g.ae then x.rows else [], queue := if g.ae then x.queue else []
    claimNo := x.claimNo }

/-! The parts of R292 follow each other in the table's order, and so do the contents of a part, each packed behind the one before
it, which fills the bytes that the table gives (DESIGN CHOICE, log 21). Numbers below count 4-byte words. -/

/-- Words of a warp's part: PC table, warp state, thread state, k, v, tickets, withdrawn requests. -/
def Image.warpWords (m : Image) : Nat := 64 + 32 + 256 + 70 + 36 * m.wg.alloc + 304 + 128
def Image.ticketAt (m : Image) : Nat := 64 + 32 + 256 + 70 + 36 * m.wg.alloc
/-- Where the parts of the workgroup begin: w registers and barriers, stash, Anvil. -/
def Image.wgAt (m : Image) : Nat := 64 + m.wg.warps * m.warpWords
def Image.stashAt (m : Image) : Nat := m.wgAt + 576
def Image.anvilAt (m : Image) : Nat := m.stashAt + 1024 * m.wg.stn + 8 * m.wg.stn + 32
/-- Words of a row (data, kinds, ready flag), of a slot (data, sideband, bitmap, state and GEN), and of the stream and queue. -/
def rowWords : Nat := 134
def slotWords : Nat := 4230
/-- The stream is laid out as a warp without v registers, then its h registers and their pending bits. -/
def streamPart : Nat := 64 + 32 + 256 + 70 + 304 + 128
def entryWords : Nat := 20
def streamWords : Nat := streamPart + 64 + 2 + 8 * entryWords + 2
/-- Bytes of the image. -/
def Image.size (m : Image) : Nat :=
  4 * (m.anvilAt + if m.wg.ae then 1024 * rowWords + 64 * slotWords + streamWords else 0)

def TState.code : TState → Nat
  | .ready => 0 | .switch => 1 | .fault => 2 | .join => 3 | .bar => 4 | .wait => 5 | .track => 6 | .exited => 7
def stateOf (n : Nat) : TState :=
  match n with
  | 0 => .ready | 1 => .switch | 2 => .fault | 3 => .join | 4 => .bar | 5 => .wait | 6 => .track | _ => .exited
/-- A PC-table entry (R22). -/
def Thread.entry (x : Thread) : Dword :=
  BitVec.ofNat 64 (x.st.code * 2 ^ 60 + x.age % 128 * 2 ^ 53 + x.jt.toNat * 2 ^ 52 + x.bid.toNat * 2 ^ 48 + x.pc.toNat)
/-- PC[2:0] are always 0 (R22). -/
def Thread.load (x : Thread) (d : Dword) : Thread :=
  { x with st := stateOf (field d 60 4), age := field d 53 7, jt := d.getLsbD 52, bid := BitVec.ofNat 4 (field d 48 4)
           pc := (d &&& 0xFFFFFFFFF8#64).setWidth 40 }
/-- Doubleword `i` of a ticket (R108). -/
def Ticket.dw (x : Ticket) (i : Nat) : Dword :=
  match i with
  | 0 => BitVec.ofNat 64 (x.valid.toNat * 2 ^ 63 + x.k.toNat * 2 ^ 62 + x.reg % 256 * 2 ^ 54 + x.conv % 32 * 2 ^ 49)
  | 1 => dword x.lanes x.arrived
  | 2 => dword x.failed 0
  | n + 3 => dword (Tab.get 0 x.value (2 * n)) (Tab.get 0 x.value (2 * n + 1))
def ticketOf (f : Nat → Dword) : Ticket :=
  if (f 0).getLsbD 63 then
    { valid := true, k := (f 0).getLsbD 62, reg := field (f 0) 54 8, conv := field (f 0) 49 5, arrived := hiWord (f 1)
      lanes := loWord (f 1), failed := loWord (f 2)
      value := (List.range 32).foldl (fun t i =>
        let w := if i % 2 = 0 then loWord (f (3 + i / 2)) else hiWord (f (3 + i / 2))
        if bitOf (loWord (f 1)) i then Tab.put t i w else t) [] }
  else {}
/-- ARRIVED or FAILED is set where LANES is clear, whatever VALID holds: such an image is refused (R108). -/
def ticketBad (f : Nat → Dword) : Bool := (hiWord (f 1) ||| loWord (f 2)) &&& ~~~(loWord (f 1)) != 0
/-- A mapping record (R292). -/
def Map.dw (x : Map) (i : Nat) : Dword :=
  if i = 0 then x.cap
  else BitVec.ofNat 64 (x.live.toNat * 2 ^ 63 + x.ro.toNat * 2 ^ 62 + x.soff / 256 % 4096 * 2 ^ 32 + x.len % 2 ^ 32)
def mapOf (a b : Dword) : Map :=
  { cap := a, live := b.getLsbD 63, ro := b.getLsbD 62, soff := 256 * field b 32 12, len := field b 0 32 }

/-- Word `i` of a doubleword sequence. -/
def halfOf (f : Nat → Dword) (i : Nat) : Word := if i % 2 = 0 then loWord (f (i / 2)) else hiWord (f (i / 2))
/-- Tags of 16 registers, and one bit of each of 32, packed in a word. -/
def tagWord (f : Nat → Reg) (i : Nat) : Word :=
  BitVec.ofNat 32 ((List.range 16).foldr (fun j a => (f (16 * i + j)).tag.toNat + 4 * a) 0)
def bitWord (f : Nat → Bool) (i : Nat) : Word := maskOf ((List.range 32).filter fun j => f (32 * i + j))

/-- Word `i` of the state of a warp, of a thread, of the k registers, and of v register `n`. -/
def Warp.stateWord (w : Warp) (i : Nat) : Word :=
  match i with
  | 0 => w.em | 1 => w.cm | 2 => w.cpm | 3 => w.pt | 4 => w.xi | 5 => w.sr | 6 => w.awb | 7 => w.awl | 8 => w.tvec
  | 9 => bitWord (fun j => (Tab.get {} w.k j).pend) 0
  | 10 => bitWord (fun j => (Tab.get {} w.k j).pend) 1
  | 11 => w.cmPend
  | n + 12 => if n < 4 then Tab.get 0 w.cw n else 0
def Thread.stateWord (x : Thread) (i : Nat) : Word :=
  match i with
  | 0 => x.repc
  | 1 => BitVec.ofNat 32 (x.tt.toNat + x.marked.toNat * 2 ^ 31)
  | 2 => loWord x.tpc
  | 3 => hiWord x.tpc
  | 4 => x.tcause
  | 5 => loWord x.taddr
  | 6 => hiWord x.taddr
  | _ => x.tlanes
def Warp.kWord (w : Warp) (i : Nat) : Word :=
  let f := fun j => Tab.get {} w.k j
  if i < 64 then (f i).data else if i < 68 then tagWord f (i - 64) else bitWord (fun j => (f j).plate) (i - 68)
def Warp.vWord (w : Warp) (n i : Nat) : Word :=
  let f := fun j => w.getV j n
  if i < 32 then (f i).data
  else if i < 34 then tagWord f (i - 32)
  else if i = 34 then bitWord (fun j => (f j).plate) 0
  else bitWord (fun j => (f j).pend) 0
/-- The part of the withdrawn requests holds 32 entries of 16 bytes: the instruction word, the threads, and four bytes more (log 21).
Lanes that have gone on from their word have there bits 34 to 3 of its PC, and bit 35 in bit 62 of the instruction word, which is 0 in
what is withdrawn; of a wait, whose threads' PC is in the PC table, they are the ticks it has waited; and of threads that wait in REDEM,
with bit 62 set, they are the register and the REPC of a cause. -/
def redoMost : Nat := 32
def Redo.words (r : Redo) (tick : Nat) : List Word :=
  let hi := if r.lanes then r.pc.toNat / 2 ^ 35 % 2 else 0
  [BitVec.ofNat 32 r.word, BitVec.ofNat 32 (r.word / 2 ^ 32 + 2 ^ 30 * hi), maskOf r.threads,
    if r.lanes then BitVec.ofNat 32 (r.pc.toNat / 8) else BitVec.ofNat 32 (tick - r.t0)]
/-- A thread that waits in REDEM (R118). -/
def Wait.redemWords (x : Wait) : Option (List Word) :=
  match x.why with
  | .redem k reg => some
      [BitVec.ofNat 32 x.word, BitVec.ofNat 32 (x.word / 2 ^ 32 + 2 ^ 30), maskOf x.threads,
        BitVec.ofNat 32 (reg % 256 + 2 ^ 8 * k.toNat + 2 ^ 9 * x.repc.isSome.toNat + 2 ^ 10 * (x.repc.getD 0).toNat)]
  | _ => none
def Warp.redoEntries (w : Warp) (tick : Nat) : List (List Word) :=
  (w.redo.map (fun r => r.words tick) ++ w.waits.filterMap Wait.redemWords).take redoMost
/-- Word `i` of that part. -/
def Warp.redoWord (w : Warp) (tick i : Nat) : Word := ((w.redoEntries tick).getD (i / 4) []).getD (i % 4) 0
/-- The word of an entry is one whose lanes are withdrawn, and their threads have gone on from it. -/
def lanesWord (u : Core) (word : Nat) : Bool := match decode u word with
  | .ok i => match i with
    | .ldh .. | .ldhWf .. | .ldhWfe .. | .sth .. | .sthSf .. | .sthWesf .. | .accrdW .. | .accrel .. => true
    | _ => false
  | .error _ => false
def bitsOf (m : Word) : List Nat := (List.range 32).filter fun t => bitOf m t
/-- The withdrawn requests, and the REDEMs, that such a part `f` holds, with the PCs of a PC table: those beyond it as the warp has
them. -/
def Warp.reloadRedo (w : Warp) (tick : Nat) (pcAt : Nat → BitVec 40) (f : Nat → Word) : Warp :=
  let word (i : Nat) : Nat := (f (4 * i)).toNat + 2 ^ 32 * ((f (4 * i + 1)).toNat % 2 ^ 30) + 2 ^ 63 * ((f (4 * i + 1)).toNat / 2 ^ 31)
  let bit62 (i : Nat) : Nat := (f (4 * i + 1)).toNat / 2 ^ 30 % 2
  let ts (i : Nat) : List Nat := bitsOf (f (4 * i + 2))
  let v (i : Nat) : Nat := (f (4 * i + 3)).toNat
  let lanes (i : Nat) : Bool := lanesWord w.unit (word i)
  let used := (List.range redoMost).filter fun i => !(ts i).isEmpty
  { w with
    redo := (used.filter fun i => lanes i || bit62 i == 0).map (fun i =>
        if lanes i then { word := word i, pc := BitVec.ofNat 40 (8 * v i + 2 ^ 35 * bit62 i), threads := ts i, lanes := true }
        else { word := word i, pc := pcAt ((ts i).headD 0), threads := ts i, lanes := false, t0 := tick - v i }) ++ w.redo.drop redoMost
    waits := ((used.filter fun i => !lanes i && bit62 i == 1).map fun i =>
        { id := i, threads := ts i, why := .redem (v i / 2 ^ 8 % 2 == 1) (v i % 256), pc := pcAt ((ts i).headD 0), word := word i
          repc := if v i / 2 ^ 9 % 2 = 1 then some (BitVec.ofNat 32 (v i / 2 ^ 10)) else none }) ++
      (w.waits.filter fun x => x.redemWords.isSome).drop (redoMost - w.redo.length)
    nextId := max w.nextId redoMost }
/-- Word `i` of a warp's part. -/
def Image.warpWord (m : Image) (tick : Nat) (w : Warp) (i : Nat) : Word :=
  if i < 64 then halfOf (fun j => (w.thread j).entry) i
  else if i < 96 then w.stateWord (i - 64)
  else if i < 352 then (w.thread ((i - 96) / 8)).stateWord ((i - 96) % 8)
  else if i < 422 then w.kWord (i - 352)
  else if i < m.ticketAt then w.vWord ((i - 422) / 36) ((i - 422) % 36)
  else if i < m.ticketAt + 304 then
    let j := i - m.ticketAt
    halfOf (Tab.get {} w.tickets (j / 38)).dw (j % 38)
  else w.redoWord tick (i - m.ticketAt - 304)
/-- Word `i` of the part with the w registers and the barriers: each barrier's generation and its arrivals by thread. -/
def Wg.sharedWord (g : Wg) (i : Nat) : Word :=
  let f := fun j => Tab.get {} g.w j
  if i < 16 then (f i).data
  else if i = 16 then tagWord f 0
  else if i = 17 then bitWord (fun j => decide (j < 16) && (f j).plate) 0
  else if i < 32 then 0
  else
    let b := Tab.get {} g.bars ((i - 32) / 34)
    let r := (i - 32) % 34
    if r < 2 then BitVec.ofNat 32 (b.gen / 2 ^ (32 * r)) else bitWord b.arrived.contains (r - 2)
/-- Word `i` of a row, and of a slot. -/
def AccRow.word (x : AccRow) (i : Nat) : Word :=
  if i < 128 then (Tab.get {} x.words i).data
  else if i < 132 then bitWord (fun j => (Tab.get {} x.words j).int) (i - 128)
  else if i = 132 then (if x.ready then 1 else 0)
  else 0
def OpSlot.word (x : OpSlot) (i : Nat) : Word :=
  let bytes (f : Tab Byte) (j : Nat) : Word := BitVec.ofNat 32 (leNat ((List.range 4).map fun b => Tab.get 0 f (4 * j + b)))
  if i < 4096 then bytes x.data i
  else if i < 4224 then bytes x.side (i - 4096)
  else if i < 4228 then (x.rows >>> (32 * (i - 4224))).setWidth 32
  else if i = 4228 then (match x.st with
    | .free => 0
    | .claimed => 1
    | .full => 2)
  else x.gen.setWidth 32

/-- A number in a word. -/
def n32 (n : Nat) : Word := BitVec.ofNat 32 n
/-- A queued operation as words (R238): its kind, its fields, and for an MMAH the bits it captured. -/
def AOp.words : AOp → List Word
  | .mma fmt mx acc a b => [0, n32 fmt, n32 mx.toNat, n32 acc, n32 a, n32 b]
  | .mmas pat fmt acc a b md => [1, n32 fmt, n32 pat, n32 acc, n32 a, n32 b, n32 md]
  | .mmah pv cnt fmt fill mx acc a b bits bit =>
    [2, n32 fmt, n32 (pv.toNat + 2 * fill.toNat + 4 * mx.toNat), n32 acc, n32 a, n32 b, n32 cnt,
      n32 bit] ++ (List.range 8).map fun i => (bits >>> (32 * i)).setWidth 32
  | .assay bit h cnt sink loc q k tau rho dst =>
    [3, n32 bit, n32 (sink.toNat + 2 * loc.toNat), n32 h, n32 q, n32 k, n32 cnt, tau, rho, n32 dst]
  | .accz a b => [4, n32 a, n32 b]
  | .accsig a b => [5, n32 a, n32 b]
/-- The operation that words hold. -/
def opOf (f : Nat → Word) : AOp :=
  let n (i : Nat) : Nat := (f i).toNat
  match n 0 with
  | 0 => .mma (n 1) (n 2 % 2 == 1) (n 3) (n 4) (n 5)
  | 1 => .mmas (n 2) (n 1) (n 3) (n 4) (n 5) (n 6)
  | 2 => .mmah (n 2 % 2 == 1) (n 6) (n 1) (n 2 / 2 % 2 == 1) (n 2 / 4 % 2 == 1) (n 3) (n 4) (n 5)
      ((List.range 8).foldl (fun b i => b ||| ((f (8 + i)).setWidth 256 <<< (32 * i))) 0) (n 7)
  | 3 => .assay (n 1) (n 3) (n 6) (n 2 % 2 == 1) (n 2 / 2 % 2 == 1) (n 4) (n 5) (f 7) (f 8) (n 9)
  | 4 => .accz (n 1) (n 2)
  | _ => .accsig (n 1) (n 2)
/-- An entry of the queue: the operation, and for an MMAH the next tile and the tiles done (R238). -/
def AEnt.word (e : AEnt) (i : Nat) : Word :=
  if i < 16 then e.op.words.getD i 0 else if i = 16 then BitVec.ofNat 32 e.tiles else if i = 17 then BitVec.ofNat 32 e.base else 0
def entOf (f : Nat → Word) : AEnt := { op := opOf f, tiles := (f 16).toNat, base := (f 17).toNat }
/-- Word `i` of the stream and the queue (R238): the stream, its h registers and their pending bits, the claim counter, the queue. -/
def Image.streamWord (m : Image) (tick i : Nat) : Word :=
  let w := m.core.getD {}
  let q := streamPart + 66
  if i < streamPart then ({ m with wg := { m.wg with alloc := 0 } } : Image).warpWord tick w i
  else if i < streamPart + 64 then ((Tab.get 0 w.h ((i - streamPart) / 8)) >>> (32 * ((i - streamPart) % 8))).setWidth 32
  else if i = streamPart + 64 then w.hPend.setWidth 32
  else if i = streamPart + 65 then m.claimNo.setWidth 32
  else if i < q + 8 * entryWords then (m.queue[(i - q) / entryWords]?.map fun e => e.word ((i - q) % entryWords)).getD 0
  else if i = q + 8 * entryWords then BitVec.ofNat 32 m.queue.length
  else 0
/-- Word `i` of the header: a doubleword for each of context, LOBJ, WGID, W, N, STK, AE, and the ticks used of the slice and of
the watchdog's limit; then the tick of the save, from which the time spent saved counts, and whether the workgroup has failed and has
taken WATCHDOG. -/
def Image.headWord (m : Image) (tick i : Nat) : Word :=
  halfOf (fun j => BitVec.ofNat 64 (match j with
    | 0 => m.wg.ctx | 1 => m.wg.wobj | 2 => m.wg.wgid | 3 => m.wg.warps | 4 => m.wg.alloc | 5 => m.wg.stn
    | 6 => m.wg.ae.toNat | 7 => tick - m.wg.sliceAt | 8 => tick - m.wg.bound | 9 => tick
    | 10 => m.wg.failed.toNat + 2 * m.wg.late.toNat | _ => 0)) i
/-- Word `i` of the image. -/
def Image.word (m : Image) (tick : Nat) (x : Cluster) (i : Nat) : Word :=
  if i < 64 then m.headWord tick i
  else if i < m.wgAt then
    m.warpWord tick ((m.warps.find? fun w => w.num == (i - 64) / m.warpWords).getD {}) ((i - 64) % m.warpWords)
  else if i < m.stashAt then m.wg.sharedWord (i - m.wgAt)
  else if i < m.anvilAt then
    let r := i - m.stashAt
    let n := 1024 * m.wg.stn
    if r < n then x.stashWord (m.wg.stashAt 0 / 4 + r)
    else if r < n + 8 * m.wg.stn then bitWord (fun j => x.isFull (m.wg.stashAt 0 / 16 + j)) (r - n)
    else
      let q := r - n - 8 * m.wg.stn
      halfOf (Tab.get {} m.wg.maps (q / 4)).dw (q % 4)
  else
    let r := i - m.anvilAt
    let n := 1024 * rowWords
    if r < n then (Tab.get {} m.rows (r / rowWords)).word (r % rowWords)
    else if r < n + 64 * slotWords then (Tab.get {} m.ops ((r - n) / slotWords)).word ((r - n) % slotWords)
    else m.streamWord tick (r - n - 64 * slotWords)

/-- The image is written to memory. None where a page has no place. -/
def State.writeImage (s : State) (ctx : Nat) (m : Image) (x : Cluster) : Option State :=
  (List.range (m.size / 8)).foldl (fun (o : Option State) i =>
    match o with
    | none => none
    | some y => y.dwWrite ctx m.obj (m.off + 8 * i) (dword (m.word s.tick x (2 * i)) (m.word s.tick x (2 * i + 1)))) (some s)

/-! ### PREEMPT_SAVE_COMPLETE -/

/-- Threads of the workgroup that wrote word `i` of an object. -/
def Cluster.whoWrote (x : Cluster) (e ctx obj i : Nat) : List Nat :=
  (((Tab.get {} x.l1 (wordKey ctx obj i)).writers ++ (x.mapWords ctx obj i).flatMap fun j => (Tab.get {} x.mapped j).writers).filter
    fun p => p.1 == e).map fun p => p.2
/-- A cause that a write-back of step 4 met waits for its writers as one met by FENCE does (R100, R199). -/
def State.deferTo (s : State) (c e : Nat) (who : List Nat) (cause : Byte) (addr : Dword) : State :=
  ((s.cluster c).benchOf e).foldl (fun x k =>
    x.modWarp c k fun w => w.members.foldl (fun y t =>
      if who.contains (32 * w.num + t) then
        y.modThread t fun z => { z with deferred := z.deferred ++ [{ cause := cause, addr := addr }] }
      else y) w) s

/-- PREEMPT_SAVE_COMPLETE (R291): steps 3 to 6. A workgroup whose threads have all exited is not saved (R287). -/
def execPreemptSaveComplete (cl entry iobj ioff : Nat) (s : State) : Host.Outcome State Fault Refusal :=
  let x := s.cluster cl
  let g := x.wg entry
  .next (if s.slotSt cl entry != 3 || (look x.wgs entry).isNone then s
    else if x.allExited entry then s.setSlotSt cl entry 4
    else if !x.quiet entry || ioff % 256 != 0 || s.recordOpen g.flushRec then s
    else match s.flushWg cl entry with
      | .ok y l =>
        let z := l.foldl (fun q p =>
          q.deferTo cl entry (x.whoWrote entry g.ctx (field p.2 40 24) (field p.2 0 36 / 4)) p.1 p.2) y
        let m := (z.cluster cl).image entry iobj ioff (dieOf cl)
        (match z.writeImage g.ctx m (z.cluster cl) with
          | none => s
          | some q =>
            let old := q.images.filter fun i => !(i.wg.ctx == g.ctx && i.obj == iobj && i.off == ioff)
            (((({ q with images := old ++ [m] } : State).modCluster cl fun r => r.freeWg entry).idleMark cl).tell 3 (cl * 16 + entry)))
      | .waits _ => s.flushRecord cl entry
      | .fails _ => s)

/-! ### Restore (R293) -/

/-- A register from its data, and its place among packed tags and bits. -/
def regOf (data tags plates pends : Word) (j : Nat) : Reg :=
  { data := data, tag := BitVec.ofNat 2 (tags.toNat / 4 ^ (j % 16)), plate := bitOf plates (j % 32), pend := bitOf pends (j % 32) }
/-- A warp with the state that its part `f` of the image of tick `tick` holds. -/
def Warp.reload (w0 : Warp) (m : Image) (tick : Nat) (f : Nat → Word) : Warp :=
  let dw (o i : Nat) : Dword := dword (f (o + 2 * i)) (f (o + 2 * i + 1))
  let w := w0.reloadRedo tick (fun t => (({} : Thread).load (dw 0 t)).pc) fun i => f (m.ticketAt + 304 + i)
  { w with
    threads := (List.range 32).map fun t =>
      let o := 96 + 8 * t
      (t, { ((w.thread t).load (dw 0 t)) with
            repc := f o, tt := bitOf (f (o + 1)) 0, marked := bitOf (f (o + 1)) 31, tpc := dword (f (o + 2)) (f (o + 3)), tcause := f (o + 4)
            taddr := dword (f (o + 5)) (f (o + 6)), tlanes := f (o + 7) })
    em := f 64, cm := f 65, cpm := f 66, pt := f 67, xi := f 68, sr := f 69, awb := f 70, awl := f 71, tvec := f 72
    cmPend := f 75, cw := (List.range 4).map fun i => (i, f (76 + i))
    k := (List.range 64).map fun j => (j, regOf (f (352 + j)) (f (416 + j / 16)) (f (420 + j / 32)) (f (73 + j / 32)) j)
    v := (List.range m.wg.alloc).flatMap fun n =>
      let o := 422 + 36 * n
      (List.range 32).map fun j => (32 * n + j, regOf (f (o + j)) (f (o + 32 + j / 16)) (f (o + 34)) (f (o + 35)) j)
    tickets := (List.range 8).map fun i => (i, Machine.ticketOf (dw (m.ticketAt + 38 * i))) }
/-- The w registers and barriers that the image holds. -/
def Wg.reload (g : Wg) (f : Nat → Word) : Wg :=
  { g with
    w := (List.range 16).map fun j => (j, regOf (f j) (f 16) (f 17) 0 j)
    bars := (List.range 16).map fun b =>
      let o := 32 + 34 * b
      (b, { (Tab.get {} g.bars b) with
            gen := (f o).toNat + 2 ^ 32 * (f (o + 1)).toNat
            arrived := (List.range 1024).filter fun p => bitOf (f (o + 2 + p / 32)) (p % 32) }) }
/-- A row and a slot that the image holds. -/
def AccRow.reload (x : AccRow) (f : Nat → Word) : AccRow :=
  { x with
    words := (List.range 128).map fun j => (j, { data := f j, int := bitOf (f (128 + j / 32)) (j % 32) })
    ready := bitOf (f 132) 0 }
def OpSlot.reload (x : OpSlot) (f : Nat → Word) : OpSlot :=
  let bytes (o n : Nat) : Tab Byte := (List.range n).map fun i => (i, BitVec.ofNat 8 ((f (o + i / 4)).toNat / 256 ^ (i % 4)))
  { x with
    data := bytes 0 16384, side := bytes 4096 512
    rows := f 4227 ++ f 4226 ++ f 4225 ++ f 4224
    st := if f 4228 = 0 then .free else if f 4228 = 1 then .claimed else .full
    gen := (f 4229).setWidth 16 }

/-- The stream that the image holds, its h registers and the queue. -/
def Image.reloadStream (m : Image) (tick : Nat) (f : Nat → Word) : Image :=
  if !m.wg.ae then m else
  let q := streamPart + 66
  { m with
    core := m.core.map fun w =>
      { (w.reload { m with wg := { m.wg with alloc := 0 } } tick f) with
        v := [], h := (List.range 8).map fun n =>
          (n, (List.range 8).foldl (fun b i => b ||| ((f (streamPart + 8 * n + i)).setWidth 256 <<< (32 * i))) 0)
        hPend := (f (streamPart + 64)).setWidth 8 }
    claimNo := (f (streamPart + 65)).setWidth 16
    queue := (List.range (min 8 (f (q + 8 * entryWords)).toNat)).map fun i => entOf fun j => f (q + entryWords * i + j) }
/-- The image as memory now holds it, over what the manual has no part for (`m`; log 21): none where a page has no place, or `false` where
it is refused: a reserved STATE, an inconsistent ticket, a header that names another workgroup. -/
def State.readImage (s : State) (m : Image) : Option (Image × Bool) :=
  let ok := (List.range (m.size / 8)).all fun i => (s.dwRead m.wg.ctx m.obj (m.off + 8 * i)).isSome
  if !ok then none
  else
    let rd (i : Nat) : Word := halfOf (fun j => (s.dwRead m.wg.ctx m.obj (m.off + 8 * j)).getD 0) i
    let at_ (w : Warp) (i : Nat) : Word := rd (64 + w.num * m.warpWords + i)
    let dw (w : Warp) (o i : Nat) : Dword := dword (at_ w (o + 2 * i)) (at_ w (o + 2 * i + 1))
    let fine := ((List.range 14).all fun i => rd i == m.headWord 0 i) && m.warps.all fun w =>
      ((List.range 32).all fun t => decide (field (dw w 0 t) 60 4 ≤ 7)) &&
      (List.range 8).all fun i => !ticketBad (dw w (m.ticketAt + 38 * i))
    let stream := m.anvilAt + 1024 * rowWords + 64 * slotWords
    let sound := !m.wg.ae || (List.range 32).all fun t => decide (field (dword (rd (stream + 2 * t)) (rd (stream + 2 * t + 1))) 60 4 ≤ 7)
    let tick := (dword (rd 18) (rd 19)).toNat
    let mp := m.stashAt + 1032 * m.wg.stn
    let map (i : Nat) : Map :=
      mapOf (dword (rd (mp + 4 * i)) (rd (mp + 4 * i + 1))) (dword (rd (mp + 4 * i + 2)) (rd (mp + 4 * i + 3)))
    let maps := (List.range 8).map fun i => (i, map i)
    let slots := m.anvilAt + 1024 * rowWords
    some (({ m with
      warps := m.warps.map fun w => w.reload m tick (at_ w)
      wg := { (m.wg.reload fun i => rd (m.wgAt + i)) with
              maps := maps.filter fun p => p.2.live, bound := tick - (dword (rd 16) (rd 17)).toNat, failed := bitOf (rd 20) 0
              late := bitOf (rd 20) 1 }
      rows := if m.wg.ae then (List.range 1024).map fun r =>
          (r, (Tab.get {} m.rows r).reload fun i => rd (m.anvilAt + rowWords * r + i)) else m.rows
      ops := if m.wg.ae then (List.range 64).map fun n =>
          (n, (Tab.get {} m.ops n).reload fun i => rd (slots + slotWords * n + i)) else m.ops } : Image).reloadStream tick
        fun i => rd (slots + 64 * slotWords + i), fine && sound)

/-- The stash range and its full bits from the image. -/
def State.readStash (s : State) (c : Nat) (m : Image) (g : Wg) : State :=
  let rd (o : Nat) : Dword := (s.dwRead m.wg.ctx m.obj (m.off + o)).getD 0
  s.modCluster c fun x =>
    let y := (List.range (512 * g.stn)).foldl (fun z i =>
      z.putStashBytes (g.stashAt (8 * i)) (leBytes 8 (rd (4 * m.stashAt + 8 * i)).toNat)) x
    (List.range (256 * g.stn)).foldl (fun z i =>
      z.setFull (g.stashAt 0 / 16 + i) ((rd (4 * m.stashAt + 4096 * g.stn + i / 64 * 8)).getLsbD (i % 64))) y

/-- Dies whose clusters hold tarnish objects of a context (R248): the descriptors that memory lists. -/
def State.tarnishDies (s : State) (ctx : Nat) : List Nat :=
  let a := (s.ctx ctx).table
  s.mem.filterMap fun c =>
    if a ≤ c.1 ∧ c.1 < a + 32 * stashObj ∧ (c.1 - a) % 32 = 7 then
      let d := s.desc ctx ((c.1 - a) / 32)
      if d.valid && d.kind == 1 then some (d.plc - 1) else none
    else none

/-- The warp of an image, back in a slot. -/
def Warp.back (w : Warp) (e : Nat) : Warp := { w.untrack with entry := e }
/-- Warps of the image in their new slots. -/
def Image.seated (m : Image) (e bench : Nat) (pos : List Nat) : List (Nat × Warp) :=
  m.warps.filterMap fun w => (pos[w.num]?).map fun s => (64 * bench + s, w.back e)

/-- The image is put back into the cluster (R238, R293). -/
def Cluster.putBack (x : Cluster) (e : Nat) (r : SlotEnt) (m : Image) (pos : List Nat) (tick : Nat) : Cluster :=
  let slot (n : Nat) : Nat := if n = 32 then Config.coreSlot else 64 * r.bench + (pos[n]?).getD 0
  let g := { m.wg with stb := r.stb, sliceAt := tick, bars := m.wg.bars.map fun b => (b.1, b.2.moved slot) }
  let ws := (m.seated e r.bench pos) ++ (m.core.map fun w => (Config.coreSlot, w.back e)).toList
  let y : Cluster := { (x.setWg e g) with
    warps := ws.foldl (fun t p => Tab.put t p.1 p.2) x.warps
    lvt := [], ctx := g.ctx
    slots := Tab.put x.slots e { r with st := 1 } }
  if g.ae then
    { y with
      ops := m.ops.map fun p => (p.1, { p.2 with entry := e })
      rows := m.rows, queue := m.queue.map (fun q => { q with began := none, entered := x.cyc })
      claimNo := m.claimNo }
  else y

/-! ### FAULT_RECORD_RESOLVE (R290) -/

/-- Where record `i` of a context's ring lies. -/
def State.recordAt (s : State) (ctx die i : Nat) : Nat :=
  (if die = 0 then (s.ctx ctx).fault0 else (s.ctx ctx).fault1) + 32 * (i % 256)
/-- What waits for a record with a number waits for the one at an address. -/
def Warp.named (w : Warp) (id a : Nat) : Warp :=
  let f (n : Nat) : Nat := if n = id then a else n
  { w with
    loads := w.loads.map fun l => { l with recAt := f l.recAt }
    reqs := w.reqs.map fun r => { r with recAt := f r.recAt }
    waits := w.waits.map fun x => { x with recAt := f x.recAt }
    fetchRec := f w.fetchRec }
def State.named (s : State) (id a : Nat) : State :=
  { s with
    outs := s.outs.map fun o => if o.recAt = id then { o with recAt := a } else o
    clusters := s.clusters.map fun e =>
      (e.1, { e.2 with
        wgs := e.2.wgs.map fun g => (g.1, if g.2.flushRec = id then { g.2 with flushRec := a } else g.2)
        warps := e.2.warps.map fun w => (w.1, w.2.named id a)
        tracker := e.2.tracker.map fun w => (w.1, w.2.named id a) }) }
/-- Records that found the ring full are posted in their order, as long as the next place is free. -/
def State.postAll (s : State) (ctx die : Nat) : List (Nat × Dword × Dword × Dword × Dword) → State
  | [] => s
  | (id, d) :: r =>
    if s.ringFull ctx die then s
    else
      let x := s.ctx ctx
      (((s.setCtx ctx (if die = 0 then { x with held0 := r } else { x with held1 := r })).putRing ctx die d).named id
        (s.ringPlace ctx die)).postAll ctx die r
def State.postHeld (s : State) (ctx die : Nat) : State := s.postAll ctx die ((s.ctx ctx).heldOf die)

/-- Parked threads issue again from their PCs (R290). A thread held at the memory port stays. -/
def Warp.unpark (w : Warp) : Warp :=
  { w with threads := w.threads.map fun t =>
      if t.2.st = .fault && !t.2.marked && t.2.atPort.isEmpty then (t.1, { t.2 with st := .ready }) else t }
/-- One KIND 1 or 2 record of a workgroup is resolved to resume; with the last, it runs (log 23). -/
def State.resumeWg (s : State) (c e : Nat) : State :=
  let g := s.wg c e
  if g.records ≤ 1 then
    (s.modCluster c fun x =>
      { (x.setWg e { g with parked := false, records := 0 }) with
        warps := x.warps.map fun p => if p.2.entry = e then (p.1, p.2.unpark) else p
        slots := Tab.put x.slots e { (Tab.get {} x.slots e) with st := 1 } })
  else s.setWg c e { g with records := g.records - 1 }

/-- The workgroup that a record names. -/
def State.recordWg (s : State) (ctx : Nat) (d0 d2 : Dword) : Option (Nat × Nat) :=
  let c := field d0 47 1 * Config.dieClusters + field d0 40 6
  ((s.cluster c).wgs.find? fun g =>
    g.2.ctx == ctx && g.2.wgid == field d0 0 32 && g.2.wobj == field d2 40 24 && g.2.parked).map fun g => (c, g.1)

/-- FAULT_RECORD_RESOLVE (R290): software writes V = 0 and ACT. A KIND 0 record lets its access go on at the port. A module that has
FAILED answers no such write (R322). -/
def execFaultRecordResolve (ctx die i : Nat) (act : BitVec 2) (s : State) : Host.Outcome State Fault Refusal :=
  let a := s.recordAt ctx die i
  let d0 := s.pd a 0
  .next (if !d0.getLsbD 63 || s.health == 2 then s
    else
      let x := (s.setPd a 0 (setField (setField d0 63 1 0) 56 2 act.toNat)).postHeld ctx die
      let kind := field (s.pd a 3) 0 2
      if kind = 1 ∨ kind = 2 then
        match x.recordWg ctx d0 (s.pd a 2) with
        | none => x
        | some (c, e) => if act = 1 then x.resumeWg c e else x.kill c e
      else x)

end Sys2Proof.Machine
end

