-- ==== Sys2Proof/Machine/Bind.lean ====
section
/-! DEFINITION. BIND_RECORD: dispatch acts on a bind record (R17, R62, R154, R167, R281, R282), or restores an image
(R293). -/

namespace Sys2Proof.Machine

/-! ### The launch block (R279) -/

/-- The 18 words of a launch block that dispatch loads. -/
def State.blockWords (s : State) (ctx obj off : Nat) : Option (List Word) :=
  let l := (List.range 18).map fun i => s.objRead ctx obj (off + 4 * i) 4
  if l.all fun v => v.isSome then some (l.map fun v => BitVec.ofNat 32 (v.getD 0)) else none

/-- k1 to k15, with their tags. -/
def blockK (b : List Word) : Tab Reg :=
  (List.range 15).map fun i =>
    (i + 1, { data := b.getD i 0, tag := BitVec.ofNat 2 ((b.getD 15 0).toNat / 2 ^ (2 * i)) })
/-- The threads that a warp of the workgroup has. -/
def present (threads num : Nat) : List Nat := (List.range 32).filter fun t => decide (32 * num + t < threads)

/-- Warp `num` of a new workgroup (R17, R62, R66). -/
def newWarp (d : LaunchDesc) (b : List Word) (e num : Nat) : Warp :=
  let ts := present d.threads num
  let pc := BitVec.ofNat 40 d.entry
  { unit := .bench, entry := e, num := num, alloc := d.alloc, k := blockK b, em := maskOf ts
    tvec := b.getD 16 0 &&& 0xFFFFFFF9, threads := (List.range 32).map fun t => (t, { st := if ts.contains t then .ready else .exited, pc := pc }) }
/-- The control-core stream (R154). -/
def newStream (d : LaunchDesc) (b : List Word) (e : Nat) : Warp :=
  { unit := .acc, entry := e, em := 1, k := (blockK b).map fun p => (p.1, { p.2 with tag := 0 })
    tvec := b.getD 17 0 &&& 0xFFFFFFF9, threads := [(0, { st := .ready, pc := BitVec.ofNat 40 d.aentry })] }

def newWg (r : SlotEnt) (d : LaunchDesc) (prio tick : Nat) : Wg :=
  { ctx := r.dctx, wobj := d.wobj, woff := d.woff, dobj := r.dobj, doff := r.doff, wgid := r.wgid, threads := d.threads
    warps := d.warps, alloc := d.alloc, stb := r.stb, stn := r.stn, ae := d.ae, cobj := d.cobj, prio := prio
    qobj := d.qobj, qoff := d.qoff, qcnt := d.qcnt, wdog := d.wdog, slice := d.slice, bound := tick, sliceAt := tick }

/-! ### The parts of a binding -/

/-- The split of the cluster memory: set while the cluster holds no workgroup (R167). The L1 is written back and emptied
before the split changes, and where the cluster changes context (R327). None where it cannot be written back yet. -/
def State.setSplit (s : State) (c spart ctx : Nat) : Option State :=
  let x := s.cluster c
  let free := x.wgs.isEmpty
  (if (free && x.spart != spart) || x.ctx != ctx then s.drainL1 c else some s).map fun y =>
    if free then y.modCluster c fun q => { q with spart := spart } else y

/-- The stash range is zeroed, its granules empty. -/
def Cluster.zeroStash (x : Cluster) (stb stn : Nat) : Cluster :=
  let lo := 4096 * stb
  let hi := lo + 4096 * stn
  { x with
    stash := x.stash.filter fun p => !decide (lo ≤ p.1 ∧ p.1 < hi)
    full := x.full.filter fun i => !decide (lo ≤ 16 * i ∧ 16 * i < hi) }

/-- The acquire that every workgroup begins with (R205). -/
def State.acquireAll (s : State) (c ctx : Nat) : State := s.acquireKeys c 0 0 [ctxKeys ctx]

/-- Steps 1 to 4 of R282, and ST. -/
def Cluster.bindIn (x : Cluster) (e : Nat) (r : SlotEnt) (d : LaunchDesc) (b : List Word) (pos : List Nat) (prio tick : Nat) :
    Cluster :=
  let y := (x.zeroStash r.stb r.stn).setWg e (newWg r d prio tick)
  let ws := (pos.zipIdx.map fun p => (64 * r.bench + p.1, newWarp d b e p.2)) ++
    (if d.ae then [(Config.coreSlot, newStream d b e)] else [])
  { y with
    warps := ws.foldl (fun t p => Tab.put t p.1 p.2) y.warps
    lvt := if x.ctx = r.dctx then y.lvt else []
    ctx := r.dctx, gated := false
    slots := Tab.put y.slots e { r with st := 1 } }

/-- DISP, and STATUS of a launch whose first workgroup binds (R275, R276). -/
def State.bindCount (s : State) (w : WorkId) : State :=
  let x := s.addDisp w
  if x.workStatus w = 0 then
    let y := x.setStatus w 1
    match y.parentOf w with
    | some p => y.addDisp p
    | none => y
  else x

/-- Dispatch leaves V clear and tells Umailo (R281, R292). -/
def State.refuseRecord (s : State) (c e : Nat) : State :=
  ((s.modCluster c fun x => { x with slots := Tab.put x.slots e { (Tab.get {} x.slots e) with v := false } }).tell 2
    (c * 16 + e)).idleMark c

/-- A record with RST = 0: none where it waits for a page, of the descriptor, the work objects, the launch block, or a write-back. -/
def State.bindNew (s : State) (c e : Nat) (r : SlotEnt) : Option State :=
  match s.readDesc r.dctx r.dobj r.doff with
  | none => none
  | some d =>
    let w : WorkId := { ctx := r.dctx, obj := d.wobj, off := d.woff }
    let up := w :: s.ancestors w
    if !up.all fun p => s.workHere p then none
    else if s.refusesDesc r.dctx d || !(s.cluster c).recordOk r d.need || d.wobj != r.lobj || decide (r.wgid > d.wgm1) ||
        up.any (fun p => s.workCx p || decide (s.workStatus p ≥ 2)) then some (s.refuseRecord c e)
    else
      match s.blockWords r.dctx d.bobj d.boff, s.setSplit c r.spart r.dctx, positions r.slots (wideAlloc d.alloc) with
      | some b, some x, some pos =>
        some (((((x.served r.dctx r.dobj r.doff 128).served r.dctx d.bobj d.boff 72).acquireAll c r.dctx).modCluster c fun q =>
          q.bindIn e r d b pos (s.workPrio w) s.tick).bindCount w)
      | _, _, _ => none

/-- What the manual has no part of an image for (log 21): as the model keeps it of the image that it has written there; of another, as
the descriptor of the record's launch gives it. -/
def State.imageBase (s : State) (c : Nat) (r : SlotEnt) : Option Image :=
  match s.images.find? fun m => m.wg.ctx == r.dctx && m.wg.wgid == r.wgid && m.obj == r.iobj && m.off == r.ioff with
  | some m => some m
  | none => (s.readDesc r.dctx r.dobj r.doff).map fun d =>
    { obj := r.iobj, off := r.ioff, die := dieOf c
      wg := newWg r d (s.workPrio { ctx := r.dctx, obj := d.wobj, off := d.woff }) s.tick
      warps := (List.range d.warps).map fun n => { num := n, alloc := d.alloc }
      core := if d.ae then some { unit := .acc } else none }
/-- A record with RST = 1 (R293), refused under an object that is cancelled (R277). What the workgroup wrote, or had acquired, before its save
is found by what it reads after, in whatever cluster: the model drops every unowned word there, which R293 does not promise of others
(DESIGN CHOICE, log 94). A watchdog limit that has passed is acted on before anything issues (R287). -/
def State.bindImage (s : State) (c e : Nat) (r : SlotEnt) : Option State :=
  match s.imageBase c r with
  | none => none
  | some m =>
    match s.readImage m with
    | none => none
    | some (q, fine) =>
      let up := m.wg.work :: s.ancestors m.wg.work
      if !up.all fun p => s.workHere p then none
      else if !fine || up.any (fun p => s.workCx p || decide (s.workStatus p ≥ 2)) || !(s.cluster c).recordOk r m.wg.need ||
          (m.wg.ae && (s.cluster c).ops.any fun o => o.2.st != .free) ||
          (s.tarnishDies r.dctx).any (fun d => d != dieOf c) then some (s.refuseRecord c e)
      else
        match s.setSplit c r.spart r.dctx, positions r.slots (wideAlloc m.wg.alloc) with
        | some x, some pos =>
          let y := (x.acquireAll c r.dctx).modCluster c fun z =>
            { ((z.zeroStash r.stb r.stn).putBack e r q pos s.tick) with gated := false }
          let z := y.readStash c m (y.wg c e)
          let t : State := { z with images := z.images.filter fun i => i != m }
          some (if t.watchDue c e then t.watch c e else t)
        | _, _ => none

/-- The entry holds a record that dispatch has not acted on. -/
def State.bindAsked (s : State) (c e : Nat) : Bool :=
  let r := Tab.get {} (s.cluster c).slots e
  r.v && r.st == 0 && s.dispatches (dieOf c) && !(s.cluster c).crossing
/-- Dispatch acts on a record; none where it waits. -/
def State.bindTry (s : State) (c e : Nat) : Option State :=
  let r := Tab.get {} (s.cluster c).slots e
  if r.rst then s.bindImage c e r else s.bindNew c e r
/-- Pages of the work objects, of the launch block or the image, and of the write-back before a new split, that a record waits for are
asked for (R165). -/
def State.bindAsk (s : State) (c e : Nat) : State :=
  let r := Tab.get {} (s.cluster c).slots e
  let x := match s.readDesc r.dctx r.dobj r.doff with
    | some d =>
      let w : WorkId := { ctx := r.dctx, obj := d.wobj, off := d.woff }
      let z := s.askWork c (w :: s.ancestors w)
      (match z.translate r.dctx d.bobj d.boff with
      | .waits cause => z.askPage r.dctx c d.bobj d.boff cause
      | _ => z)
    | none => match s.translate r.dctx r.dobj r.doff with
      | .waits cause => s.askPage r.dctx c r.dobj r.doff cause
      | _ => s
  let y := if r.rst then (match s.imageBase c r with
    | some m => x.askRange r.dctx c r.iobj r.ioff m.size
    | none => x) else x
  if (s.setSplit c r.spart r.dctx).isNone then y.askL1 c else y
/-- BIND_RECORD (R281, R282, R286): dispatch acts on an entry whose V is 1; a gated cluster is ungated first. -/
def execBindRecord (cl entry : Nat) (s : State) : Host.Outcome State Fault Refusal :=
  .next (if !s.bindAsked cl entry then s else (s.bindTry cl entry).getD (s.bindAsk cl entry))
/-- A record that dispatch acts on in this very cycle (R281). -/
def State.bindDue (s : State) : Bool :=
  s.clusters.any fun c => c.2.slots.any fun e => s.bindAsked c.1 e.1 && (s.bindTry c.1 e.1).isSome

end Sys2Proof.Machine
end

