-- ==== Sys2Proof/Machine/Engine.lean ====
section
/-! DEFINITION. The copy engines (R309 to R314): chains, and the commands of chains and windows. A source of an engine is its
window queue, 0, or chain n, n + 1; a source has one command in progress at a time. -/

namespace Sys2Proof.Machine

/-! ### Sources and their commands -/

def engineNo (die eng : Nat) : Nat := 16 * die + eng
def State.engine (s : State) (e : Nat) : Engine := Tab.get {} s.engines e
def State.setEngine (s : State) (e : Nat) (x : Engine) : State := { s with engines := Tab.put s.engines e x }
/-- Counters of an engine (R318). -/
def engineUnit (e : Nat) : Nat := 192 + e

/-- The command in progress of a source. -/
def State.cmd (s : State) (e src : Nat) : Option Cmd :=
  match src with
  | 0 => (s.engine e).window.head?
  | n + 1 => match look (s.engine e).chains n with
    | some c => c.cur
    | none => none
def State.setCmd (s : State) (e src : Nat) (m : Cmd) : State :=
  let x := s.engine e
  match src with
  | 0 => s.setEngine e { x with window := m :: x.window.drop 1 }
  | n + 1 => match look x.chains n with
    | some c => s.setEngine e { x with chains := Tab.put x.chains n { c with cur := some m } }
    | none => s
/-- The command leaves its source. -/
def State.dropCmd (s : State) (e src : Nat) : State :=
  let x := s.engine e
  match src with
  | 0 => s.setEngine e { x with window := x.window.drop 1 }
  | n + 1 => match look x.chains n with
    | some c => s.setEngine e { x with chains := Tab.put x.chains n { c with cur := none } }
    | none => s

/-- The command fails with a cause (R312). -/
def Cmd.fail (m : Cmd) (cause : Byte) (addr : Dword) : Cmd := { m with performed := true, failed := true, cause := cause, addr := addr }
def Cmd.done (m : Cmd) : Cmd := { m with performed := true }
/-- The warp whose holds stand for a command's accesses (R243): the one that sent it, or what the retirement tracker keeps of it. -/
def State.cmdWarp (s : State) (m : Cmd) : Warp :=
  match m.by_ with
  | .window c k id =>
    if (s.warp c k).cmds.contains id then s.warp c k
    else (((s.cluster c).tracker.find? fun p => p.2.cmds.contains id).map fun p => p.2).getD {}
  | .chain _ => {}
/-- What a command finds at bytes of its source. -/
def State.srcPlace (s : State) (m : Cmd) (off n : Nat) : Place := s.rangePlace (s.cmdWarp m) m.ctx (capObj m.src) off n
/-- The engine as a record names it (R312): its number stands for the cluster. -/
def engineClu (e : Nat) : Nat := e / 16 * Config.dieClusters + e % 16
/-- A command that waits at a page of its source, which is asked for where it is not present (R165). -/
def State.askSrc (s : State) (e : Nat) (m : Cmd) (off : Nat) (cause : Byte) : State := s.askPage m.ctx (engineClu e) (capObj m.src) off cause
/-- The tier controller serves the read of a source (R185). -/
def State.servedSrc (s : State) (m : Cmd) (off n : Nat) : State := s.served m.ctx (capObj m.src) off n
/-- One step of a command with this OP that is not performed yet; none in a module that has FAILED (R322). -/
def State.stepCmd (s : State) (die eng src op : Nat) (f : Nat → Cmd → State) : State :=
  let e := engineNo die eng
  match s.cmd e src with
  | some m => if m.op = op ∧ !m.performed ∧ s.health ≠ 2 then f e m else s
  | none => s

/-! ### Chains (R313) -/

/-- Host work is placed: bring-up is done (R330), and the module has not FAILED (R322). -/
def State.hostWork (s : State) : Bool := decide (s.boot ≥ 8) && s.health != 2

/-- CHAIN_ATTACH (R309, R313): once the host is admitted (R330), system software attaches a chain to an engine that has fewer than 16; GLOBAL of its sequence record
is held from now on (R314). -/
def execChainAttach (die eng ctx obj off : Nat) (s : State) : Host.Outcome State Fault Refusal :=
  let e := engineNo die eng
  let x := s.engine e
  .next (if die < 2 ∧ eng < 16 ∧ off % 64 = 0 ∧ s.hostWork = true then
      match (List.range 16).find? fun i => (look x.chains i).isNone with
      | some i => (s.setEngine e { x with chains := Tab.put x.chains i { ctx := ctx, obj := obj, off := off } }).holdGlobal ctx obj
          (off + 32)
      | none => s
    else s)

/-- Doubleword `i` of a chain's control block. -/
def State.ccb (s : State) (c : Chain) (i : Nat) : Dword := (s.dwRead c.ctx c.obj (c.off + 8 * i)).getD 0
def State.setCcb (s : State) (c : Chain) (i : Nat) (d : Dword) : State := (s.dwWrite c.ctx c.obj (c.off + 8 * i) d).getD s
/-- An entry waits to be taken. -/
def State.chainReady (s : State) (c : Chain) : Bool :=
  let n := (s.ccb c 2).toNat % 2 ^ 32 + 2 ^ 32 - field (s.ccb c 2) 32 32
  (s.objRead c.ctx c.obj c.off 64).isSome && (s.ccb c 0).getLsbD 63 && !(s.ccb c 0).getLsbD 61 &&
    decide (1 ≤ n % 2 ^ 32 ∧ n % 2 ^ 32 < 2 ^ 31)

/-- The record of a chain's command, or of a halt (R312). -/
def State.chainRecord (s : State) (ctx die eng : Nat) (cause : Byte) (addr : Dword) : State :=
  s.post ctx { cause := cause, cl := die * Config.dieClusters + eng, slot := noSlot, wgid := 0, addr := addr, lobj := 0, pc := 0
               lanes := 0, kind := 3 }

/-- What keeps an entry from being read: none where it lies in a global object, aligned (R313). -/
def State.entryCause (s : State) (ctx obj off : Nat) : Option Byte :=
  let d := s.desc ctx obj
  if !d.valid then some Cause.nullCap
  else if d.kind != 0 then some Cause.rights
  else if off + 64 > d.len then some Cause.bounds
  else if off % 64 ≠ 0 then some Cause.align
  else none

/-- The command of an entry whose doublewords `d` gives. -/
def chainCmd (c : Chain) (n : Nat) (hosted : Bool) (d : Nat → Dword) : Cmd :=
  { ctx := c.ctx, op := field (d 0) 60 4, defer := (d 0).getLsbD 58, len := field (d 0) 0 32, src := d 1, dst := d 2
    aux := loWord (d 3), seq := mkCap c.obj 0 (c.off + 32), host := hosted, by_ := .chain n }
/-- Bits of an entry that must be 0, and what R310 does not allow of a chain (log 24). -/
def badEntry (d : Nat → Dword) : Bool :=
  let op := field (d 0) 60 4
  op = 3 || op = 4 || op > 6 || (d 0).getLsbD 59 || field (d 0) 32 26 != 0 || field (d 3) 32 32 != 0 || d 4 != 0 || d 5 != 0 ||
    d 6 != 0 || field (d 7) 36 4 != 0 || ((d 0).getLsbD 58 && op != 1 && op != 2) || (op = 5 && field (d 0) 0 32 != 0)
/-- The checks of a chain command (R310, R313). -/
def State.chainCause (s : State) (m : Cmd) : Option (Byte × Dword) :=
  let g : Wg := { ctx := m.ctx }
  if m.op = 5 then s.checkRange g m.src (capOff m.src) { rights := 9, kinds := [0], size := 64 } 64
  else if m.op = 6 then s.checkRange g m.src (capOff m.src) { rights := 8, kinds := [0, 5], size := 16 } 16
  else s.cmdCause g m

/-- The entry cannot be read: HALT (R313). -/
def State.chainHalt (s : State) (c : Chain) (die eng : Nat) (cause : Byte) (addr : Dword) : State :=
  ((s.setCcb c 0 (s.ccb c 0 ||| (1#64 <<< 61))).chainRecord c.ctx die eng cause addr).count (engineUnit (engineNo die eng))
    .chainHalts 1

/-- CHAIN_ENTRY_TAKE (R313). -/
def execChainEntryTake (die eng chain : Nat) (s : State) : Host.Outcome State Fault Refusal :=
  let e := engineNo die eng
  .next (match look (s.engine e).chains chain with
    | none => s
    | some c =>
      if c.cur.isSome || !s.hostWork then s
      else if !s.chainReady c then
        match s.translate c.ctx c.obj c.off with
        | .waits cause => s.askPage c.ctx (engineClu e) c.obj c.off cause
        | _ => s
      else
        let obj := field (s.ccb c 1) 40 24
        let off := field (s.ccb c 1) 0 36
        match s.entryCause c.ctx obj off with
        | some cause => s.chainHalt c die eng cause (objAddr obj off)
        | none =>
          match s.hwPlace {} c.ctx obj off 64 with
          | .waits cause => s.askPage c.ctx (engineClu e) obj off cause
          | .fails cause => s.chainHalt c die eng cause (objAddr obj off)
          | .found _ =>
            let d (i : Nat) : Dword := (s.dwRead c.ctx obj (off + 8 * i)).getD 0
            let m := chainCmd c chain ((s.ccb c 0).getLsbD 62) d
            let m' := if badEntry d then m.fail Cause.illegal 0
              else match s.chainCause m with
                | some (cause, addr) => m.fail cause addr
                | none => m
            let x := (s.served c.ctx obj off 64).setCcb c 1 (BitVec.ofNat 64 (field (d 7) 40 24 * 2 ^ 40 + field (d 7) 0 36))
            (x.setCcb c 2 (setField (x.ccb c 2) 32 32 (field (x.ccb c 2) 32 32 + 1))).setCmd e (chain + 1) m')

/-! ### NOP, COPY, FILL -/

/-- ENGINE_NOP (R310). -/
def execEngineNop (die eng src : Nat) (s : State) : Host.Outcome State Fault Refusal :=
  .next (s.stepCmd die eng src 0 fun e m => s.setCmd e src m.done)

/-- The first step of a COPY or a FILL: its shadow comes to be, or it waits for one that is pending (R311). -/
def State.startShadow (s : State) (e src : Nat) (m : Cmd) : State :=
  let obj := capObj m.dst
  if m.len = 0 then s.setCmd e src m.done
  else if (s.shadowOf m.ctx obj).isSome then
    if m.held then s else (s.setCmd e src { m with held := true }).count (engineUnit e) .shadowHolds 1
  else match s.createShadow m.ctx obj (capOff m.dst) m.len m.defer m.seq with
    | .ok x => x.setCmd e src { m with began := true }
    | .waits => ((s.desc m.ctx obj).partPages (capOff m.dst) m.len).foldl (fun x j =>
        let off := pageSize (s.desc m.ctx obj).pg * j
        match s.translate m.ctx obj off with
        | .waits cause => x.askPage m.ctx (engineClu e) obj off cause
        | _ => x) s
    | .fails cause addr => s.setCmd e src (m.fail cause addr)

/-- Bytes into the shadow of the destination, from where the command stands. -/
def State.shadowBytes (s : State) (m : Cmd) (l : List Byte) : State :=
  s.shadowPut m.ctx (capObj m.dst) (capOff m.dst + m.moved) l
/-- `n` more are moved. -/
def Cmd.forth (m : Cmd) (n total : Nat) : Cmd := { m with moved := m.moved + n, performed := decide (m.moved + n ≥ total) }
/-- The next bytes of a COPY or a FILL: a destination page may meet a cause, or make the command wait (R312). -/
def State.shadowStep (s : State) (e src : Nat) (m : Cmd) (l : List Byte) : State :=
  let obj := capObj m.dst
  let off := capOff m.dst + m.moved
  match worstPlace (((s.desc m.ctx obj).pieces off l.length).map fun q => s.shadowHw m.ctx obj q.1 q.2) with
  | .waits cause => s.askPage m.ctx (engineClu e) obj off cause
  | .fails cause => s.setCmd e src (m.fail cause (objAddr obj off))
  | .found _ => ((s.shadowBytes m l).setCmd e src (m.forth l.length m.len)).count (engineUnit e) .engineBytes l.length

/-- ENGINE_COPY (R310, R311): the shadow, then the bytes up to the next line of the source. -/
def execEngineCopy (die eng src : Nat) (s : State) : Host.Outcome State Fault Refusal :=
  .next (s.stepCmd die eng src 1 fun e m =>
    if !m.began then s.startShadow e src m
    else
      let at_ := capOff m.src + m.moved
      let n := min (64 - at_ % 64) (m.len - m.moved)
      match s.srcPlace m at_ n with
      | .waits cause => s.askSrc e m at_ cause
      | .fails cause => s.setCmd e src (m.fail cause (objAddr (capObj m.src) at_))
      | .found _ => (s.servedSrc m at_ n).shadowStep e src m ((List.range n).map fun i => s.objByte m.ctx (capObj m.src) (at_ + i)))

/-- ENGINE_FILL (R310, R311): the shadow, then up to 16 repeats of the pattern. -/
def execEngineFill (die eng src : Nat) (s : State) : Host.Outcome State Fault Refusal :=
  .next (s.stepCmd die eng src 2 fun e m =>
    if !m.began then s.startShadow e src m
    else
      s.shadowStep e src m ((List.range (min 64 (m.len - m.moved) / 4)).flatMap fun _ => leBytes 4 m.aux.toNat))

/-! ### STASH and SLOT -/

/-- Where a window command came from. -/
def Cmd.cluster (m : Cmd) : Nat := match m.by_ with
  | .window c _ _ => c
  | .chain _ => 0

/-- ENGINE_STASH (R173, R310): one granule, whose full bit is set. -/
def execEngineStash (die eng src : Nat) (s : State) : Host.Outcome State Fault Refusal :=
  .next (s.stepCmd die eng src 3 fun e m =>
    let at_ := capOff m.src + m.moved
    let dest := capOff m.dst + m.moved
    let c := m.cluster
    if m.len = 0 then s.setCmd e src m.done
    else match s.srcPlace m at_ 16 with
      | .waits cause => s.askSrc e m at_ cause
      | .fails cause => s.setCmd e src (m.fail cause (objAddr (capObj m.src) at_))
      | .found _ =>
        let v := leNat ((List.range 16).map fun i => s.objByte m.ctx (capObj m.src) (at_ + i))
        match (s.servedSrc m at_ 16).stashWrite c { entry := m.entry } dest 16 v none with
        | .waits cause =>
          let p := (s.wg c m.entry).standsFor stashObj dest
          s.askPage m.ctx (engineClu e) p.1 p.2 cause
        | .fails cause => s.setCmd e src (m.fail cause (BitVec.ofNat 64 dest))
        | .ok x _ =>
          ((x.modCluster c fun y => y.setFull ((x.wg c m.entry).granule dest) true).setCmd e src (m.forth 16 m.len)).count
            (engineUnit e) .engineBytes 16)

/-- ENGINE_SLOT (R216, R221, R310): one row, which is marked. In the cycle of an OREL of the slot no row is written after it: the
write falls in a later one (R219). -/
def execEngineSlot (die eng src : Nat) (s : State) : Host.Outcome State Fault Refusal :=
  .next (s.stepCmd die eng src 4 fun e m =>
    let c := m.cluster
    let n := if m.sb then 132 else 128
    let at_ := capOff m.src + n * m.moved
    let row := m.row0 + m.moved
    let slot := handleSlot m.aux
    match (if (s.cluster c).orels.contains slot then .waits Cause.slot else s.srcPlace m at_ n) with
    | .waits cause => s.askSrc e m at_ cause
    | .fails cause => s.setCmd e src (m.fail cause (objAddr (capObj m.src) at_))
    | .found _ =>
      if !(s.cluster c).validHandle m.entry m.aux then s.setCmd e src (m.fail Cause.slot (m.aux.setWidth 64))
      else
        let l := (List.range n).map fun i => s.objByte m.ctx (capObj m.src) (at_ + i)
        let x := (s.servedSrc m at_ n).modCluster c fun y =>
          let z := y.fillBytes slot false (128 * row) (l.take 128)
          if m.sb then z.fillBytes slot true (4 * row) (l.drop 128) else z
        ((x.markRows c slot [row]).setCmd e src (m.forth 1 m.rows)).count (engineUnit e) .engineBytes n)

/-! ### LAUNCH and WAIT -/

/-- ENGINE_LAUNCH (R280, R310): the descriptor is enqueued; a full queue makes it wait; for a descriptor refused by its contents
the manual names no cause (R278; log 25). -/
def execEngineLaunch (die eng src : Nat) (s : State) : Host.Outcome State Fault Refusal :=
  .next (s.stepCmd die eng src 5 fun e m => if !s.hostWork then s else
    let obj := capObj m.src
    let off := capOff m.src
    match s.srcPlace m off 64 with
    | .waits cause => s.askSrc e m off cause
    | .fails cause => s.setCmd e src (m.fail cause (objAddr obj off))
    | .found _ =>
      match s.readDesc m.ctx obj off with
      | none => s
      | some d =>
        if s.refusesDesc m.ctx d then
          let f := s.free
          f.2.setCmd e src (m.fail (f.1.setWidth 8) (objAddr obj off))
        else match s.enqueueLaunch m.ctx die obj off with
          | some x => (x.servedSrc m off 64).setCmd e src m.done
          | none => s)

/-- A WAIT reads COUNT (R192, R310). -/
def State.engineLook (s : State) (e src : Nat) (m : Cmd) : State :=
  let obj := capObj m.src
  let off := capOff m.src
  match s.srcPlace m off 4 with
  | .waits cause => s.askSrc e m off cause
  | .fails cause => s.setCmd e src (m.fail cause (objAddr obj off))
  | .found _ =>
    match s.objRead m.ctx obj off 4 with
    | some v => (s.servedSrc m off 4).setCmd e src (if reached (BitVec.ofNat 32 v) m.aux then m.done else { m with began := true })
    | none => s
/-- ENGINE_WAIT (R310): its first read. -/
def execEngineWait (die eng src : Nat) (s : State) : Host.Outcome State Fault Refusal :=
  .next (s.stepCmd die eng src 6 fun e m => if m.began then s else s.engineLook e src m)
/-- ENGINE_WAIT_WAKE (R310): it reads again. -/
def execEngineWaitWake (die eng src : Nat) (s : State) : Host.Outcome State Fault Refusal :=
  .next (s.stepCmd die eng src 6 fun e m => if m.began then s.engineLook e src m else s)

/-! ### ENGINE_COMMAND_COMPLETE -/

/-- COUNT of the sequence record rises by 1, GLOBAL is held at 1; after a failure ERR is written first (R312, R314). -/
def State.bumpSeq (s : State) (m : Cmd) : Option State :=
  let obj := capObj m.seq
  let off := capOff m.seq
  match s.dwRead m.ctx obj off with
  | none => none
  | some d =>
    let n := (d.toNat + 1) % 2 ^ 32
    let x := if m.failed then s.objWrite m.ctx obj (off + 12) 4 (m.cause.toNat * 2 ^ 24 + n % 2 ^ 24) else some s
    match x with
    | none => none
    | some y => y.dwWrite m.ctx obj off (BitVec.ofNat 64 (setField (d ||| (1#64 <<< 32)) 0 32 n).toNat)

/-- The page of the sequence record is asked for, where the count has to wait for it (R165). -/
def State.askSeq (s : State) (e : Nat) (m : Cmd) : State := match s.translate m.ctx (capObj m.seq) (capOff m.seq) with
  | .waits cause => s.askPage m.ctx (engineClu e) (capObj m.seq) (capOff m.seq) cause
  | _ => s
/-- The shadow of a COPY or a FILL at its end: discarded, left to PUBL, or published (R311, R312). -/
def State.endShadow (s : State) (m : Cmd) : Option State :=
  let obj := capObj m.dst
  if !((m.op == 1 || m.op == 2) && m.began) then some s
  else if m.failed then some (s.discardShadow m.ctx obj)
  else if m.defer then
    some { s with shadows := s.shadows.map fun x => if x.ctx = m.ctx ∧ x.obj = obj then { x with filled := true } else x }
  else s.publish m.ctx obj

/-- A warp's command has ended. -/
def Cluster.endCmd (x : Cluster) (id : Nat) : Cluster :=
  let off (w : Warp) : Warp := { w with cmds := w.cmds.filter fun i => i != id }
  { x with warps := x.warps.map fun p => (p.1, off p.2), tracker := x.tracker.map fun p => (p.1, off p.2) }

/-- GLOBAL of the record is held no longer once no command under way counts in it (R314; log 75). -/
def State.seqDone (s : State) (m : Cmd) : State :=
  let same (q : Cmd) : Bool := q.ctx == m.ctx && capObj q.seq == capObj m.seq && capOff q.seq == capOff m.seq
  let chained := s.engines.any fun e => e.2.chains.any fun c =>
    c.2.ctx == m.ctx && c.2.obj == capObj m.seq && c.2.off + 32 == capOff m.seq
  if chained || s.engines.any fun e => e.2.window.any same then s else s.freeGlobal m.ctx (capObj m.seq) (capOff m.seq)

/-- The record of a failure, and FL of a window command's launch (R312). -/
def State.reportCmd (s : State) (m : Cmd) (die eng : Nat) : State :=
  match m.by_ with
  | .chain _ => s.chainRecord m.ctx die eng m.cause m.addr
  | .window c k _ =>
    let g := s.wg c m.entry
    ((s.modWg c m.entry fun x => { x with failed := true }).post m.ctx
      { cause := m.cause, cl := c, slot := k, wgid := g.wgid, addr := m.addr, lobj := g.wobj, pc := 0, lanes := 0, kind := 3 }).setFl
        m.ctx g.wobj g.woff

/-- ENGINE_COMMAND_COMPLETE (R208, R309, R311, R312, R314). -/
def execEngineCommandComplete (die eng src : Nat) (s : State) : Host.Outcome State Fault Refusal :=
  let e := engineNo die eng
  .next (match s.cmd e src with
    | none => s
    | some m =>
      if !m.performed || s.health == 2 then s
      else match s.endShadow m with
        | none => s
        | some x =>
          match x.bumpSeq m with
          | none => s.askSeq e m
          | some y =>
            let z := (y.dropCmd e src).count (engineUnit e) (.engineCmd m.op) 1
            let w := if m.failed then (z.reportCmd m die eng).count (engineUnit e) .engineFails 1 else z
            match m.by_ with
            | .window c _ id => (w.modCluster c fun q => q.endCmd id).seqDone m
            | .chain _ => w)

end Sys2Proof.Machine
end

