-- ==== Sys2Proof/Machine/Fabric.lean ====
section
/-! DEFINITION. Fabric reductions: XRA, XRC, XRW, XRF (R295 to R301), the hub's slots (R297 to R300), and slots whose
participants fail (R307). -/

namespace Sys2Proof.Machine

/-! ### Handles and devices (R295) -/

def handleHub (h : Word) : Nat := h.toNat / 2 ^ 24 % 64
def handleXr (h : Word) : Nat := h.toNat % 256
def devBit (d : Nat) : Dword := 1#64 <<< d
/-- A device of the pod: this one, or one whose port has trained with this pod's identifier since reset. -/
def State.inPod (s : State) (d : Nat) : Bool := d == s.dev || s.podDevs.contains d
def State.badHandle (s : State) (h : Word) : Bool :=
  decide (h.toNat / 2 ^ 30 ≠ 0) || decide (handleHub h > 36) || !s.inPod (handleHub h)
/-- The decode check of a handle register. -/
def xrHandle (a : Nat) (x : State) : Option (Byte × Dword) :=
  let r := x.me.getK a
  if r.tag == 0 && !r.plate && x.badHandle r.data then some (Cause.fabric, BitVec.ofNat 64 (handleXr r.data)) else none
/-- How the hub of a handle can be reached. -/
def State.hubReach (s : State) (h : Word) : Reach := if handleHub h = s.dev then .open_ else s.reach (handleHub h)
def State.joinOf (s : State) (h : Word) : Option XrJoin := s.xrJoins.find? fun j => j.handle == h

/-! ### Messages -/

/-- The join entry that an XRF has dropped stands again where its message is lost, so that the word can be sent again; it goes for
good where the message is answered (R300, R307). -/
def State.xrUndo (s : State) (handle : Word) (lost : Bool) : State :=
  { s with
    xrFreed := s.xrFreed.filter fun j => j.handle != handle
    xrJoins := if lost then s.xrJoins ++ s.xrFreed.filter (fun j => j.handle == handle) else s.xrJoins }
/-- The handle of an XRF's message. -/
def Req.xrfHandle (r : Req) : Option Word := match r.op with
  | .xr _ m _ _ => if m.body = .xrf then some m.handle else none
  | _ => none
/-- A word's answer is lost: its pending D and CM are settled, and its threads take FABRIC later (R307); of threads that have left,
R32 governs. With no D the cause names no register. -/
def State.xrLost (s0 : State) (c k : Nat) (r : Req) (d : Option Dst) : State :=
  let s := match r.xrfHandle with
    | some h => s0.xrUndo h true
    | none => s0
  match d with
  | some e => s.reqFailed c k r e 0 true Cause.fabric
  | none =>
    let x : Deferred :=
      { cause := Cause.fabric, addr := objAddr r.obj r.off, reg := some (false, 512), cm := true
        atPc := if r.marked then some r.pc else none }
    let live := r.threads.filter fun t => ((s.warp c k).thread t).st != .exited
    let y := s.modWarp c k fun w => live.foldl (fun q t => q.modThread t fun y => { y with deferred := y.deferred ++ [x] })
      (r.threads.foldl (fun q t => q.unpendDst t .cm) (w.dropReq r.id))
    (if k ≥ trackSlot ∨ live.isEmpty then y.drainError c k Cause.fabric x.addr r.pc r.threads else y).stir c k

/-- A message is sent, or is lost at once where the hub's port is down. TADDR of a cause holds the slot number. -/
def State.xrSend (s : State) (h : Hdr) (t : Nat) (ts : List Nat) (handle : Word) (body : XrBody) (cap : Dword) (d : Option Dst) :
    State :=
  let w := s.me
  let p := s.freshId
  let no := s.xrNext
  let r : Req :=
    { id := p.1, t := t, threads := ts, obj := 0, off := handleXr handle, size := 0, taint := w.anyTaint ts
      op := .xr no { dev := s.dev, handle := handle, body := body } cap d, tts := w.taints ts, pc := s.cur.pc
      marked := h.sw && s.cur.last, group := p.1 }
  let x := match d with
    | some e => p.2.pendBoth t ts e 1
    | none => ts.foldl (fun q u => q.pend u .cm) p.2
  let y := x.modMe fun q => { q with reqs := q.reqs ++ [r] }
  if s.hubReach handle == .down then y.xrLost s.cur.cl s.cur.slot r d
  else { y with xrNext := no + 1, xrFlights := y.xrFlights ++ [(no, handle)] }

/-- The warp that waits for the answer to a message, with its request. -/
def State.xrFind (s : State) (no : Nat) : Option (Nat × Nat × Req) :=
  let isNo (r : Req) : Bool := match r.op with
    | .xr n _ _ _ => n == no
    | _ => false
  s.clusters.findSome? fun e =>
    ((e.2.warps ++ e.2.tracker.map fun p => (trackSlot + p.1, p.2)).findSome? fun p =>
      (p.2.reqs.find? isNo).map fun r => (e.1, p.1, r))
/-- The message is the first of its handle on its way (R301). -/
def State.xrFirst (s : State) (no : Nat) (h : Word) : Bool := (s.xrFlights.find? fun p => p.2 == h) == some (no, h)
def State.dropFlight (s : State) (no : Nat) : State := { s with xrFlights := s.xrFlights.filter fun p => p.1 != no }

/-- The answer to a message becomes a long result (R50). Of an XRA, which has a D, CPM takes the run's TT (R297). -/
def State.xrAnswer (s : State) (c k : Nat) (r : Req) (d : Option Dst) (v : Word) (cm : Bool) : State :=
  let l : Long :=
    { id := r.id, remote := true
      writes := (d.map fun e => ({ t := r.t, dst := e, val := v, plate := r.taint } : LWrite)).toList ++
        r.threads.map fun t => { t := t, dst := .cm, val := if cm then 1 else 0
                                 plate := if d.isSome then r.taint else bitOf r.tts t } }
  s.modWarp c k fun w =>
    let y := w.dropReq r.id
    if y.retiring || decide (k ≥ trackSlot) then y else { y with longs := y.longs ++ [l] }

/-! ### The four words -/

/-- The result record of an XRA. -/
def xrRecord (n : Nat) : Nat := 16 + 4 * n
/-- XRA (R296, R297). -/
def execXra (h : Hdr) (op : BitVec 3) (tmo : BitVec 4) (n1 : BitVec 6) (d a b c : Nat) (s : State) :
    Host.Outcome State Fault Refusal :=
  let n := n1.toNat + 1
  .next (issue s { h := h, named := [(.k d, 1), (.k a, 1), (.k b, 2), (.k c, 2)], cm := true, once := true, handle := xrHandle a }
    (perRun fun x ts =>
      let w := x.me
      let t := ts.headD 0
      let cap := w.kPair c
      match (plainCause w t [srcA (.k a), srcB (.k b) .arith 2, srcC (.k c) .arith 2]).or
          (x.checkRange x.myWg cap (capOff cap) { rights := 4, kinds := [0], size := xrRecord n } 16) with
      | some (cause, addr) => .hit cause addr x
      | none => .ok (x.xrSend h t ts (w.getK a).data (.xra op.toNat n tmo.toNat (w.kPair b)) cap (some (.k d)))))

/-- The elements that an XRC sends now, by its join entry; none without one. -/
def xrcCount (a : Nat) (x : State) : Nat :=
  let r := x.me.getK a
  if r.tag == 0 && !r.plate then ((x.joinOf r.data).map fun j => j.n).getD 0 else 0
def xrcElem (w : Warp) (c i : Nat) : Reg := w.getV (i % 32) (c + i / 32)
/-- SWITCH over the lanes that an XRC reads. -/
def xrcSwitch (a c : Nat) (x : State) : Option (Byte × Dword) :=
  ((List.range (xrcCount a x)).find? fun i => (xrcElem x.me c i).pend).map fun i => (Cause.switch, BitVec.ofNat 64 (c + i / 32))
/-- XRC (R296, R298). A handle that is mistagged or plated raises FORMAT or PLATE_ADDR before its elements are read, so before UNINIT of a void
element: R298 gives no order (DESIGN CHOICE, log 96). -/
def execXrc (h : Hdr) (a c : Nat) (s : State) : Host.Outcome State Fault Refusal :=
  .next (issue s { h := h, cm := true, once := true, handle := xrHandle a, more := xrcSwitch a c
                   named := [(.k a, 1), (.v c, 1)] ++ if xrcCount a s > 32 then [(.v (c + 1), 1)] else [] } (perRun fun x ts =>
    let w := x.me
    match plainCause w (ts.headD 0) [srcA (.k a)] with
    | some (cause, addr) => .hit cause addr x
    | none =>
      let hd := (w.getK a).data
      let j := x.joinOf hd
      let l := (List.range ((j.map fun q => q.n).getD 0)).map fun i => xrcElem w c i
      let tag : BitVec 2 := if j.any fun q => q.op == 1 then 0 else 1
      if l.any fun r => r.tag == 3 then .hit Cause.uninit 3 x
      else if l.any fun r => r.tag != tag then .hit Cause.format 3 x
      else if (l.any fun r => r.plate) || w.anyTaint ts then .hit Cause.plateEscape 3 x
      else if j.isSome then .ok (x.xrSend h (ts.headD 0) ts hd (.xrc (l.map fun r => r.data)) 0 none)
      else .ok (x.long (w.cmWrites ts false) 0)))

/-- XRF (R296, R300). -/
def execXrf (h : Hdr) (a : Nat) (s : State) : Host.Outcome State Fault Refusal :=
  .next (issue s { h := h, named := [(.k a, 1)], cm := true, once := true, handle := xrHandle a } (perRun fun x ts =>
    let w := x.me
    match plainCause w (ts.headD 0) [srcA (.k a)] with
    | some (cause, addr) => .hit cause addr x
    | none =>
      let hd := (w.getK a).data
      match x.joinOf hd with
      | none => .ok (x.long (w.cmWrites ts false) 0)
      | some j =>
        let y : State := { x with xrJoins := x.xrJoins.filter fun q => q.handle != hd, xrFreed := x.xrFreed ++ [j] }
        .ok (y.xrSend h (ts.headD 0) ts hd .xrf 0 none)))

/-- The record of a join answers its handle and is complete: word 0. -/
def State.xrReady (s : State) (j : XrJoin) : Option Word :=
  match s.objRead j.ctx j.obj j.off 4, s.objRead j.ctx j.obj (j.off + 4) 4 with
  | some a, some b => if BitVec.ofNat 32 b = j.handle ∧ a % 2 = 1 then some (BitVec.ofNat 32 a) else none
  | _, _ => none
/-- The acquire of the record by XRW (R299). -/
def State.xrAcquire (s : State) (c e : Nat) (j : XrJoin) : State :=
  let g := s.wg c e
  s.acquireIn c g [(wordKey j.ctx j.obj (j.off / 4), wordKey j.ctx j.obj ((j.off + xrRecord j.n) / 4))]

/-- XRW (R296, R299). -/
def execXrw (h : Hdr) (d a : Nat) (s : State) : Host.Outcome State Fault Refusal :=
  .next (issue s { h := h, named := [(.k d, 1), (.k a, 1)], cm := true, once := true, handle := xrHandle a } (perRun fun x ts =>
    let w := x.me
    let t := ts.headD 0
    match plainCause w t [srcA (.k a)] with
    | some (cause, addr) => .hit cause addr x
    | none =>
      let hd := (w.getK a).data
      match x.joinOf hd with
      | none =>
        let p := w.anyTaint ts
        .ok (x.long ({ t := t, dst := .k d, val := 0, plate := p } ::
          ts.map fun u => { t := u, dst := .cm, val := 0, plate := p }) 0)
      | some j => .ok ((x.pendBoth t ts (.k d) 1).await ts (.xrw j (.k d)))))
/-- CM of the threads of an XRW: CPM takes the run's TT (R299). -/
def State.runCm (s : State) (c k : Nat) (ts : List Nat) (b p : Bool) : State :=
  s.modWarp c k fun w => ts.foldl (fun x t => x.write t .cm (if b then 1 else 0) 0 p) w
/-- XRW_WAKE (R299, R307): the hub's port went down while it waited, or the record stands; or it does not come: its join has gone before
the record was complete, as if there were none, or the hub's port is down. A cluster in a handshake, or one that owns a word of the record and is in one, makes
it wait (R321). -/
def execXrwWake (cl slot id : Nat) (s : State) : Host.Outcome State Fault Refusal :=
  let w := s.warp cl slot
  .next (match w.waitOf id with
    | some x =>
      match x.why with
      | .xrw j d =>
        let hd := j.handle
        let t := x.threads.headD 0
        let p := w.anyTaint x.threads
        let off (y : State) : State := y.modWarp cl slot fun q => q.unpendBoth t x.threads d 1
        let fails : State :=
          let r : Req :=
            { id := x.id, t := t, threads := x.threads, obj := 0, off := handleXr hd, size := 0, op := .failed 0, pc := x.pc
              marked := x.threads.any fun u => (w.thread u).marked }
          (s.reqFailed cl slot r d 0 true Cause.fabric).endWait cl slot x
        if x.lost then fails
        else if (s.cluster cl).crossing || s.snoopWaits cl j.ctx j.obj j.off 8 then s
        else match s.xrReady j with
        | some v =>
          (((off (s.xrAcquire cl w.entry j)).lateWrite cl slot t d v 0 p).runCm cl slot x.threads (v &&& 7 == 1) p).endWait cl slot x
        | none =>
          if (s.joinOf hd).isNone then (((off s).lateWrite cl slot t d 0 0 p).runCm cl slot x.threads false p).endWait cl slot x
          else if s.hubReach hd == .down then fails else s
      | _ => s
    | none => s)

/-! ### The hub (R297 to R300) -/

def State.xrSlot (s : State) (i : Nat) : XrSlot := Tab.get {} s.xrSlots i
def State.setXr (s : State) (i : Nat) (x : XrSlot) : State := { s with xrSlots := Tab.put s.xrSlots i x }
def XrSlot.deadline (x : XrSlot) : Nat := x.t0 + 2 ^ (x.tmo + 2)
def hasBit (m : Dword) (d : Nat) : Bool := m.getLsbD d

/-- One element over the contributions of an op, and whether a NaN rule applied (R298). -/
def xrElem (op : Nat) (l : List Word) : Word × Bool :=
  if op = 1 then (l.foldl (· + ·) 0, false)
  else
    let vs := l.map f32
    if vs.any FVal.isNan || (op == 0 && vs.contains (.inf false) && vs.contains (.inf true)) then (canonNan, true)
    else match op with
      | 0 => ((sumF32 l).1, false)
      | 2 => ((foldMinmax true l).1, false)
      | 3 => ((foldMinmax false l).1, false)
      | _ => (l.foldl (fun b w => if b.toNat < w.toNat % 2 ^ 31 then BitVec.ofNat 32 (w.toNat % 2 ^ 31) else b) 0, false)
def XrSlot.elems (x : XrSlot) : List (Word × Bool) :=
  (List.range x.n).map fun i => xrElem x.op (x.data.map fun l => l.getD i 0)
def XrSlot.nanSeen (x : XrSlot) : Bool := x.elems.any fun p => p.2
def XrSlot.missing (x : XrSlot) : Dword := x.mask &&& ~~~x.contributed

/-- A slot is DONE at a tick (R299): a timeout is counted, and a result with NAN_SEEN (R308). -/
def State.xrDone (s : State) (i : Nat) (x : XrSlot) (timeout : Bool) (at_ : Nat) : State :=
  ((s.setXr i { x with st := .done, timeout := timeout, doneAt := at_ }).count 130 .xrTimeouts timeout.toNat).count 130 .xrNans
    x.nanSeen.toNat
/-- Ticks after which an abandoned DONE slot is reclaimed (R307). -/
def reclaimTicks : Nat := 3000000
/-- An OPEN slot whose time has passed is DONE, from that tick on (R299). -/
def State.xrLapse (s : State) (i : Nat) : State :=
  let x := s.xrSlot i
  if x.st == .open_ && x.tmo != 0 && decide (x.deadline ≤ s.tick) then s.xrDone i x true x.deadline else s
/-- A slot that has stayed DONE too long is FREE (R307). -/
def State.xrReclaim (s : State) (i : Nat) : State :=
  let x := s.xrSlot i
  if x.st == .done && decide (x.doneAt + reclaimTicks ≤ s.tick) then (s.setXr i {}).count 130 .xrReclaimed 1 else s
/-- A slot as a message finds it. -/
def State.xrNow (s : State) (i : Nat) : State := (s.xrLapse i).xrReclaim i

/-- The decision of an XRA (R297): its code. -/
def State.hubXra (s : State) (m : XrMsg) (op n tmo : Nat) (mask : Dword) : Nat × State :=
  let i := handleXr m.handle
  let y := s.xrNow i
  let x := y.xrSlot i
  let mine := x.st != .free && x.handle == m.handle
  if !hasBit mask m.dev || (mine && (x.op != op || x.n != n || x.tmo != tmo || x.mask != mask || hasBit x.joined m.dev)) then
    (4, y.count 130 .xrRefused 1)
  else if x.st != .free && x.handle != m.handle then (3, y.count 130 .xrBusy 1)
  else match x.st with
    | .free =>
      (0, (y.setXr i { st := .open_, handle := m.handle, op := op, n := n, tmo := tmo, mask := mask, t0 := y.tick
                       joined := devBit m.dev }).count 130 .xrOpened 1)
    | .open_ => (1, (y.setXr i { x with joined := x.joined ||| devBit m.dev }).count 130 .xrJoins 1)
    | .done =>
      (2, (y.setXr i { x with joined := x.joined ||| devBit m.dev, late := x.late ||| devBit m.dev
                              lateAt := Tab.put x.lateAt m.dev y.tick }).count 130 .xrJoins 1)

/-- A contribution (R298): counted, or discarded as late. -/
def State.hubXrc (s : State) (m : XrMsg) (data : List Word) : Bool × State :=
  let i := handleXr m.handle
  let y := s.xrNow i
  let x := y.xrSlot i
  if x.st == .open_ && x.handle == m.handle && !hasBit x.contributed m.dev then
    let z : XrSlot := { x with contributed := x.contributed ||| devBit m.dev, data := x.data ++ [data] }
    (true, (if z.missing == 0 then y.xrDone i z false y.tick else y.setXr i z).count 130 .xrCounted 1)
  else (false, y.count 130 .xrLate 1)

/-- A free (R300). -/
def State.hubXrf (s : State) (m : XrMsg) : State :=
  let i := handleXr m.handle
  let y := s.xrNow i
  let x := y.xrSlot i
  if x.st != .free && x.handle == m.handle then
    let f := x.freed ||| devBit m.dev
    y.setXr i (if x.mask &&& ~~~f == 0 then {} else { x with freed := f })
  else y

/-- A message of another device can reach this hub, which answers from step 8 of bring-up on, and not once the module has FAILED
(R322, R330). -/
def State.peerAt (s : State) (m : XrMsg) : Bool := decide (s.boot ≥ 8) && s.health != 2 && m.dev != s.dev && handleHub m.handle == s.dev && s.reach m.dev == .open_
/-- A message of this device that has its turn at its hub, and that no handshake holds (R321): its warp and request. -/
def State.ownAt (s : State) (no : Nat) : Option (Nat × Nat × Req) :=
  match s.xrFind no with
  | some (c, k, r) =>
    match r.op with
    | .xr _ m _ _ =>
      if s.xrFirst no m.handle && s.hubReach m.handle == .open_ && !(s.cluster c).crossing then some (c, k, r) else none
    | _ => none
  | none => none

/-- XRA_AT_HUB (R297). -/
def execXraAtHub (src : XrSrc) (s : State) : Host.Outcome State Fault Refusal :=
  .next (match src with
    | .peer m => match m.body with
      | .xra op n tmo mask => if s.peerAt m then (s.hubXra m op n tmo mask).2 else s
      | _ => s
    | .own no answer =>
      match s.ownAt no with
      | some (c, k, r) =>
        match r.op with
        | .xr _ m cap d =>
          match m.body with
          | .xra op n tmo mask =>
            if handleHub m.handle ≠ s.dev ∧ answer > 4 then s
            else
              let p := if handleHub m.handle = s.dev then s.hubXra m op n tmo mask
                else (if hasBit mask s.dev then answer else 4, s)
              let ctx := (s.wg c (s.warp c k).entry).ctx
              let j : XrJoin := { handle := m.handle, ctx := ctx, obj := capObj cap, off := capOff cap, n := n, op := op }
              let y : State := if p.1 ≤ 2 then
                  { p.2 with xrJoins := (p.2.xrJoins.filter fun q => q.handle != m.handle) ++ [j] } else p.2
              (y.dropFlight no).xrAnswer c k r d (BitVec.ofNat 32 p.1) (p.1 ≤ 2)
          | _ => s
        | _ => s
      | none => s)
/-- XRC_AT_HUB (R298). -/
def execXrcAtHub (src : XrSrc) (s : State) : Host.Outcome State Fault Refusal :=
  .next (match src with
    | .peer m => match m.body with
      | .xrc data => if s.peerAt m then (s.hubXrc m data).2 else s
      | _ => s
    | .own no answer =>
      match s.ownAt no with
      | some (c, k, r) =>
        match r.op with
        | .xr _ m _ d =>
          match m.body with
          | .xrc data =>
            let p := if handleHub m.handle = s.dev then s.hubXrc m data else (answer == 1, s)
            (p.2.dropFlight no).xrAnswer c k r d 0 p.1
          | _ => s
        | _ => s
      | none => s)
/-- XRF_AT_HUB (R300). -/
def execXrfAtHub (src : XrSrc) (s : State) : Host.Outcome State Fault Refusal :=
  .next (match src with
    | .peer m => match m.body with
      | .xrf => if s.peerAt m then s.hubXrf m else s
      | _ => s
    | .own no _ =>
      match s.ownAt no with
      | some (c, k, r) =>
        match r.op with
        | .xr _ m _ d =>
          match m.body with
          | .xrf => (((if handleHub m.handle = s.dev then s.hubXrf m else s).xrUndo m.handle false).dropFlight no).xrAnswer c k r d 0 true
          | _ => s
        | _ => s
      | none => s)

/-- XR_SLOT_TIMEOUT (R299). -/
def execXrSlotTimeout (slot : Nat) (s : State) : Host.Outcome State Fault Refusal := .next (s.xrLapse slot)

/-- A record of a reduction as memory holds it. -/
def State.putRecord (s : State) (j : XrJoin) (word0 : Word) (missing : Dword) (elems : List Word) : Option State :=
  let put (x : Option State) (off : Nat) (w : Word) : Option State := match x with
    | some y => y.objWrite j.ctx j.obj off 4 w.toNat
    | none => none
  let y := (List.range elems.length).foldl (fun x i => put x (j.off + 16 + 4 * i) (elems.getD i 0)) (some s)
  put (put (put (put y (j.off + 8) (loWord missing)) (j.off + 12) (hiWord missing)) (j.off + 4) j.handle) j.off word0

/-- XR_RECORD_WRITE (R299): the hub writes the record of device `dev`, unless the module has FAILED (R322). For a slot of this hub the record follows from the
slot; a record of another hub comes as it was sent. -/
def execXrRecordWrite (handle : Word) (dev : Nat) (word0 : Word) (missing : Dword) (elems : List Word) (s : State) :
    Host.Outcome State Fault Refusal :=
  .next (if s.health == 2 then s
    else if handleHub handle = s.dev then
      let i := handleXr handle
      let x := s.xrSlot i
      if x.st == .done && x.handle == handle && hasBit x.joined dev && !hasBit x.freed dev && !hasBit x.recorded dev then
        let done := s.setXr i { x with recorded := x.recorded ||| devBit dev }
        if dev = s.dev then
          match s.joinOf handle with
          | none => done
          | some j =>
            let w0 := BitVec.ofNat 32 (1 + 2 * x.timeout.toNat + 4 * x.nanSeen.toNat + 8 * (hasBit x.late dev).toNat)
            match done.putRecord j w0 x.missing (x.elems.map fun p => p.1) with
            | some y => y
            | none => s
        else if s.reach dev == .open_ then done else s
      else s
    else if dev = s.dev then
      match s.joinOf handle with
      | none => s
      | some j =>
        if elems.length = j.n ∧ word0.getLsbD 0 ∧ word0.toNat < 16 ∧ s.hubReach handle = .open_ then
          (s.putRecord j word0 missing elems).getD s
        else s
    else s)

/-- XR_SLOT_RECLAIM (R307). -/
def execXrSlotReclaim (slot : Nat) (s : State) : Host.Outcome State Fault Refusal := .next (s.xrReclaim slot)

/-- Ticks within which the hub writes a record, from DONE or from a late XRA (R299). -/
def xrWithin : Nat := 1200
/-- Ticks by which the hub acts on its slots: timeouts, records that can be written (R299), and reclaims (R307). -/
def State.xrDues (s : State) : List Nat :=
  s.xrSlots.flatMap fun e => match e.2.st with
    | .open_ => if e.2.tmo = 0 then [] else [e.2.deadline]
    | .done =>
      ((List.range 64).filter fun d => hasBit e.2.joined d && !hasBit e.2.freed d && !hasBit e.2.recorded d &&
        (if d = s.dev then (s.joinOf e.2.handle).all fun j => (List.range ((xrRecord j.n + 3) / 4)).all fun i =>
            (s.objRead j.ctx j.obj (j.off + 4 * i) 4).isSome
          else s.reach d == .open_)).map (fun d => max e.2.doneAt (Tab.get 0 e.2.lateAt d) + xrWithin) ++ [e.2.doneAt + reclaimTicks]
    | .free => []

/-- An XRW that waits for a record of the hub. -/
def Wait.atHub (x : Wait) (dev : Nat) : Bool := match x.why with
  | .xrw j _ => handleHub j.handle == dev
  | _ => false
def Warp.loseHub (w : Warp) (dev : Nat) : Warp :=
  { w with waits := w.waits.map fun x => if x.atHub dev then { x with lost := true } else x }
/-- The port to a device goes down (R307): OPEN slots that wait for it are DONE, XRWs that wait for its records meet FABRIC, and
messages towards it are lost. -/
def State.xrPortDown (s : State) (dev : Nat) : State :=
  let y := s.xrSlots.foldl (fun x e =>
    if e.2.st == .open_ && hasBit e.2.mask dev && !hasBit e.2.contributed dev then x.xrDone e.1 e.2 true s.tick else x) s
  let z : State := { y with clusters := y.clusters.map fun e =>
    (e.1, { e.2 with warps := e.2.warps.map fun p => (p.1, p.2.loseHub dev) }) }
  (z.xrFlights.filter fun p => handleHub p.2 == dev).foldl (fun z p =>
    match z.xrFind p.1 with
    | some (c, k, r) =>
      match r.op with
      | .xr _ _ _ d => (z.dropFlight p.1).xrLost c k r d
      | _ => z
    | none => z.dropFlight p.1) z

end Sys2Proof.Machine
end

