-- ==== Sys2Proof/Machine/Outside.lean ====
section
/-! DEFINITION. Accesses of peers and of the host to objects of this module (R304, R306): checked and translated as a device's
are, performed at the point of coherence, or waiting at the module's ports. -/

namespace Sys2Proof.Machine

/-- Bytes of an access from outside, and the rights and kinds that it needs of an entry, as a device's would (R203, R306); a
peer's request is not sent on to another device (R303). -/
def outSize : OutAcc → Nat
  | .read n => n
  | .write l => l.length
  | .atom _ ty _ _ => if ty = 3 then 8 else 4
def outNeed (peer : Bool) : OutAcc → Nat × List Nat
  | .read _ => (8, if peer then [0, 2, 3, 6] else [0, 2, 3, 5, 6])
  | .write _ => (4, if peer then [0, 3] else [0, 3, 5])
  | .atom .. => (2, if peer then [0, 3] else [0, 3, 5])
/-- The entry admits the access (R304, R306). -/
def State.outOk (s : State) (peer : Bool) (ctx obj off : Nat) (acc : OutAcc) : Bool :=
  let d := s.desc ctx obj
  let n := outSize acc
  d.valid && hasRights d.rights (outNeed peer acc).1 && (outNeed peer acc).2.contains d.kind && decide (off + n ≤ d.len) &&
    [1, 2, 4, 8].contains n && off % n == 0

/-- What an access answers, and what it stores if anything, from the number that it found. -/
def outResult (acc : OutAcc) (old : Nat) : Option Nat :=
  match acc with
  | .read _ => none
  | .write l => some (leNat l)
  | .atom fn ty x y => atomNew fn ty old x.toNat y.toNat
def State.tellOut (s : State) (peer : Option Nat) (acc : OutAcc) (old : Nat) : State :=
  match acc with
  | .write _ => s
  | _ => { s with answers := s.answers ++ [(peer, leBytes (outSize acc) old)] }

/-- The access is performed at the point of coherence, at `a`. -/
def State.outDo (s0 : State) (o : Outside) (a : Nat) : State :=
  let n := outSize o.acc
  let s := s0.telling o.ctx o.obj o.off n
  let old := s.homeNat o.ctx o.obj o.off n a
  let x := (s.mscServe a).tellOut o.peer o.acc old
  match outResult o.acc old with
  | some v => x.homePut o.ctx o.obj o.off n a v
  | none => x

/-- An access from outside is performed, unless the module has FAILED (R322), or meets a cause that its issuer is told of (R304, R306), or waits as a device's does:
a page that is not present posts a record, in die 0's ring (R165; log 79). -/
def State.outTry (s : State) (o : Outside) : State :=
  let wait (x : State) (o : Outside) : State := { x with outs := insertBy (fun q => [q.id]) o (x.outs.filter fun q => q.id != o.id) }
  if s.health == 2 || s.recordOpen o.recAt || s.outs.any fun q => q.id < o.id && q.peer == o.peer && q.ctx == o.ctx && q.obj == o.obj &&
      decide (q.off < o.off + outSize o.acc ∧ o.off < q.off + outSize q.acc) then wait s o
  else match s.placeFrom Config.clusters {} o.ctx o.obj o.off (outSize o.acc) with
    | .found a => { s.outDo o a with outs := s.outs.filter fun q => q.id != o.id }
    | .fails _ => { s with outs := s.outs.filter fun q => q.id != o.id }
    | .waits cause =>
      if cause = Cause.translation then
        wait (s.post o.ctx { cause := cause, cl := 0, slot := noSlot, wgid := 0, addr := objAddr o.obj o.off, lobj := 0, pc := 0
                             lanes := 0, kind := 0 }) { o with recAt := s.nextRecord o.ctx 0 }
      else wait s o
/-- A new access from outside. -/
def State.outNew (s : State) (peer : Option Nat) (ctx obj off : Nat) (acc : OutAcc) : State :=
  ({ s with outNext := s.outNext + 1 } : State).outTry
    { id := s.outNext, peer := peer, ctx := ctx, obj := obj, off := off, acc := acc }

end Sys2Proof.Machine
end

