-- ==== Sys2Proof/Machine/Tarnish.lean ====
section
/-! DEFINITION. Tarnish memory: tiles and their life (R246, R247), tarnish objects (R248), the five instructions (R249 to
R252) and the events of the array. -/

namespace Sys2Proof.Machine

/-- A tile's life in ticks (R246). -/
def tileLife : Nat := 120000
def Tile.expires (x : Tile) : Nat := x.b.toNat + tileLife
/-- The tile is live at a tick. -/
def Tile.live (x : Tile) (p : Nat) : Bool := x.v && decide (p < x.expires)
/-- The tile has passed its expiry instant and has not been swept (R247). -/
def Tile.lapsed (x : Tile) (p : Nat) : Bool := x.v && !x.live p
def Cluster.tile (x : Cluster) (i : Nat) : Tile := Tab.get {} x.tiles i
def Cluster.setTile (x : Cluster) (i : Nat) (y : Tile) : Cluster := { x with tiles := Tab.put x.tiles i y }

/-! ### Where a tile lies (R248) -/

/-- The cluster and the tile of byte `off` of an object with an entry, where it is placed. -/
def State.tileIn (s : State) (d : Desc) (off : Nat) : Option (Nat × Nat) :=
  let e := s.pd (d.xlist + 8 * (off / 4096)) 0
  if e.getLsbD 63 then some ((d.plc - 1) * Config.dieClusters + field e 16 6, field e 0 10) else none
def State.tileOf (s : State) (ctx obj off : Nat) : Option (Nat × Nat) := s.tileIn (s.desc ctx obj) off
/-- The entry that a request was checked against (R164). -/
def State.checkedBy (s : State) (ctx : Nat) (r : Req) : Desc := r.old.getD (s.desc ctx r.obj)
/-- Objects of a context whose descriptors memory lists. -/
def State.objectsOf (s : State) (n : Nat) : List Nat :=
  let a := (s.ctx n).table
  s.mem.filterMap fun c => if a ≤ c.1 ∧ c.1 < a + 32 * stashObj ∧ (c.1 - a) % 32 = 7 then some ((c.1 - a) / 32) else none
/-- The valid objects whose extent list holds an entry at a physical address: context, object and page. -/
def State.namedBy (s : State) (pa : Nat) : List (Nat × Nat × Nat) :=
  s.ctxs.flatMap fun e => (s.objectsOf e.1).filterMap fun o =>
    let d := s.desc e.1 o
    let n := if d.kind = 1 then d.len / 4096 else (d.len + pageSize d.pg - 1) / pageSize d.pg
    if d.valid && d.kind != 5 && decide (d.xlist ≤ pa ∧ pa < d.xlist + 8 * n ∧ (pa - d.xlist) % 8 = 0) then
      some (e.1, o, (pa - d.xlist) / 8)
    else none
/-- The tiles that hold an object; none for one that is no valid tarnish object. -/
def State.tilesOf (s : State) (ctx obj : Nat) : List (Nat × Nat) :=
  let d := s.desc ctx obj
  if d.kind = 1 ∧ d.valid then (List.range (d.len / 4096)).filterMap fun i => s.tileOf ctx obj (4096 * i) else []
/-- Some object holds the tile. -/
def State.tileHeld (s : State) (cl i : Nat) : Bool :=
  s.ctxs.any fun e => (s.objectsOf e.1).any fun o => (s.tilesOf e.1 o).contains (cl, i)
/-- A tile is zeroed and its stamp is not valid (R247); one that has lapsed counts as expired (R254). -/
def State.clearTile (s : State) (cl i : Nat) : State :=
  let x := (s.cluster cl).tile i
  ((s.modCluster cl fun y => y.setTile i {}).idleMark cl (s.cluster cl).idle).count cl .tilesExpired (x.lapsed s.tick).toNat
/-- Every lapsed tile of a cluster is swept (R247). -/
def State.sweep (s : State) (cl : Nat) : State :=
  (s.cluster cl).tiles.foldl (fun x e => if e.2.lapsed s.tick then x.clearTile cl e.1 else x) s

/-- The place of a tile's byte as an address of its array, for an uncorrected error in it (R250). -/
def tileAddr (cl tile off : Nat) : Nat := spaceAddr (128 + cl) (4096 * tile + off % 4096)
/-- What a tarnish access under an entry meets at the array. -/
def State.tilePlace (s : State) (d : Desc) (off : Nat) : Place :=
  match s.tileIn d off with
  | none => .waits Cause.translation
  | some (cl, i) => if s.poisoned (tileAddr cl i 0) 4096 then .fails Cause.poison else .found (tileAddr cl i off)

/-! ### An access at the array -/

/-- One tarnish access at the tick of the state (R250): what D gets, and whether the tile was live. -/
def State.tileAccess (s : State) (cl i kind : Nat) (off : Nat) (y : Word) : State × Word × Bool :=
  let x := (s.cluster cl).tile i
  let live := x.live s.tick
  let put (q : Tile) : State := s.modCluster cl fun z => z.setTile i q
  let word := off % 4096 / 4
  match kind with
  | 0 => (s.count cl .tldExpired (!live).toNat, if live then Tab.get 0 x.cells word else 0, live)
  | 1 => (if live then put { x with cells := Tab.put x.cells word y } else s.count cl .tstDropped 1, 0, live)
  | 2 => (if live then (put { x with b := BitVec.ofNat 64 s.tick }).count cl .burnRenewed 1 else s.count cl .burnFailed 1, 0, live)
  | 3 => (s, if live then BitVec.ofNat 32 (x.expires - s.tick) else 0, live)
  | _ => (((put { b := BitVec.ofNat 64 s.tick, v := true }).count cl .tinits 1).count cl .tilesExpired (x.lapsed s.tick).toNat, 0, live)

/-- An earlier tarnish access of the same threads to the same tile (R251). -/
def State.tileBusy (s : State) (w : Warp) (ctx : Nat) (r : Req) : Bool :=
  w.reqs.any fun q => decide (q.id < r.id) && (q.threads.any fun t => r.threads.contains t) && (match q.op with
    | .tarn .. =>
      let p := s.tileIn (s.checkedBy ctx q) q.off
      (q.obj == r.obj && q.off / 4096 == r.off / 4096) || (p.isSome && p == s.tileIn (s.checkedBy ctx r) r.off)
    | _ => false)

/-- CM is written by TLD, TST and BURN. -/
def tarnCm (kind : Nat) : Bool := kind < 3
/-- The long result of a performed access. -/
def tarnLong (r : Req) (kind conv : Nat) (d : Option Dst) (v : Word) (live : Bool) : Long :=
  let c := if kind = 0 then conv else 0
  { id := r.id
    writes := (d.map fun e => ({ t := r.t, dst := e, val := convLoad c v.toNat, tag := convTag c, plate := r.taint } : LWrite)).toList ++
      (if tarnCm kind then
        r.threads.map fun t => { t := t, dst := .cm, val := if live then 0 else 1, plate := bitOf r.tts t } else []) }

/-- The other lanes of the run are performed at later ticks (R251). -/
def Warp.passLane (w : Warp) (r : Req) (tick : Nat) : Warp :=
  { w with reqs := w.reqs.map fun q => match q.op with
      | .tarn .. => if q.group = r.group then { q with after := tick + 1 } else q
      | _ => q }
/-- A tarnish request is performed at its tile's array, if it can be; its registers are written later (R50, R250). A request
leaves its lane in its thread's cycle, and the lanes of a run are performed at different ticks (R20, R251). The tile is the one that the
entry it was checked against places its bytes in (R164). One to the tile of another cluster waits for a handshake of either (R321). -/
def State.tarnStep (s : State) (c k : Nat) (r : Req) : State :=
  match r.op with
  | .tarn kind conv y d =>
    let w := s.warp c k
    let ctx := (s.wg c w.entry).ctx
    if s.tileBusy w ctx r || s.recordOpen r.recAt || decide ((s.cluster c).cyc < r.leave ∨ s.tick < r.after) then s
    else match s.tilePlace (s.checkedBy ctx r) r.off with
      | .waits _ => s
      | .fails cause =>
        match d with
        | some e => s.reqFailed c k r e 0 (tarnCm kind) cause
        | none => (s.modWarp c k fun q =>
            (if tarnCm kind then r.threads.foldl (fun z t => z.unpendDst t .cm) q else q).setReq { r with op := .failed cause }).stir c k
      | .found _ =>
        match s.tileIn (s.checkedBy ctx r) r.off with
        | none => s
        | some (cl, i) =>
          if cl != c && ((s.cluster c).crossing || (s.cluster cl).crossing) then s else
          let p := s.tileAccess cl i kind r.off y
          let l : Long := { tarnLong r kind conv d p.2.1 p.2.2 with remote := cl != c }
          (p.1.modWarp c k fun q =>
            let z := (q.dropReq r.id).passLane r s.tick
            if l.writes.isEmpty || q.retiring || decide (k ≥ trackSlot) then z else { z with longs := z.longs ++ [l] }).stir c k
  | _ => s

/-! ### The instructions -/

/-- A tarnish word. -/
structure TarnWord where
  h : Hdr
  m : MemOpd
  kind : Nat
  rights : Nat
  size : Nat
  conv : Nat := 0
  acc : Bool := false
  d : Option Opd := none
  c : Option Opd := none
  group : Nat := 0

/-- TST's data. -/
def TarnWord.data (a : TarnWord) : List Src := (a.c.map fun o => dataSrc o a.conv).toList

/-- One lane (R250), whose plate and CPM take TT[t] as it stands at issue: R250 does not say whether it is that one or the one at the
tick p (DESIGN CHOICE, log 92). -/
def TarnWord.lane (a : TarnWord) (x : State) (t : Nat) (ts : List Nat) : LaneOut :=
  let w := x.me
  let g := x.myWg
  let obj := capObj (a.m.cap w t)
  let near := (x.descFor g obj).plc == dieOf x.cur.cl + 1
  match memCause x t a.m [] { rights := a.rights, kinds := if near then [1] else [], size := a.size } with
  | some (cause, addr) => .hit cause addr x
  | none =>
    match checkSrcs w t a.data with
    | some (cause, addr) => .hit cause addr x
    | none =>
      let plated := (a.data.any fun y => y.plated w t) || w.anyTaint ts
      if a.kind = 1 ∧ plated ∧ !a.acc then .hit Cause.plateEscape 3 x
      else if (a.kind = 2 ∨ a.kind = 4) ∧ w.anyTaint ts then .hit Cause.plateEscape 0 x
      else
        let p := x.freshId
        let dst := a.d.map fun o => w.dst o
        let r : Req :=
          { id := p.1, t := t, threads := ts, obj := obj, off := a.m.addr w t, size := a.size, taint := w.anyTaint ts
            op := .tarn a.kind a.conv ((a.c.map fun o => w.val t o).getD 0) dst, tts := w.taints ts
            pc := x.cur.pc, marked := a.h.sw && x.cur.last, group := a.group
            leave := x.leaves t (uniform (a.d.toList ++ [a.m.a, a.m.b] ++ a.c.toList)) }
        let y := p.2.count x.cur.cl .platedStores (decide (a.kind = 1 ∧ plated)).toNat
        let z := match dst with
          | some e => y.pend t e
          | none => y
        let z1 := if tarnCm a.kind then ts.foldl (fun q u => q.pend u .cm) z else z
        .ok (z1.modMe fun q => { q with reqs := q.reqs ++ [r] })
def tarnWord (s : State) (a : TarnWord) : State :=
  let once := uniform (a.d.toList ++ [a.m.a, a.m.b] ++ a.c.toList)
  issue s { h := a.h, once := once, cm := tarnCm a.kind
            named := (a.d.map fun o => (o, 1)).toList ++ a.m.named ++ (a.c.map fun o => (o, 1)).toList } fun x act =>
    lanes once ({ a with group := x.me.nextId } : TarnWord).lane x act

/-- TLD (R249, R250). -/
def execTld (h : Hdr) (scl : BitVec 2) (conv : BitVec 5) (d a b : Opd) (s : State) : Host.Outcome State Fault Refusal :=
  .next (tarnWord s { h := h, m := ⟨a, b, scl⟩, kind := 0, rights := 8, size := 4, conv := conv.toNat, d := some d })
/-- TST (R249, R250). -/
def execTst (h : Hdr) (scl : BitVec 2) (acc : Bool) (conv : BitVec 5) (a b c : Opd) (s : State) : Host.Outcome State Fault Refusal :=
  .next (tarnWord s { h := h, m := ⟨a, b, scl⟩, kind := 1, rights := 4, size := 4, conv := conv.toNat, acc := acc, c := some c })
/-- BURN (R249, R250). -/
def execBurn (h : Hdr) (scl : BitVec 2) (a b : Opd) (s : State) : Host.Outcome State Fault Refusal :=
  .next (tarnWord s { h := h, m := ⟨a, b, scl⟩, kind := 2, rights := 12, size := 1 })
/-- LIFE (R249, R250). -/
def execLife (h : Hdr) (scl : BitVec 2) (d a b : Opd) (s : State) : Host.Outcome State Fault Refusal :=
  .next (tarnWord s { h := h, m := ⟨a, b, scl⟩, kind := 3, rights := 8, size := 1, d := some d })
/-- TINIT (R249, R250). -/
def execTinit (h : Hdr) (scl : BitVec 2) (a b : Opd) (s : State) : Host.Outcome State Fault Refusal :=
  .next (tarnWord s { h := h, m := ⟨a, b, scl⟩, kind := 4, rights := 4, size := 1 })

/-! ### Events -/

/-- TARNISH_EXPIRY (R247): the cells of a tile whose life has passed are zeroed. -/
def execTarnishExpiry (cl tile : Nat) (s : State) : Host.Outcome State Fault Refusal :=
  .next (if ((s.cluster cl).tile tile).lapsed s.tick then s.clearTile cl tile else s)
/-- TARNISH_TILE_MAP (R246, R248): system software writes an extent entry with P set; the tile is zeroed and not valid. -/
def execTarnishTileMap (ctx obj i clu tile : Nat) (s : State) : Host.Outcome State Fault Refusal :=
  let d := s.desc ctx obj
  .next (if d.kind = 1 ∧ d.valid ∧ 4096 * i < d.len ∧ clu < 64 ∧ tile < 1024 then
    (s.setPd (d.xlist + 8 * i) 0 (BitVec.ofNat 64 (2 ^ 63 + clu * 2 ^ 16 + tile))).clearTile
      ((d.plc - 1) * Config.dieClusters + clu) tile
  else s)
/-- An object that is freed: its tiles are zeroed (R247). -/
def State.freeTiles (s : State) (ctx obj : Nat) : State := (s.tilesOf ctx obj).foldl (fun x p => x.clearTile p.1 p.2) s

end Sys2Proof.Machine
end

