-- ==== Sys2Proof/Machine/Port.lean ====
section
/-! DEFINITION. The memory port (R165): requests that reach it, wait at it and are performed; and the writing of long
results (R50). -/

namespace Sys2Proof.Machine

/-- What the port finds for an access of a warp. -/
def State.portCause (s : State) (c : Nat) (w : Warp) (obj off size : Nat) : Place :=
  let d := w.under.getD (s.descFor (s.wg c w.entry) obj)
  if d.kind = 1 then s.tilePlace d off
  else if obj = stashObj then
    match (s.wg c w.entry).mapAt off with
    | some m => s.place w (s.wg c w.entry).ctx (capObj m.cap) (capOff m.cap + (off - m.soff)) size
    | none => .found 0
  else s.place w (s.wg c w.entry).ctx obj off size

/-- The port's TLB takes a copy of the extent entry that translates an access (R165; log 5). -/
def State.tlbFill (s : State) (ctx obj off : Nat) : State :=
  let d := s.desc ctx obj
  let a := d.xlist + 8 * (off / pageSize d.pg)
  if obj = stashObj ∨ s.tlb.contains a then s else { s with tlb := s.tlb ++ [a] }

/-- The memory that a wait needs at the port: the word that it reads, or a write-back of a release or fence whose page is not
present. -/
def State.waitPlace (s : State) (c k : Nat) (x : Wait) : Option (Nat × Nat) :=
  let w := s.warp c k
  let ctx := (s.wg c w.entry).ctx
  match x.why with
  | .waitw _ _ _ obj off _ _ => some (obj, off)
  | .acq _ _ obj off _ => some (obj, off)
  | .rel sc obj off =>
    match s.strongRead c (w.underWait x.id) obj (off + 4) 4 sc with
    | .ok y g =>
      let rs := y.regions ctx obj off
      if nearScope sc then none
      else s.stuckWord c w fun ctx' o i e =>
        ctx' == ctx && (g % 2 == 1 || inRegions rs o i) && e.byAny (w.writers x.threads)
    | _ => some (obj, off)
  | .fence sc => if nearScope sc then none else s.stuckWord c w fun _ _ _ e => e.byAny (w.writers x.threads)
  | .cwgo _ rel => if rel then s.stuckWord c w fun _ _ _ e => e.byAny (w.writers (List.range 32)) else none
  | _ => none

/-- A fault of the port holds a request: one for a page that is not present posts a record (R165). -/
def State.holdReq (s : State) (c k : Nat) (r : Req) (cause : Byte) : State :=
  let p := if cause = Cause.translation then s.portRecord c k cause r.obj r.off r.pc (maskOf r.threads) else (0, s)
  (p.2.modWarp c k fun y => y.setReq { r with posted := true, recAt := p.1 }).wake c k
/-- A store or a RED is performed where it can be: at the level that can serve it, or else at memory, where it may have to wait. -/
def State.retry (s : State) (c k : Nat) (r : Req) : State :=
  let w := s.warp c k
  if s.notYet c w r r.strong.isSome || w.laneBefore r then s
  else match s.performAt c w r with
    | .ok x _ => (x.modWarp c k fun y => y.dropReq r.id).stir c k
    | .waits cause => s.holdReq c k r cause
    | .fails cause => s.modWarp c k fun y => y.setReq { r with op := .failed cause }

/-- The write-back of a word that SFLUSH or SUNMAP left is done, unless the word has been written back already (R176). -/
def State.backStep (s : State) (c k : Nat) (r : Req) : State :=
  let w := s.warp c k
  let ctx := (s.wg c w.entry).ctx
  let done (x : State) : State := (x.modWarp c k fun y => y.dropReq r.id).stir c k
  match (s.cluster c).owned ctx r.obj (r.off / 4) with
  | none => done s
  | some v =>
    match s.flushWord c { w with under := r.old } ctx r.obj (r.off / 4) v with
    | .ok x _ => done ((x.giveUp c ctx r.obj (r.off / 4)).count c .stashWritebacks 1)
    | .waits _ => s
    | .fails cause => s.modWarp c k fun y => y.setReq { r with op := .failed cause }

/-- MEMORY_PORT_TRANSLATE (R165): a request reaches the port. A page that is not present posts a record and the request
waits; a migrating one makes it wait; one that can go on is performed: a store or a RED, at the level that serves it; a load too,
whose value is then the one read here, however late its reply comes (R13; log 15). An access from outside that waits is named with a cluster number that is none (R306). -/
def execMemoryPortTranslate (cl slot id : Nat) (s : State) : Host.Outcome State Fault Refusal :=
  let w := s.warp cl slot
  .next (if cl ≥ Config.clusters then
      match s.outs.find? fun o => o.id == id with
      | some o => s.outTry o
      | none => s
    else match w.loadOf id with
    | some l =>
      if l.fixed.isSome || decide ((s.cluster cl).cyc < l.leave) || s.recordOpen l.recAt then s
      else match s.portCause cl { w with under := l.old } l.obj l.off l.size with
        | .waits cause =>
          let p := if cause = Cause.translation then s.portRecord cl slot cause l.obj l.off l.pc (maskOf l.threads) else (0, s)
          (p.2.modWarp cl slot fun y => y.setLoad { l with posted := true, recAt := p.1 }).wake cl slot
        | .found _ => (s.tlbFill (s.wg cl w.entry).ctx l.obj l.off).fixLoad cl slot l
        | .fails _ => s
    | none =>
      match w.reqOf id with
      | none =>
        match w.waits.find? fun x => x.id == id with
        | none => s
        | some x =>
          match s.waitPlace cl slot x with
          | none => s
          | some (obj, off) =>
            if s.recordOpen x.recAt then s
            else match s.portCause cl (w.underWait id) obj off 4 with
              | .waits cause =>
                let p := if cause = Cause.translation then s.portRecord cl slot cause obj off x.pc (maskOf x.threads) else (0, s)
                p.2.modWarp cl slot fun y => { y with waits := y.waits.map fun z =>
                  if z.id = id then { z with posted := true, recAt := p.1 } else z }
              | _ => s
      | some r =>
        if decide ((s.cluster cl).cyc < r.leave) || s.recordOpen r.recAt || !(r.open_ || r.op == .back) then s
        else match r.op with
          | .store _ => s.retry cl slot r
          | .atom _ _ _ _ none => s.retry cl slot r
          | _ => match s.portCause cl { w with under := r.old } r.obj r.off r.size with
            | .waits cause => s.holdReq cl slot r cause
            | _ =>
              match r.op with
              | .back => s.backStep cl slot r
              | .tarn .. => s.tarnStep cl slot r
              | _ => s)

/-- LONG_RESULT_WRITE (R50): a long result is written, one from outside the cluster not during a handshake (R321); an atomic, or a service of R264 to R272, makes its access. -/
def execLongResultWrite (cl slot id : Nat) (s : State) : Host.Outcome State Fault Refusal :=
  let w := s.warp cl slot
  .next (match w.longs.find? fun l => l.id == id with
    | some l => if l.remote && (s.cluster cl).crossing then s else s.longDone cl slot l
    | none =>
      match w.reqOf id with
      | some r =>
        match r.op with
        | .atom fn ty x _ (some d) => s.atomStep cl slot r fn ty x d
        | _ => s.serviceStep cl slot r
      | none => s)

end Sys2Proof.Machine
end

