-- ==== Sys2Proof/Machine/Tables.lean ====
section
/-! DEFINITION. Events of the memory system: writes of extent entries and descriptors by system software (R164, R165),
migration (R166), home slices, owners and peers (R168 to R171, R183), the memory-side cache (R185), and accesses of peers and
of the host (R304, R306). -/

namespace Sys2Proof.Machine

/-! ### System software writes tables -/

/-- An extent entry is written (R165). The page that it named is the object's own, if it was present; one that it names from now on is
zeroed, unless the object was the last to map it: it is mapped to the object for the first time, or anew after another has had it (R327;
log 78). A tarnish tile that it names is zeroed and not valid (R248). -/
def State.mapPage (s : State) (old val : Dword) (p : Nat × Nat × Nat) : State :=
  let d := s.desc p.1 p.2.1
  let n := pageSize d.pg
  let place (e : Dword) : Place := s.extent (setField e 59 2 0) 0 d.pg
  if d.kind = 1 then
    if val.getLsbD 63 then s.clearTile ((d.plc - 1) * Config.dieClusters + field val 16 6) (field val 0 10) else s
  else
    let x := match place old with
      | .found a => s.keepFrames p.1 p.2.1 a n
      | _ => s
    match place val with
    | .found a => x.mapFrames p.1 p.2.1 a n
    | _ => x
/-- A model's entry whose VALID changes is another model's from now on (R255). -/
def State.newModel (s : State) (pa : Nat) (old val : Dword) : State :=
  if old.getLsbD 63 == val.getLsbD 63 then s
  else { s with cursors := s.cursors.filter fun p => s.modelAt p.1 p.2.1 != pa }
/-- The words of the object that a wait reads were checked as its word issued. -/
def Wait.names (x : Wait) (obj : Nat) : Bool := match x.why with
  | .waitw _ _ _ o _ _ _ => o == obj
  | .acq _ _ o _ _ => o == obj
  | .rel _ o _ => o == obj
  | _ => false
/-- What was checked under an entry and is not performed yet keeps it (R164). -/
def Warp.keepOld (w : Warp) (obj : Nat) (d : Desc) : Warp :=
  { w with
    loads := w.loads.map fun l => if l.obj = obj ∧ l.open_ = true ∧ l.old = none then { l with old := some d } else l
    reqs := w.reqs.map fun r => if r.obj = obj ∧ r.open_ = true ∧ r.old = none then { r with old := some d } else r
    waits := w.waits.map fun x => if x.names obj && x.old.isNone then { x with old := some d } else x }
def State.keepOld (s : State) (ctx obj : Nat) (d : Desc) : State :=
  { s with clusters := s.clusters.map fun e =>
      let f (w : Warp) : Warp := if (e.2.wg w.entry).ctx = ctx then w.keepOld obj d else w
      (e.1, { e.2 with warps := e.2.warps.map fun p => (p.1, f p.2), tracker := e.2.tracker.map fun p => (p.1, f p.2) }) }
/-- A strong write of doubleword `i` of an object's entry (R161, R164, R247, R248). What was checked under the old entry and is not
performed yet keeps that entry. Tiles that the object gives up, and those that it takes, are zeroed, and the pages of a list that it takes:
as it becomes valid, as its XLIST or PG changes, or as it grows (R327). -/
def State.writeDesc (s : State) (ctx obj i : Nat) (val : Dword) : State :=
  let d := s.desc ctx obj
  let x := s.keepOld ctx obj d
  let y := x.setPd (x.descAt ctx obj) i val
  let was := x.tilesOf ctx obj
  let now := y.tilesOf ctx obj
  let z := ((was.filter fun p => !now.contains p) ++ now.filter fun p => !was.contains p).foldl
    (fun q p => q.clearTile p.1 p.2) y
  let e := y.desc ctx obj
  let paged (o : Desc) : Bool := o.valid && o.kind != 1 && o.kind != 5
  let kept := if paged d then z.keepPages ctx obj d else z.dropFrames ctx obj
  let q := if paged e then kept.mapPages ctx obj e else kept
  if i = 1 then { q with bare := q.bare.filter fun p => p != (ctx, obj) } else q
/-- DESCRIPTOR_SNOOP (R164). -/
def execDescriptorSnoop (ctx obj i : Nat) (val : Dword) (s : State) : Host.Outcome State Fault Refusal :=
  .next (if (look s.ctxs ctx).isSome ∧ 0 < obj ∧ obj < stashObj ∧ i < 4 then s.writeDesc ctx obj i val else s)
/-- The object entries that hold the doubleword at a physical address, as (context, object, doubleword). -/
def State.descsAt (s : State) (pa : Nat) : List (Nat × Nat × Nat) :=
  s.ctxs.filterMap fun e =>
    let n := (pa - e.2.table) / 32
    if decide (e.2.table ≤ pa ∧ 0 < n ∧ n < stashObj) && (pa - e.2.table) % 8 == 0 then
      some (e.1, n, (pa - e.2.table) % 32 / 8)
    else none
/-- TLB_SNOOP (R165): a strong write to an extent-list entry, or to another table entry; every TLB copy of it goes. One to an object's
entry is a write of its descriptor (R164). -/
def execTlbSnoop (pa : Nat) (val : Dword) (s : State) : Host.Outcome State Fault Refusal :=
  let old := s.pd pa 0
  .next (if pa % 8 = 0 ∧ pa + 8 ≤ Config.hbmBytes then
      let x := (s.namedBy pa).foldl (fun y p => y.mapPage old val p) s
      let y := (x.descsAt pa).foldl (fun z p => z.writeDesc p.1 p.2.1 p.2.2 val) (x.newModel pa old val)
      let z := y.setPd pa 0 val
      ({ z with tlb := z.tlb.filter fun a => a != pa } : State).wash
    else s)

/-! ### Migration (R166) -/

def State.pageEntryAt (s : State) (ctx obj page : Nat) : Nat := (s.desc ctx obj).xlist + 8 * page
def State.pageEntry (s : State) (ctx obj page : Nat) : Dword := s.pd (s.pageEntryAt ctx obj page) 0
def Page.is (x : Page) (ctx obj page : Nat) : Bool := x.ctx == ctx && x.obj == obj && x.page == page

/-- The policy lets the page move to a home: anywhere towards the faulting side, or only into the module's own memory. -/
def Desc.mayMove (d : Desc) (home : Nat) : Bool := d.migp == 1 || (d.migp == 2 && decide (home < 2))
/-- A home as an extent entry has it, and the peer of a peer page (R162). -/
def homeCode : Home → Nat
  | .hbm => 0
  | .tier => 1
  | .host => 2
  | .peer _ => 3
def homePeer : Home → Nat
  | .peer d => d
  | _ => 0
/-- The page at an entry can be at the home next: it is settled, and elsewhere. -/
def movesTo (e : Dword) (to_ : Home) : Bool :=
  e.getLsbD 63 && field e 59 2 == 0 && (field e 61 2 != homeCode to_ || (homeCode to_ == 3 && field e 53 6 != homePeer to_))
/-- MIGRATION_REQUEST (R166): granted where the policy lets the page move to the asking side, HBM, the tier, the host or a peer,
and it is settled elsewhere; otherwise the request ends in a remote mapping. -/
def execMigrationRequest (ctx obj page : Nat) (to_ : Home) (s : State) : Host.Outcome State Fault Refusal :=
  let d := s.desc ctx obj
  let e := s.pageEntry ctx obj page
  .next (if d.valid && d.kind != 5 && d.kind != 1 && decide (page < d.pages ∧ homePeer to_ ≤ 36) && movesTo e to_ &&
      d.mayMove (homeCode to_) && (homeCode to_ != 3 || homePeer to_ != s.dev) then
      let x := s.setPd (s.pageEntryAt ctx obj page) 0 (setField e 59 2 1)
      { x with pages := (x.pages.filter fun p => !p.is ctx obj page) ++
          [{ ctx := ctx, obj := obj, page := page, granted := x.tick, home := homeCode to_, peer := homePeer to_ }] }
    else s)

/-- Ticks that a moved page stays pinned. -/
def pinTicks : Nat := 192000
/-- The entry of a page that has moved: its state, its home with the peer of a peer page, its address. -/
def Page.entry (p : Page) (e : Dword) (pst pa : Nat) : Dword :=
  setField (setField (setField (setField e 59 2 pst) 61 2 p.home) 53 6 (if p.home = 3 then p.peer else 0)) 0 52 pa
/-- MIGRATION_COMPLETE (R166): the page is copied to its new place, and is pinned until its window ends; GEN rises by 1. What the
module's memory held of it is zeroed (R327). -/
def execMigrationComplete (ctx obj page pa : Nat) (s : State) : Host.Outcome State Fault Refusal :=
  let d := s.desc ctx obj
  let e := s.pageEntry ctx obj page
  let n := pageSize d.pg
  .next (match s.pages.find? fun p => p.is ctx obj page with
    | none => s
    | some p =>
      if field e 59 2 != 1 || pa % n != 0 || decide (p.home = 0 ∧ pa + n > s.mscBase 0) || decide (pa ≥ 2 ^ 52) then s
      else
        match s.extent (setField e 59 2 0) 0 d.pg, s.extent (p.entry e 0 pa) 0 d.pg with
        | .found a, .found b =>
          let x := s.putPhysBytes b (s.physBytes a n)
          let z := if a < 2 ^ 65 ∧ a ≠ b then x.zeroAt a n else x
          let y := z.setPd (s.pageEntryAt ctx obj page) 0 (p.entry e (if s.tick < p.granted + pinTicks then 2 else 0) pa)
          let d3 := y.pd (y.descAt ctx obj) 3
          (y.setPd (y.descAt ctx obj) 3 (dword (loWord d3 + 1) (hiWord d3))).wash
        | _, _ => s)

/-- PIN_WINDOW_EXPIRY (R166). -/
def execPinWindowExpiry (ctx obj page : Nat) (s : State) : Host.Outcome State Fault Refusal :=
  let e := s.pageEntry ctx obj page
  .next (match s.pages.find? fun p => p.is ctx obj page with
    | none => s
    | some p =>
      if s.tick < p.granted + pinTicks ∨ field e 59 2 = 1 then s
      else
        let x := if field e 59 2 = 2 then s.setPd (s.pageEntryAt ctx obj page) 0 (setField e 59 2 0) else s
        { x with pages := x.pages.filter fun q => !q.is ctx obj page })

/-! ### Home slices, owners, peers -/

/-- The updates that a home slice has collected for a word are merged (R183). -/
def State.mergeWord (s : State) (ctx obj i : Nat) : State :=
  if (s.ups ctx obj i).isEmpty then s
  else match s.translate ctx obj (4 * i) with
    | .found a =>
      let v := s.homeWord ctx obj i a
      (s.dropUps ctx obj i).putWord ctx obj i a v
    | _ => s
/-- HOME_SLICE_REQUEST (R168, R169, R183): a request reaches a line at its home slice, which merges what it has collected and has been
told of every store of the line. The value it is answered with is the owner's or memory's, with no change to either (R171). -/
def execHomeSliceRequest (ctx obj off : Nat) (s : State) : Host.Outcome State Fault Refusal :=
  .next ((List.range 64).foldl (fun x i => x.mergeWord ctx obj (off / 256 * 64 + i)) (s.telling ctx obj (off / 256 * 256) 256))

/-- OWNERSHIP_RECALL (R169): the owner writes a dirty word back and gives it up; a cluster that merely holds a copy is sent no message.
A cluster in a handshake is not reached (R321). -/
def execOwnershipRecall (cl ctx obj word : Nat) (s : State) : Host.Outcome State Fault Refusal :=
  let x := s.cluster cl
  .next (match x.owned ctx obj word with
    | none => s
    | some _ => if x.crossing then s else s.recallWord cl ctx obj word)

/-- PEER_PROBE (R170): a miss of the L1 probes a peer for a 64-byte sector: supplied, or declined. -/
def execPeerProbe (cl peer ctx obj sector : Nat) (s : State) : Host.Outcome State Fault Refusal :=
  let off := 64 * sector
  .next (if ((s.cluster cl).l1Nat ctx obj off 64).isSome || peer == cl || dieOf peer != dieOf cl || (s.cluster cl).crossing ||
      (s.cluster peer).crossing || decide (peer ≥ Config.clusters) then s
    else
      let x := s.count cl .peerProbes 1
      if s.peerSupplies cl peer ctx obj off then (x.fillFromPeer cl peer ctx obj off).count peer .forwardsSupplied 1
      else (x.count peer .forwardsDeclined 1).modCluster cl fun y =>
        { y with probed := insertNat (wordKey ctx obj (16 * sector)) y.probed })

/-! ### The memory-side cache (R184, R185) -/

/-- TIER_READ (R185): a 64-byte read at the tier controller. -/
def execTierRead (addr : Nat) (s : State) : Host.Outcome State Fault Refusal :=
  .next (if addr % 64 = 0 ∧ addr < Config.tierBytes then s.mscServe (spaceAddr 1 addr) else s)
/-- TIER_WRITEBACK (R185): a 64-byte write-back, of the data that the L2 holds for the line (log 5). -/
def execTierWriteback (addr : Nat) (data : List Byte) (s : State) : Host.Outcome State Fault Refusal :=
  let a := spaceAddr 1 addr
  .next (if addr % 64 = 0 ∧ addr < Config.tierBytes ∧ data = s.physBytes a 64 then s.putPhysBytes a data else s)

/-! ### Peers and the host -/

/-- The port that joins the module to a device, by number. -/
def State.portNo (s : State) (dev : Nat) : Option Nat :=
  (s.ports.find? fun e => some e.1 != s.hostPort && e.2.trained && e.2.dev == dev).map fun e => e.1

/-- An access to a place of memory, past all checks: owners of words there are recalled before it (R169). -/
def State.placeDo (s : State) (peer : Nat) (a : Nat) (acc : OutAcc) : State :=
  let n := outSize acc
  if (s.ownersAt a n).any fun p => (s.cluster p.1).crossing then s
  else
    let x := s.recallAt a n
    let old := leNat (x.physBytes a n)
    let y := (x.mscServe a).tellOut (some peer) acc old
    match outResult acc old with
    | some v => y.putPhysBytes a (leBytes n v)
    | none => y

/-- A request of a peer can be served: the module is up and has not FAILED (R322, R330). -/
def State.serves (s : State) : Bool := decide (s.boot ≥ 8) && s.health != 2
/-- REMOTE_REQUEST (R304): a peer's request for an object of its paired context, which the module checks; for a peer page, which
it does not; or an access of the peer to memory of its own that this module's objects name. A refused request raises FABRIC at
the peer. -/
def execRemoteRequest (peer : Nat) (space : PeerSpace) (obj off : Nat) (acc : OutAcc) (s : State) : Host.Outcome State Fault Refusal :=
  .next (match s.portNo peer with
    | none => s
    | some p =>
      if (s.port p).reach != .open_ then s
      else if !s.serves then s.count (160 + p) .fabricRefusals 1
      else match space with
        | .paired ctx =>
          if (look s.ctxs ctx).isSome && s.outOk true ctx obj off acc then s.outNew (some peer) ctx obj off acc
          else s.count (160 + p) .fabricRefusals 1
        | .pages =>
          if off + outSize acc ≤ s.hbmUse ∧ s.poisoned (spaceAddr 0 off) (outSize acc) = false then
            s.placeDo peer (spaceAddr 0 off) acc
          else s
        | .ownObjects => if obj < 2 ^ 24 ∧ off + outSize acc ≤ 2 ^ 36 then
            s.placeDo peer (spaceAddr (64 + peer) (obj * 2 ^ 36 + off)) acc else s
        | .ownPages => if off + outSize acc ≤ 2 ^ 52 then s.placeDo peer (spaceAddr (3 + peer) off) acc else s)

/-- HOST_ACCESS (R2, R306): the host acts through its adapter as a device would. -/
def execHostAccess (ctx obj off : Nat) (acc : OutAcc) (s : State) : Host.Outcome State Fault Refusal :=
  .next (if s.serves && s.hostReach == .open_ && (look s.ctxs ctx).isSome && s.outOk false ctx obj off acc then
      s.outNew none ctx obj off acc
    else s)

end Sys2Proof.Machine
end

