-- ==== Sys2Proof/Machine/Health.lean ====
section
/-! DEFINITION. Clocks and droop (R319 to R321), throttling (R285), ports (R303, R305), retirement and health (R322 to R324),
lifetime records (R325, R326), attestation (R329), counters and pools (R294), contexts (R159, R160), and bring-up (R330). -/

namespace Sys2Proof.Machine

/-! ### Clocks -/

/-- The handshake for a change of a cluster's clock: it starts at once, or after those before it (R321). -/
def Cluster.askClock (x : Cluster) (m : Nat) (boost : Bool) (tick : Nat) : Cluster :=
  { x with shakes := x.shakes ++ [(m, boost, tick)] }
/-- What the cluster's clock will be after the changes asked for. -/
def Cluster.nextClock (x : Cluster) : Nat × Bool :=
  match x.shakes.getLast? with
  | some (m, b, _) => (m, b)
  | none => (x.m, x.boost)
/-- CLOCK_RATIO_CHANGE (R319, R321): a ratio for a cluster, or the die clock for the clusters of its die. -/
def execClockRatioChange (cl m : Nat) (boost : Option Bool) (s : State) : Host.Outcome State Fault Refusal :=
  .next (match boost with
    | none => if 4 ≤ m ∧ m ≤ 16 ∧ cl < Config.clusters then s.modCluster cl fun x => x.askClock m x.nextClock.2 s.tick else s
    | some b => if cl ≥ Config.clusters then s else
      ((List.range Config.dieClusters).map fun i => dieOf cl * Config.dieClusters + i).foldl (fun x c =>
        x.modCluster c fun q => q.askClock q.nextClock.1 b s.tick) s)
/-- What is still to leave its lane leaves as the clock now runs: the tick at which its cycle begins is found anew. -/
def Cluster.retime (x : Cluster) (tick : Nat) : Cluster :=
  let at_ (n old : Nat) : Nat := if x.cyc < n then tick + x.ticks (n - x.cyc) else old
  { x with warps := x.warps.map fun w => (w.1, { w.2 with
      loads := w.2.loads.map fun l => { l with t0 := at_ l.leave l.t0 }
      waits := w.2.waits.map fun y => { y with t0 := at_ y.leave y.t0 } }) }
/-- A cluster's clock changes: of the cycle under way the same share has passed (R320; log 67). -/
def State.changeClock (s : State) (c : Nat) (f : Cluster → Cluster) : State :=
  s.modCluster c fun x =>
    let y := f x
    ({ y with phase := x.phase * y.cycleLen / x.cycleLen } : Cluster).retime s.tick
/-- What waits at a cluster's station as prefetches do is sent in its order (R321). -/
def State.drainStation (s : State) (c : Nat) : State :=
  (s.cluster c).station.foldl (fun x p => x.prefetchGo c { entry := p.entry } p.obj p.off p.bytes p.lvl)
    (s.modCluster c fun x => { x with station := [] })
/-- HANDSHAKE_END (R321): the new clock holds from now on, what waits at the station is sent, and the next change begins. -/
def execHandshakeEnd (cl : Nat) (s : State) : Host.Outcome State Fault Refusal :=
  .next (match (s.cluster cl).shakes with
    | [] => s
    | (m, b, _) :: r =>
      (s.changeClock cl fun x => { x with m := m, boost := b, shakes := match r with
        | (m', b', _) :: q => (m', b', s.tick) :: q
        | [] => [] }).drainStation cl)

def State.lifeAdd (s : State) (key n : Nat) : State := { s with lifetime := Tab.put s.lifetime key (Tab.get 0 s.lifetime key + n) }
/-- The longest a cycle may become, in sixteenths: a droop slows no warp below the floor of R36, whichever words are issued (log 93). A lane's
other seat leaves a warp the ticks of one issue; and what holds a lane now ends in time. -/
def Cluster.stretchMost (x : Cluster) : Nat :=
  max 16 (x.warps.foldl (fun n w =>
    if w.1 = Config.coreSlot ∨ !(w.2.threads.any fun t => t.2.st == .ready) then n
    else
      let slack := 4096 - w.2.waited
      let held := (Tab.get {} x.lanes (laneOf w.1)).busy - x.cyc
      min n (min (slack / 32) (if held = 0 then 64 else 4 * slack / held))) 64)
/-- DROOP_DETECT (R320): cycles grow, by how much is free within what R36 leaves, and so is the bin of the depth in the lifetime records
(R325). -/
def execDroopDetect (cl : Nat) (s : State) : Host.Outcome State Fault Refusal :=
  let f := s.free
  let g := f.2.free
  .next (if cl ≥ Config.clusters then s else ((g.2.changeClock cl fun x => { x with stretch := min x.stretchMost (16 + f.1.toNat) }).lifeAdd (4096 + cl) 1).lifeAdd
    (9 * 4096 + 8 * cl + g.1.toNat % 8) 1)
/-- DROOP_RELEASE (R320). -/
def execDroopRelease (cl : Nat) (s : State) : Host.Outcome State Fault Refusal :=
  .next (if cl ≥ Config.clusters then s else s.changeClock cl fun x => { x with stretch := 16 })

/-- THROTTLE_SET (R285). -/
def execThrottleSet (die thr tw : Nat) (s : State) : Host.Outcome State Fault Refusal :=
  .next (if thr ≤ 8 ∧ [16, 32, 64, 128, 256, 512, 1024, 2048, 4096].contains tw then
      if die = 0 then { s with thr0 := thr, tw0 := tw } else if die = 1 then { s with thr1 := thr, tw1 := tw } else s
    else s)

/-! ### Health (R322 to R324) -/

/-- A workgroup parks without a record (R289, R322). -/
def Cluster.parkAll (x : Cluster) : Cluster :=
  { x with
    wgs := x.wgs.map fun g => (g.1, { g.2 with parked := true })
    slots := x.slots.map fun e => if (look x.wgs e.1).isSome then (e.1, { e.2 with st := 2 }) else e }
/-- The module is FAILED, for the reason of R324; the first reason stays. -/
def State.failModule (s : State) (why : Nat) : State :=
  if s.health = 2 then s
  else
    let l := s.clusters.flatMap fun c => c.2.wgs.map fun g => (1, c.1 * 16 + g.1)
    { s with health := 2, why := BitVec.ofNat 6 why, told := s.told ++ l
             clusters := s.clusters.map fun c => (c.1, c.2.parkAll) }
/-- The part that is retired raises the state, and FAILED follows from too many (R322). -/
def State.degrade (s : State) : State :=
  let x : State := if s.health = 0 then { s with health := 1 } else s
  if x.retiredClusters.length > 32 then x.failModule 1
  else if x.retiredChannels.any fun c => decide ((x.retiredChannels.filter fun d => d.1 == c.1).length > 8) then x.failModule 2
  else x

/-- The tick and the cause of a retirement (R325). -/
def State.noteRetired (s : State) (p : Part) (cause : Nat) : State := { s with retirements := s.retirements ++ [(p, s.tick, cause)] }
/-- A cluster is retired (R323): nothing is bound to it from now on. -/
def State.retireCluster (s : State) (c cause : Nat) : State :=
  if s.retiredClusters.contains c || decide (c ≥ Config.clusters) then s
  else ({ s.noteRetired (.cluster c) cause with retiredClusters := s.retiredClusters ++ [c], clr := s.clr + 1 } : State).degrade
/-- A pseudo-channel is retired: memory is placed around it from the next training of HBM on (R323, R330). -/
def State.retireChannel (s : State) (k c cause : Nat) : State :=
  if s.retiredChannels.contains (k, c) || decide (k ≥ 8 ∨ c ≥ 32) then s
  else ({ s.noteRetired (.pseudoChannel k c) cause with
    retiredChannels := s.retiredChannels ++ [(k, c)], pcr := s.pcr + 1 } : State).degrade

/-! ### Ports (R303, R305) -/

def State.setPort (s : State) (p : Nat) (x : Port) : State := { s with ports := Tab.put s.ports p x }
def portUnit (p : Nat) : Nat := 160 + p
/-- Requests on their way to a device, or with none named to the host, meet FABRIC when their answer is due (R305); what the L1
serves is no such request. -/
def Warp.lose (w : Warp) (s : State) (c : Nat) (dev : Option Nat) : Warp :=
  let ctx := (s.wg c w.entry).ctx
  { w with
    loads := w.loads.map fun l =>
      if !l.finished && l.reply.isNone && s.goesTo { w with under := l.old } ctx l.obj l.off dev &&
          (l.strong.isSome || ((s.cluster c).l1Nat ctx l.obj l.off l.size).isNone) then { l with lost := true, fixed := none } else l
    reqs := w.reqs.map fun r =>
      if r.open_ && s.goesTo { w with under := r.old } ctx r.obj r.off dev then { r with lost := true } else r }
def State.loseAll (s : State) (dev : Option Nat) : State :=
  { s with clusters := s.clusters.map fun e =>
      (e.1, { e.2 with
        warps := e.2.warps.map fun p => (p.1, p.2.lose s e.1 dev)
        tracker := e.2.tracker.map fun p => (p.1, p.2.lose s e.1 dev) }) }
/-- The port goes down: what is in flight to its peer, and what waits for it, meets FABRIC (R305, R307). -/
def State.downPort (s : State) (p : Nat) : State :=
  let x := s.port p
  let y := (s.loseAll (if some p = s.hostPort then none else some x.dev)).setPort p { x with down := true, retrain := none }
  if some p = s.hostPort then y else y.xrPortDown x.dev
/-- A lane of a port is retired, at once (R305, R323). -/
def State.retireLane (s : State) (p lane cause : Nat) : State :=
  if s.retiredLanes.contains (p, lane) || decide (lane ≥ 4 ∨ p ≥ 36) then s
  else
    let x : State := { s.noteRetired (.linkLane p lane) cause with retiredLanes := s.retiredLanes ++ [(p, lane)], lnr := s.lnr + 1 }
    let y := (((x.setPort p { (x.port p) with lanes := (x.port p).lanes - 1 }).count (portUnit p) .lanesRetired 1).lifeAdd
      (4 * 4096 + p) 1).degrade
    if (y.port p).lanes = 0 then y.downPort p else y
/-- A port whose far end is not of the pod, or reports this device's number, is retired (R303). -/
def State.retirePort (s : State) (p : Nat) : State :=
  let x : State := { s.noteRetired (.port p) 4 with retiredPorts := s.retiredPorts ++ [p] }
  (x.setPort p { (x.port p) with trained := false, down := true, retrain := none }).degrade

/-- PORT_TRAIN (R303, R330): the two ends exchange device number and pod; a far end with this module's number or of another
pod retires the port, for good. The host adapter's port has no device. -/
def execPortTrain (p dev pod : Nat) (s : State) : Host.Outcome State Fault Refusal :=
  let x := s.port p
  .next (if s.boot < 6 ∨ p ≥ 36 ∨ x.lanes = 0 ∨ s.retiredPorts.contains p = true then s
    else if some p = s.hostPort then s.setPort p { x with trained := true, down := false, retrain := none }
    else if dev = s.dev ∨ pod ≠ s.pod ∨ dev > 36 then s.retirePort p
    else
      { s.setPort p { x with trained := true, dev := dev, pod := pod, down := false, retrain := none } with
        podDevs := if s.podDevs.contains dev then s.podDevs else s.podDevs ++ [dev] })
/-- FLIT_REPLAY (R303): counted, and seen by nothing else. -/
def execFlitReplay (p : Nat) (s : State) : Host.Outcome State Fault Refusal :=
  .next (if (s.port p).trained then s.count (portUnit p) .flitReplays 1 else s)
/-- PORT_RETRAIN (R305): requests to the peer wait while it lasts. -/
def execPortRetrain (p : Nat) (s : State) : Host.Outcome State Fault Refusal :=
  let x := s.port p
  .next (if x.trained && !x.down && x.retrain.isNone then
      ((s.setPort p { x with retrain := some s.tick }).count (portUnit p) .retrains 1).lifeAdd (3 * 4096 + p) 1
    else s)
/-- Ticks within which a retrain finishes, or the port is down (R305). -/
def retrainTicks : Nat := 300000
/-- Ticks that a retrain takes at most: one that has not finished by then does not finish (R305). -/
def retrainMost : Nat := 30000
/-- RETRAIN_COMPLETE (R305): lanes that failed are retired; the port goes on with the others. -/
def execRetrainComplete (p : Nat) (failed : List Nat) (s : State) : Host.Outcome State Fault Refusal :=
  .next (match (s.port p).retrain with
    | none => s
    | some t =>
      if t + retrainMost < s.tick then s
      else failed.foldl (fun x l => x.retireLane p l 3) (s.setPort p { (s.port p) with retrain := none }))
/-- PORT_DOWN (R305). -/
def execPortDown (p : Nat) (s : State) : Host.Outcome State Fault Refusal :=
  let x := s.port p
  .next (if x.trained && !x.down && (x.lanes == 0 || (match x.retrain with
      | some t => decide (t + retrainTicks ≤ s.tick)
      | none => false)) then s.downPort p
    else s)
/-- Ticks by which the retrains under way end, one way or the other. -/
def State.retrainDues (s : State) : List Nat :=
  s.ports.filterMap fun e => if e.2.trained && !e.2.down then e.2.retrain.map fun t => t + retrainTicks else none

/-- PART_RETIRE (R323): a part whose lifetime records have crossed the threshold of the configuration record, which for a cluster
are its droops, for a pseudo-channel the ECC events of its stack, for a link lane the retrains of its port (log 77); or one that
fails its training at bring-up (R330). -/
def execPartRetire (p : Part) (s : State) : Host.Outcome State Fault Refusal :=
  let life (k : Nat) : Nat := Tab.get 0 s.lifetime k
  .next (match p with
    | .cluster c => if s.boot ≥ 3 ∧ s.record.droops < life (4096 + c) then s.retireCluster c 1 else s
    | .pseudoChannel k c =>
      if s.boot = 3 then s.retireChannel k c 3
      else if s.boot ≥ 3 ∧ s.record.ecc < life k + life (2 * 4096 + k) then s.retireChannel k c 1
      else s
    | .linkLane q l =>
      if s.boot = 6 then s.retireLane q l 3
      else if s.boot ≥ 3 ∧ s.record.retrains < life (3 * 4096 + q) then s.retireLane q l 1
      else s
    | .port _ => s)
/-- SCHEDULING_CORE_FAILURE (R322): a die's core, or with any other number the management core. -/
def execSchedulingCoreFailure (die : Nat) (s : State) : Host.Outcome State Fault Refusal :=
  .next (({ s with deadDies := if s.deadDies.contains die then s.deadDies else s.deadDies ++ [die] } : State).failModule 3)

/-- The health register (R324). -/
def State.healthReg (s : State) : Word :=
  BitVec.ofNat 32 (s.health.toNat * 2 ^ 30 + s.why.toNat * 2 ^ 24 + s.clr % 256 * 2 ^ 16 + s.pcr % 256 * 2 ^ 8 + s.lnr % 256)

/-! ### Lifetime records (R325, R326) -/

/-- The counters of R124. -/
def plateCtrs : List Ctr :=
  [.guessesIssued, .guessesRedeemed, .guessesAccepted, .guessesEqual, .guessesDiscarded, .limitIgnored, .plateAddr, .plateEscape,
    .plateControl, .platedStores, .pftIssued, .pftDropped, .pftUsed, .pftTimely] ++ (List.range 16).map Ctr.limitExpiry
/-- Sums of them over a die's clusters. -/
def State.plateSum (s : State) (die : Nat) : Nat :=
  let cs := (List.range Config.dieClusters).map fun i => die * Config.dieClusters + i
  (cs.flatMap fun c => plateCtrs.map fun k => (counterGet s.counters c k).toNat).sum
/-- The lifetime records as they stand: of the plate statistics, what has been cleared and what the counters hold. -/
def State.lifeNow (s : State) : Tab Nat :=
  let k (die : Nat) : Nat := 6 * 4096 + die
  Tab.put (Tab.put s.lifetime (k 0) (Tab.get 0 s.lifetime (k 0) + s.plateSum 0)) (k 1) (Tab.get 0 s.lifetime (k 1) + s.plateSum 1)
/-- What is written to flash. -/
def State.flashOf (s : State) : Flash :=
  { lifetime := s.lifeNow, clusters := s.retiredClusters, channels := s.retiredChannels, lanes := s.retiredLanes
    ports := s.retiredPorts, retirements := s.retirements, health := s.health, why := s.why, dead := s.deadDies }
/-- What the sensors of memory and of temperature have told since the last write is free: ECC events of 8 stacks and of the tier's
channels, and 16 bins of each die's temperature (R325; log 77). -/
def sensorKeys : List Nat :=
  (List.range 8).flatMap (fun k => [k, 2 * 4096 + k]) ++
  (List.range Config.tierChannels).flatMap (fun k => [7 * 4096 + k, 8 * 4096 + k]) ++
  (List.range 32).map fun k => 10 * 4096 + k
def State.sense (s : State) : State :=
  sensorKeys.foldl (fun x k => let f := x.free; f.2.lifeAdd k f.1.toNat) s
/-- Ticks between two writes of the records. -/
def lifetimeTicks : Nat := 180000000000
/-- LIFETIME_RECORD_WRITE (R325): every 180,000,000,000 ticks. -/
def execLifetimeRecordWrite (s : State) : Host.Outcome State Fault Refusal :=
  let x := s.sense
  .next (if s.lifetimeAt + lifetimeTicks ≤ s.tick then { x with lifetimeAt := s.tick, flash := x.flashOf } else s)

/-- TARNISH_RETENTION_MEASURE (R326): of a tile that no object holds, in an idle cluster; below 150,000 ticks the cluster is
retired. -/
def execTarnishRetentionMeasure (at_ : TileAt) (ticks : Nat) (s : State) : Host.Outcome State Fault Refusal :=
  let cl := at_.cl
  let k := 5 * 4096 + cl
  let low := match look s.lifetime k with
    | some v => min v ticks
    | none => ticks
  let x : State := { s with lifetime := Tab.put s.lifetime k low }
  .next (if !(s.cluster cl).idle || s.tileHeld cl at_.tile || decide (cl ≥ Config.clusters ∨ at_.tile ≥ 1024) then s
    else if low < 150000 then x.retireCluster cl 2 else x)

/-! ### The management interface (R294, R324, R325, R329) -/

def State.answer (s : State) (l : List Byte) : State := { s with mgmtOut := s.mgmtOut ++ [l] }
/-- What is read, and the state with it. Pairs of lines compress at the L2's choice: how many have since the last read is free
(R171, R186). A tile that has lapsed has reached its expiry instant, swept or not (R254). -/
def State.counterNow (s : State) (unit : Nat) (c : Ctr) : Dword × State :=
  match c with
  | .l2Pairs => let f := s.free; let x := f.2.count unit .l2Pairs f.1.toNat; (counterGet x.counters unit c, x)
  | .tilesExpired => let x := s.sweep unit; (counterGet x.counters unit c, x)
  | .health => (s.healthReg.setWidth 64, s)
  | .record k => (BitVec.ofNat 64 (Tab.get 0 s.lifeNow k), s)
  | _ => (counterGet s.counters unit c, s)
/-- The health register and the lifetime records are only read (R324, R325). -/
def Ctr.clears : Ctr → Bool
  | .health => false
  | .record _ => false
  | _ => true
/-- The management interface answers: after step 2 of bring-up has failed, only attestation and recovery do (R330). -/
def State.managed (s : State) : Bool := !(s.halted && s.boot == 1)
/-- COUNTER_READ (R294, R324, R325). -/
def execCounterRead (unit : Nat) (c : Ctr) (s : State) : Host.Outcome State Fault Refusal :=
  let p := s.counterNow unit c
  .next (if s.managed then p.2.answer (leBytes 8 p.1.toNat) else s)
/-- What a plate counter held goes into the lifetime records as it is cleared (R325). -/
def State.keepPlate (s : State) (unit : Nat) (c : Ctr) (v : Nat) : State :=
  if unit < Config.clusters ∧ plateCtrs.contains c = true then s.lifeAdd (6 * 4096 + dieOf unit) v else s
/-- COUNTER_READ_CLEAR (R294): one step. -/
def execCounterReadClear (unit : Nat) (c : Ctr) (s : State) : Host.Outcome State Fault Refusal :=
  let p := s.counterNow unit c
  let x := p.2.answer (leBytes 8 p.1.toNat)
  .next (if !s.managed then s else if Ctr.clears c then { x.keepPlate unit c p.1.toNat with counters := counterSet x.counters unit c 0 } else x)
/-- POOL_CAPACITY_SET (R257, R294). -/
def execPoolCapacitySet (pool bytes : Nat) (s : State) : Host.Outcome State Fault Refusal :=
  .next (if s.managed ∧ pool < 16 ∧ bytes < 2 ^ 64 then { s with pools := Tab.put s.pools pool bytes } else s)

/-- ATTESTATION_REQUEST (R329): the report and its signature, once the identity key stands or verification has failed. -/
def execAttestationRequest (nonce : List Byte) (s : State) : Host.Outcome State Fault Refusal :=
  let r := s.record
  let report := Config.firmwareDigest r.core ++ Config.firmwareDigest r.umailo ++ Config.firmwareDigest r.link ++
    Config.recordDigest r ++ leBytes 4 s.healthReg.toNat ++ Config.lifetimeDigest s.lifeNow s.retirements ++ nonce
  .next (if nonce.length = 32 ∧ (s.boot ≥ 3 ∨ s.health = 2) then s.answer (report ++ Config.signature report) else s)

/-! ### Contexts (R159, R160) -/

/-- CONTEXT_CREATE (R159, R160, R194, R255): its tables start zeroed. -/
def execContextCreate (num table models binds kv fault0 fault1 : Nat) (s : State) : Host.Outcome State Fault Refusal :=
  .next (if decide (1 ≤ num ∧ num ≤ 4095) && (look s.ctxs num).isNone && s.dispatches 0 then
      let m := memZero (memZero (memZero (memZero (memZero s.mem table (2 ^ 29)) models 4096) binds 8192) fault0 8192) fault1 8192
      ({ s with mem := m } : State).setCtx num
        { table := table, models := models, binds := binds, kv := kv, fault0 := fault0, fault1 := fault1 }
    else s)

/-- Work of the context is on the module. -/
def State.ctxBusy (s : State) (n : Nat) : Bool :=
  (s.clusters.any fun c => c.2.wgs.any fun g => g.2.ctx == n) || (s.launches.any fun l => l.ctx == n) ||
  (s.shadows.any fun x => x.ctx == n) || (s.engines.any fun e => e.2.window.any fun m => m.ctx == n)
/-- Every dirty word of a context is written back; where pages have to wait, the words that wait for them, with their clusters. -/
def State.drainCtx (s : State) (n : Nat) : State × List (Nat × Nat × Byte) :=
  s.clusters.foldl (fun (o : State × List (Nat × Nat × Byte)) c => c.2.l1.foldl (fun (o : State × List (Nat × Nat × Byte)) e =>
      if e.2.own && e.2.dirty && keyCtx e.1 == n then
        match o.1.flushWord c.1 {} n (keyObj e.1) (keyWord e.1) e.2.data with
        | .ok y _ => (y, o.2)
        | .waits cause => (o.1, o.2 ++ [(c.1, e.1, cause)])
        | .fails _ => o
      else o) o) (s, [])
/-- CONTEXT_END (R160, R247, R307): what caches hold of it is written back and goes; its tiles are zeroed; its joins are
dropped as XRF drops them. -/
def execContextEnd (num : Nat) (s : State) : Host.Outcome State Fault Refusal :=
  .next (if (look s.ctxs num).isNone || s.ctxBusy num then s
    else match s.drainCtx num with
      | (_, p :: r) => (p :: r).foldl (fun y q => y.askPage num q.1 (keyObj q.2.1) (4 * keyWord q.2.1) q.2.2) s
      | (x, []) =>
        let merged := (x.scats.filter fun p => p.ctx == num).foldl (fun y p => y.mergeWord num p.obj p.word) x
        let y := (merged.objectsOf num).foldl (fun z o => z.freeTiles num o) merged
        let z := (y.xrJoins.filter fun j => j.ctx == num).foldl (fun q j =>
          if handleHub j.handle = q.dev then q.hubXrf { dev := q.dev, handle := j.handle, body := .xrf } else q) y
        { z.l2Drop fun k _ => keyCtx k == num with
          ctxs := Tab.del z.ctxs num
          images := z.images.filter fun m => m.wg.ctx != num
          xrJoins := z.xrJoins.filter fun j => j.ctx != num
          xrFreed := z.xrFreed.filter fun j => j.ctx != num
          lwaits := z.lwaits.filter fun p => p.1 != num
          cursors := z.cursors.filter fun p => p.1 != num
          bare := z.bare.filter fun p => p.1 != num
          globals := z.globals.filter fun p => p.1 != num
          outs := z.outs.filter fun o => o.ctx != num
          pages := z.pages.filter fun p => p.ctx != num
          scats := z.scats.filter fun p => p.ctx != num
          engines := z.engines.map fun e => (e.1, { e.2 with chains := e.2.chains.filter fun c => c.2.ctx != num })
          l2Dirty := z.l2Dirty.filter fun e => keyCtx e.1 != num
          frames := z.frames.filter fun e => e.2 / 2 ^ 24 != num
          skips := z.skips.filter fun p => p.1 != num
          portRecs := z.portRecs.filter fun p => p.1 != num
          clusters := (z.l2Drop fun k _ => keyCtx k == num).clusters.map fun c => (c.1, { c.2.dropWords fun k _ => keyCtx k == num with
            lvt := c.2.lvt.filter fun e => e.2.ctx != num }) })

/-! ### Bring-up (R330) -/

/-- What is left of the module when it starts again: flash, and memory until step 5 zeroes it. The health state is as the records
have it: it only rises; WHY is 0 (R322, R324). -/
def State.restart (s : State) (f : Flash) : State :=
  { mem := s.mem, version := s.version, firmware := s.firmware, flash := f, lifetime := f.lifetime, retiredClusters := f.clusters
    retiredChannels := f.channels, retiredLanes := f.lanes, retiredPorts := f.ports, retirements := f.retirements
    clr := f.clusters.length, pcr := f.channels.length, lnr := f.lanes.length, health := f.health
    deadDies := f.dead, record := s.record, agenda := s.agenda, turns := s.turns, frees := s.frees }
/-- A firmware image that R328 lets be used, beside the highest version accepted before. -/
def Firmware.usable (x : Firmware) (version : Nat) : Bool := x.verified && decide (version ≤ x.version)
/-- The firmware images and the configuration record are ones that R328 lets be used. -/
def BootRecord.usable (r : BootRecord) (version : Nat) (fw : Nat × Nat × Nat) : Bool :=
  Firmware.usable r.core fw.1 && Firmware.usable r.umailo fw.2.1 && Firmware.usable r.link fw.2.2 &&
  r.verified && decide (version ≤ r.version ∧ r.dev ≤ 36) && [0, 64, 128, 256].contains r.mscGiB &&
    (match r.hostPort with
      | some p => decide (p < 36)
      | none => true)
/-- A record that clears the record of retirements, its parts replaced: the module is HEALTHY (R322). -/
def State.clearRetired (s : State) : State :=
  { s with
    retiredClusters := [], retiredChannels := [], retiredLanes := [], retiredPorts := [], clr := 0, pcr := 0, lnr := 0
    health := 0, why := 0, deadDies := [] }
/-- The configuration and the retirements are applied. -/
def State.applyRecord (s : State) : State :=
  let r := s.record
  let y := if r.clear then s.clearRetired else s
  let x : State := { y with
    dev := r.dev, pod := r.pod, hostPort := r.hostPort, boot := 3
    ports := (List.range 36).map fun p => (p, { lanes := 4 - (y.retiredLanes.filter fun l => l.1 == p).length }) }
  if x.retiredClusters.isEmpty && x.retiredChannels.isEmpty && x.retiredLanes.isEmpty && x.retiredPorts.isEmpty then x else x.degrade
/-- Memory that is not of the module: the host's, and that of peers. -/
def outsideMem (m : List Host.Cell) : List Host.Cell := m.filter fun c => decide (2 ^ 65 ≤ c.1)
/-- A step of bring-up fails: the module is FAILED, and only a reset goes on. -/
def State.bootFails (s : State) (why : Nat) : State := { s.failModule why with halted := true }
/-- A port that has a far end has been trained, or has been retired with its lanes (R330). -/
def State.portTried (s : State) (p : Nat) : Bool := (s.port p).trained || (s.port p).lanes == 0 || s.retiredPorts.contains p
/-- The step that comes next, each once the one before has succeeded. -/
def State.bootNext (s : State) : State :=
  match s.boot with
  | 0 =>
    let x : State := { s with frees := s.frees + 1, record := Config.freeBoot s.frees }
    if x.record.rom then { x with boot := 1 } else x.bootFails 3
  | 1 =>
    let r := s.record
    if BootRecord.usable r s.version s.firmware then
      { s with boot := 2, verified := true, version := r.version
               firmware := (r.core.version, r.umailo.version, r.link.version) }
    else s.bootFails 4
  | 2 => s.applyRecord
  | 3 =>
    if s.record.memory then { s with boot := 4, mscGiB := s.record.mscGiB, channelsOut := s.retiredChannels.length }
    else s.bootFails 2
  | 4 => { s with boot := 5, mem := outsideMem s.mem, poison := [], msc := [], fresh := 0, frames := [] }
  | 5 => if s.record.cores then { s with boot := 6 } else s.bootFails 3
  | 6 => if s.record.linked.all fun p => some p == s.hostPort || s.portTried p then { s with boot := 7 } else s
  | n + 7 => { s with boot := n + 8 }
/-- A module that has FAILED when its retirements are applied, or later, takes no further step. -/
def State.bootStep (s : State) : State := if s.boot ≥ 3 ∧ s.health = 2 then { s with halted := true } else s.bootNext
/-- RESET (R330): a module that is up, or whose bring-up has failed, starts again; one that comes up takes its next step. -/
def execReset (s : State) : Host.Outcome State Fault Refusal :=
  .next (if s.boot ≥ 8 ∨ s.halted = true then s.restart s.flashOf else s.bootStep)
/-- LOSS_OF_POWER (R325): the lifetime records that were not yet in flash are lost, and the module's memory holds no data; memory of the
host and of peers does. The health state only rises, so that it is kept, with the retirements that it follows from (R322; log 83). -/
def execLossOfPower (s : State) : Host.Outcome State Fault Refusal :=
  .next { s.restart { s.flashOf with lifetime := s.flash.lifetime } with mem := outsideMem s.mem }

end Sys2Proof.Machine
end

