-- ==== Sys2Proof/Machine/Pair.lean ====
section
/-! DEFINITION. Pair words (R47 to R49): the value of each half, and both halves in a thread's one lane cycle. -/

namespace Sys2Proof.Machine

/-! ### One half -/

/-- D, which is also the first source. -/
def halfD (x : HalfArgs) : Opd := if x.core then .g x.d else .v x.d
/-- The second source as an operand; an immediate is a raw integer there. -/
def halfB (x : HalfArgs) : Opd :=
  match x.src with
  | .v n => .v n
  | .k n => .k n
  | .g n => .g n
  | .imm i => .imm (i.signExtend 16) true
/-- imm7 converted exactly to FP32. -/
def immF32 (i : BitVec 7) : Word := (toF32 .rn (.fin (i.toInt < 0) i.toInt.natAbs 0)).1
/-- The second source's data: imm7 as the operation takes it (R48). -/
def halfVal (float : Nat) (w : Warp) (t : Nat) (x : HalfArgs) : Word :=
  match x.src with
  | .imm i => if float = 0 then i.signExtend 32
      else if float = 1 then immF32 i else halves (upperHalf (immF32 i)) (upperHalf (immF32 i))
  | _ => w.val t (halfB x)

/-- What a half does: its discipline, whether it reads D too, how it takes an immediate (0 raw, 1 FP32, 2 BF16), the tag it
writes, and its value with flags. -/
structure HalfSem where
  disc : Disc
  float : Nat := 0
  tag : BitVec 2 := 0
  f : Word → Word → Word × Word
def intHalf (f : Word → Word → Word) : HalfSem := { disc := .arith, f := fun a b => (f a b, 0) }
def bitHalf (f : Word → Word → Word) : HalfSem := { disc := .bits, f := fun a b => (f a b, 0) }
def fpHalf (f : FVal → FVal → FVal) : HalfSem :=
  { disc := tagF32, float := 1, tag := 1, f := fun a b => toF32 .rn (f (f32 a) (f32 b)) }
def fpMinmax (mx : Bool) : HalfSem :=
  { disc := tagF32, float := 1, tag := 1
    f := fun a b => let r := minmaxCode fp32 mx false a.toNat b.toNat; (BitVec.ofNat 32 r.1, r.2) }
def bfHalf (f : Word → Word → Word × Word) : HalfSem := { disc := tagB2, float := 2, tag := 2, f := f }

/-- The table of R48. -/
def halfSem : HalfOp → HalfSem
  | .nop => intHalf fun a _ => a
  | .iadd => intHalf (· + ·)
  | .isub => intHalf (· - ·)
  | .imul => intHalf (· * ·)
  | .imin => intHalf minS
  | .imax => intHalf maxS
  | .iminN => intHalf minN
  | .imaxN => intHalf maxN
  | .and => bitHalf (· &&& ·)
  | .or => bitHalf (· ||| ·)
  | .xor => bitHalf (· ^^^ ·)
  | .andn => bitHalf fun a b => a &&& ~~~b
  | .shl => bitHalf shlW
  | .shr => bitHalf shrW
  | .sar => bitHalf sarW
  | .rot => bitHalf rotW
  | .mov => { disc := .move, f := fun _ b => (b, 0) }
  | .fadd => fpHalf (addX .rn)
  | .fsub => fpHalf (subX .rn)
  | .fmul => fpHalf mulX
  | .fmin => fpMinmax false
  | .fmax => fpMinmax true
  | .badd2 => bfHalf (badd2Word .rn)
  | .bmul2 => bfHalf (bmul2Word .rn)
  | .bmin2 => bfHalf (packedMinmax false)
  | .bmax2 => bfHalf (packedMinmax true)

/-- The sources of a half: MOV reads the second alone, NOP none. -/
def halfSrcs (h : Half) : List Src :=
  let q := (halfSem h.op).disc
  match h.op with
  | .nop => []
  | .mov => [srcB (halfB h.args) q]
  | _ => [srcA (halfD h.args) q, srcB (halfB h.args) q]
/-- The registers that a half names. -/
def halfNamed (h : Half) : List (Opd × Nat) :=
  match h.op with
  | .nop => []
  | _ => [(halfD h.args, 1), (halfB h.args, 1)]
/-- The tag of a half's result. -/
def halfTag (w : Warp) (t : Nat) (h : Half) : BitVec 2 :=
  match h.op with
  | .mov => (w.read t (halfB h.args)).tag
  | _ => (halfSem h.op).tag
/-- What a half writes, as formed from the registers before the word: its register, and flags. -/
def halfResult (w : Warp) (t : Nat) (h : Half) : Option LWrite × Word :=
  match h.op with
  | .nop => (none, 0)
  | _ =>
    let m := halfSem h.op
    let r := m.f (w.val t (halfD h.args)) (halfVal m.float w t h.args)
    (some { t := t, dst := w.dst (halfD h.args), val := r.1, tag := halfTag w t h, plate := resultPlate w t [t] (halfSrcs h) }, r.2)

/-! ### The word -/

/-- Both halves of a pair in one thread (R49): a cause in either keeps both from writing, with TADDR 0. -/
def pairLane (h0 h1 : Half) (x : State) (t : Nat) : LaneOut :=
  let w := x.me
  match (checkSrcs w t (halfSrcs h0)).or (checkSrcs w t (halfSrcs h1)) with
  | some (cause, _) => .hit cause 0 x
  | none =>
    let r0 := halfResult w t h0
    let r1 := halfResult w t h1
    let put (y : State) (o : Option LWrite) : State := match o with
      | some l => y.writeReg l.t l.dst l.val l.tag l.plate
      | none => y
    .ok ((put (put x r0.1) r1.1).orSt (r0.2 ||| r1.2))
def pairOf (s : State) (sw : Bool) (h0 h1 : Half) : State :=
  issue s { h := { sw := sw, g := .em }, named := halfNamed h0 ++ halfNamed h1 } (perLane (pairLane h0 h1))

/-- A pair word whose H0 is NOP (R47 to R49). -/
def execPairNop (sw : Bool) (h1 : Half) (s : State) : Host.Outcome State Fault Refusal :=
  .next (pairOf s sw { op := .nop, args := { core := false, d := 0, src := .imm 0 } } h1)
/-- A pair word whose H0 is IADD (R48, R49). -/
def execPairIadd (sw : Bool) (h0 : HalfArgs) (h1 : Half) (s : State) : Host.Outcome State Fault Refusal :=
  .next (pairOf s sw { op := .iadd, args := h0 } h1)
/-- A pair word whose H0 is ISUB (R48, R49). -/
def execPairIsub (sw : Bool) (h0 : HalfArgs) (h1 : Half) (s : State) : Host.Outcome State Fault Refusal :=
  .next (pairOf s sw { op := .isub, args := h0 } h1)
/-- A pair word whose H0 is IMUL (R48, R49). -/
def execPairImul (sw : Bool) (h0 : HalfArgs) (h1 : Half) (s : State) : Host.Outcome State Fault Refusal :=
  .next (pairOf s sw { op := .imul, args := h0 } h1)
/-- A pair word whose H0 is IMIN (R48, R49). -/
def execPairImin (sw : Bool) (h0 : HalfArgs) (h1 : Half) (s : State) : Host.Outcome State Fault Refusal :=
  .next (pairOf s sw { op := .imin, args := h0 } h1)
/-- A pair word whose H0 is IMAX (R48, R49). -/
def execPairImax (sw : Bool) (h0 : HalfArgs) (h1 : Half) (s : State) : Host.Outcome State Fault Refusal :=
  .next (pairOf s sw { op := .imax, args := h0 } h1)
/-- A pair word whose H0 is IMIN.n (R48, R49). -/
def execPairIminN (sw : Bool) (h0 : HalfArgs) (h1 : Half) (s : State) : Host.Outcome State Fault Refusal :=
  .next (pairOf s sw { op := .iminN, args := h0 } h1)
/-- A pair word whose H0 is IMAX.n (R48, R49). -/
def execPairImaxN (sw : Bool) (h0 : HalfArgs) (h1 : Half) (s : State) : Host.Outcome State Fault Refusal :=
  .next (pairOf s sw { op := .imaxN, args := h0 } h1)
/-- A pair word whose H0 is AND (R48, R49). -/
def execPairAnd (sw : Bool) (h0 : HalfArgs) (h1 : Half) (s : State) : Host.Outcome State Fault Refusal :=
  .next (pairOf s sw { op := .and, args := h0 } h1)
/-- A pair word whose H0 is OR (R48, R49). -/
def execPairOr (sw : Bool) (h0 : HalfArgs) (h1 : Half) (s : State) : Host.Outcome State Fault Refusal :=
  .next (pairOf s sw { op := .or, args := h0 } h1)
/-- A pair word whose H0 is XOR (R48, R49). -/
def execPairXor (sw : Bool) (h0 : HalfArgs) (h1 : Half) (s : State) : Host.Outcome State Fault Refusal :=
  .next (pairOf s sw { op := .xor, args := h0 } h1)
/-- A pair word whose H0 is ANDN (R48, R49). -/
def execPairAndn (sw : Bool) (h0 : HalfArgs) (h1 : Half) (s : State) : Host.Outcome State Fault Refusal :=
  .next (pairOf s sw { op := .andn, args := h0 } h1)
/-- A pair word whose H0 is SHL (R48, R49). -/
def execPairShl (sw : Bool) (h0 : HalfArgs) (h1 : Half) (s : State) : Host.Outcome State Fault Refusal :=
  .next (pairOf s sw { op := .shl, args := h0 } h1)
/-- A pair word whose H0 is SHR (R48, R49). -/
def execPairShr (sw : Bool) (h0 : HalfArgs) (h1 : Half) (s : State) : Host.Outcome State Fault Refusal :=
  .next (pairOf s sw { op := .shr, args := h0 } h1)
/-- A pair word whose H0 is SAR (R48, R49). -/
def execPairSar (sw : Bool) (h0 : HalfArgs) (h1 : Half) (s : State) : Host.Outcome State Fault Refusal :=
  .next (pairOf s sw { op := .sar, args := h0 } h1)
/-- A pair word whose H0 is ROT (R48, R49). -/
def execPairRot (sw : Bool) (h0 : HalfArgs) (h1 : Half) (s : State) : Host.Outcome State Fault Refusal :=
  .next (pairOf s sw { op := .rot, args := h0 } h1)
/-- A pair word whose H0 is MOV (R48, R49). -/
def execPairMov (sw : Bool) (h0 : HalfArgs) (h1 : Half) (s : State) : Host.Outcome State Fault Refusal :=
  .next (pairOf s sw { op := .mov, args := h0 } h1)
/-- A pair word whose H0 is FADD (R48, R49). -/
def execPairFadd (sw : Bool) (h0 : HalfArgs) (h1 : Half) (s : State) : Host.Outcome State Fault Refusal :=
  .next (pairOf s sw { op := .fadd, args := h0 } h1)
/-- A pair word whose H0 is FSUB (R48, R49). -/
def execPairFsub (sw : Bool) (h0 : HalfArgs) (h1 : Half) (s : State) : Host.Outcome State Fault Refusal :=
  .next (pairOf s sw { op := .fsub, args := h0 } h1)
/-- A pair word whose H0 is FMUL (R48, R49). -/
def execPairFmul (sw : Bool) (h0 : HalfArgs) (h1 : Half) (s : State) : Host.Outcome State Fault Refusal :=
  .next (pairOf s sw { op := .fmul, args := h0 } h1)
/-- A pair word whose H0 is FMIN (R48, R49). -/
def execPairFmin (sw : Bool) (h0 : HalfArgs) (h1 : Half) (s : State) : Host.Outcome State Fault Refusal :=
  .next (pairOf s sw { op := .fmin, args := h0 } h1)
/-- A pair word whose H0 is FMAX (R48, R49). -/
def execPairFmax (sw : Bool) (h0 : HalfArgs) (h1 : Half) (s : State) : Host.Outcome State Fault Refusal :=
  .next (pairOf s sw { op := .fmax, args := h0 } h1)
/-- A pair word whose H0 is BADD2 (R48, R49). -/
def execPairBadd2 (sw : Bool) (h0 : HalfArgs) (h1 : Half) (s : State) : Host.Outcome State Fault Refusal :=
  .next (pairOf s sw { op := .badd2, args := h0 } h1)
/-- A pair word whose H0 is BMUL2 (R48, R49). -/
def execPairBmul2 (sw : Bool) (h0 : HalfArgs) (h1 : Half) (s : State) : Host.Outcome State Fault Refusal :=
  .next (pairOf s sw { op := .bmul2, args := h0 } h1)
/-- A pair word whose H0 is BMIN2 (R48, R49). -/
def execPairBmin2 (sw : Bool) (h0 : HalfArgs) (h1 : Half) (s : State) : Host.Outcome State Fault Refusal :=
  .next (pairOf s sw { op := .bmin2, args := h0 } h1)
/-- A pair word whose H0 is BMAX2 (R48, R49). -/
def execPairBmax2 (sw : Bool) (h0 : HalfArgs) (h1 : Half) (s : State) : Host.Outcome State Fault Refusal :=
  .next (pairOf s sw { op := .bmax2, args := h0 } h1)

end Sys2Proof.Machine
end

