-- ==== Sys2Proof/Machine/Dispatch.lean ====
section
/-! DEFINITION. One arm per instruction and event: each is one call of its meaning. -/

namespace Sys2Proof.Machine

def exec (i : Instr) (s : State) : Host.Outcome State Fault Refusal :=
  match i with
  | .nop h => Sys2Proof.Machine.execNop h s
  | .rep sw sd sa sb sc cnt => Sys2Proof.Machine.execRep sw sd sa sb sc cnt s
  | .bra h w => Sys2Proof.Machine.execBra h w s
  | .brc h neg gf w => Sys2Proof.Machine.execBrc h neg gf w s
  | .jmpi h a => Sys2Proof.Machine.execJmpi h a s
  | .call h d w => Sys2Proof.Machine.execCall h d w s
  | .ret h a => Sys2Proof.Machine.execRet h a s
  | .join h tile => Sys2Proof.Machine.execJoin h tile s
  | .exit h => Sys2Proof.Machine.execExit h s
  | .tail h => Sys2Proof.Machine.execTail h s
  | .yield h => Sys2Proof.Machine.execYield h s
  | .trap h code => Sys2Proof.Machine.execTrap h code s
  | .tretReplay h => Sys2Proof.Machine.execTretReplay h s
  | .tretResume h => Sys2Proof.Machine.execTretResume h s
  | .waitw h cond d a b c tmo scl sc => Sys2Proof.Machine.execWaitw h cond d a b c tmo scl sc s
  | .barArriveWait h id => Sys2Proof.Machine.execBarArriveWait h id s
  | .barArrive h id => Sys2Proof.Machine.execBarArrive h id s
  | .barWait h id => Sys2Proof.Machine.execBarWait h id s
  | .rdsr h d sr => Sys2Proof.Machine.execRdsr h d sr s
  | .wrsr h sr a => Sys2Proof.Machine.execWrsr h sr a s
  | .ems sw kd => Sys2Proof.Machine.execEms sw kd s
  | .eml sw gf ka => Sys2Proof.Machine.execEml sw gf ka s
  | .ema sw gf => Sys2Proof.Machine.execEma sw gf s
  | .emn sw gf => Sys2Proof.Machine.execEmn sw gf s
  | .emo sw gf => Sys2Proof.Machine.execEmo sw gf s
  | .cms sw p kd => Sys2Proof.Machine.execCms sw p kd s
  | .cml sw p ka => Sys2Proof.Machine.execCml sw p ka s
  | .cmx sw op ka => Sys2Proof.Machine.execCmx sw op ka s
  | .part h size => Sys2Proof.Machine.execPart h size s
  | .xiset h src => Sys2Proof.Machine.execXiset h src s
  | .lnch h ka => Sys2Proof.Machine.execLnch h ka s
  | .wcan h lvl ka => Sys2Proof.Machine.execWcan h lvl ka s
  | .movwWrite h w k => Sys2Proof.Machine.execMovwWrite h w k s
  | .movwRead h k w => Sys2Proof.Machine.execMovwRead h k w s
  | .iadd h d a b => Sys2Proof.Machine.execIadd h d a b s
  | .iaddc h d a b => Sys2Proof.Machine.execIaddc h d a b s
  | .isub h d a b => Sys2Proof.Machine.execIsub h d a b s
  | .isubb h d a b => Sys2Proof.Machine.execIsubb h d a b s
  | .imul h d a b => Sys2Proof.Machine.execImul h d a b s
  | .imulh h d a b => Sys2Proof.Machine.execImulh h d a b s
  | .imulhN h d a b => Sys2Proof.Machine.execImulhN h d a b s
  | .imad h d a b c => Sys2Proof.Machine.execImad h d a b c s
  | .imin h nat d a b => Sys2Proof.Machine.execImin h nat d a b s
  | .imax h nat d a b => Sys2Proof.Machine.execImax h nat d a b s
  | .iabs h d a => Sys2Proof.Machine.execIabs h d a s
  | .ineg h d a => Sys2Proof.Machine.execIneg h d a s
  | .idiv h d a b => Sys2Proof.Machine.execIdiv h d a b s
  | .idivN h d a b => Sys2Proof.Machine.execIdivN h d a b s
  | .irem h d a b => Sys2Proof.Machine.execIrem h d a b s
  | .iremN h d a b => Sys2Proof.Machine.execIremN h d a b s
  | .and h d a b => Sys2Proof.Machine.execAnd h d a b s
  | .or h d a b => Sys2Proof.Machine.execOr h d a b s
  | .xor h d a b => Sys2Proof.Machine.execXor h d a b s
  | .andn h d a b => Sys2Proof.Machine.execAndn h d a b s
  | .not h d a => Sys2Proof.Machine.execNot h d a s
  | .shl h d a b => Sys2Proof.Machine.execShl h d a b s
  | .shr h d a b => Sys2Proof.Machine.execShr h d a b s
  | .sar h d a b => Sys2Proof.Machine.execSar h d a b s
  | .rot h d a b => Sys2Proof.Machine.execRot h d a b s
  | .bfx h sg d a b => Sys2Proof.Machine.execBfx h sg d a b s
  | .bfi h d a b c => Sys2Proof.Machine.execBfi h d a b c s
  | .popc h d a => Sys2Proof.Machine.execPopc h d a s
  | .clz h d a => Sys2Proof.Machine.execClz h d a s
  | .brev h d a => Sys2Proof.Machine.execBrev h d a s
  | .sel h d a b => Sys2Proof.Machine.execSel h d a b s
  | .selZ h d a b c => Sys2Proof.Machine.execSelZ h d a b c s
  | .iset h c d a b => Sys2Proof.Machine.execIset h c d a b s
  | .mov h d a => Sys2Proof.Machine.execMov h d a s
  | .movi h d tag imm => Sys2Proof.Machine.execMovi h d tag imm s
  | .retag h tag d a => Sys2Proof.Machine.execRetag h tag d a s
  | .cadd h d a b => Sys2Proof.Machine.execCadd h d a b s
  | .cmk h d a => Sys2Proof.Machine.execCmk h d a s
  | .clen h d a => Sys2Proof.Machine.execClen h d a s
  | .crst h d a b => Sys2Proof.Machine.execCrst h d a b s
  | .fadd h r d a b => Sys2Proof.Machine.execFadd h r d a b s
  | .fsub h r d a b => Sys2Proof.Machine.execFsub h r d a b s
  | .fmul h r d a b => Sys2Proof.Machine.execFmul h r d a b s
  | .ffma h r d a b c => Sys2Proof.Machine.execFfma h r d a b c s
  | .fmin h d a b => Sys2Proof.Machine.execFmin h d a b s
  | .fmax h d a b => Sys2Proof.Machine.execFmax h d a b s
  | .fminm h d a b => Sys2Proof.Machine.execFminm h d a b s
  | .fmaxm h d a b => Sys2Proof.Machine.execFmaxm h d a b s
  | .fset h c d a b => Sys2Proof.Machine.execFset h c d a b s
  | .fclass h d a => Sys2Proof.Machine.execFclass h d a s
  | .frnd h r x d a => Sys2Proof.Machine.execFrnd h r x d a s
  | .f2i h r n d a => Sys2Proof.Machine.execF2i h r n d a s
  | .i2f h r n d a => Sys2Proof.Machine.execI2f h r n d a s
  | .fpk h r d a b => Sys2Proof.Machine.execFpk h r d a b s
  | .fupk h hi d a => Sys2Proof.Machine.execFupk h hi d a s
  | .badd2 h r d a b => Sys2Proof.Machine.execBadd2 h r d a b s
  | .bmul2 h r d a b => Sys2Proof.Machine.execBmul2 h r d a b s
  | .bfma2 h r d a b c => Sys2Proof.Machine.execBfma2 h r d a b c s
  | .bmin2 h d a b => Sys2Proof.Machine.execBmin2 h d a b s
  | .bmax2 h d a b => Sys2Proof.Machine.execBmax2 h d a b s
  | .ftwos h d a b => Sys2Proof.Machine.execFtwos h d a b s
  | .ftwop h d a b => Sys2Proof.Machine.execFtwop h d a b s
  | .frcp h d a => Sys2Proof.Machine.execFrcp h d a s
  | .frsq h d a => Sys2Proof.Machine.execFrsq h d a s
  | .fsqrt h d a => Sys2Proof.Machine.execFsqrt h d a s
  | .fexp2 h d a => Sys2Proof.Machine.execFexp2 h d a s
  | .flog2 h d a => Sys2Proof.Machine.execFlog2 h d a s
  | .fsint h d a => Sys2Proof.Machine.execFsint h d a s
  | .fcost h d a => Sys2Proof.Machine.execFcost h d a s
  | .ftanh h d a => Sys2Proof.Machine.execFtanh h d a s
  | .rota h d a b => Sys2Proof.Machine.execRota h d a b s
  | .fdiv h r d a b => Sys2Proof.Machine.execFdiv h r d a b s
  | .shflIdx h d a b => Sys2Proof.Machine.execShflIdx h d a b s
  | .shflUp h d a b => Sys2Proof.Machine.execShflUp h d a b s
  | .shflDown h d a b => Sys2Proof.Machine.execShflDown h d a b s
  | .shflXor h d a b => Sys2Proof.Machine.execShflXor h d a b s
  | .pswp h n d a => Sys2Proof.Machine.execPswp h n d a s
  | .voteAny h cmw d a => Sys2Proof.Machine.execVoteAny h cmw d a s
  | .voteAll h cmw d a => Sys2Proof.Machine.execVoteAll h cmw d a s
  | .voteBallot h d a => Sys2Proof.Machine.execVoteBallot h d a s
  | .reduxAddI32 h d a => Sys2Proof.Machine.execReduxAddI32 h d a s
  | .reduxAddF32 h d a => Sys2Proof.Machine.execReduxAddF32 h d a s
  | .reduxMin h d a => Sys2Proof.Machine.execReduxMin h d a s
  | .reduxMax h d a => Sys2Proof.Machine.execReduxMax h d a s
  | .reduxMinN h d a => Sys2Proof.Machine.execReduxMinN h d a s
  | .reduxMaxN h d a => Sys2Proof.Machine.execReduxMaxN h d a s
  | .reduxFmin h d a => Sys2Proof.Machine.execReduxFmin h d a s
  | .reduxFmax h d a => Sys2Proof.Machine.execReduxFmax h d a s
  | .reduxAnd h d a => Sys2Proof.Machine.execReduxAnd h d a s
  | .reduxOr h d a => Sys2Proof.Machine.execReduxOr h d a s
  | .reduxXor h d a => Sys2Proof.Machine.execReduxXor h d a s
  | .scan h excl op d a => Sys2Proof.Machine.execScan h excl op d a s
  | .rdln h tile d => Sys2Proof.Machine.execRdln h tile d s
  | .ld h scl lim pred conv d a b c => Sys2Proof.Machine.execLd h scl lim pred conv d a b c s
  | .ldStrong h scl sc conv d a b => Sys2Proof.Machine.execLdStrong h scl sc conv d a b s
  | .ldk h scl mode conv d a b c => Sys2Proof.Machine.execLdk h scl mode conv d a b c s
  | .st h scl acc ns conv a b c => Sys2Proof.Machine.execSt h scl acc ns conv a b c s
  | .stStrong h scl sc acc ns conv a b c => Sys2Proof.Machine.execStStrong h scl sc acc ns conv a b c s
  | .stk h scl mode acc ns conv a b c => Sys2Proof.Machine.execStk h scl mode acc ns conv a b c s
  | .ldh h scl conv d a b => Sys2Proof.Machine.execLdh h scl conv d a b s
  | .ldhWf h scl conv d a b => Sys2Proof.Machine.execLdhWf h scl conv d a b s
  | .ldhWfe h scl conv d a b => Sys2Proof.Machine.execLdhWfe h scl conv d a b s
  | .sth h scl acc conv a b c => Sys2Proof.Machine.execSth h scl acc conv a b c s
  | .sthSf h scl acc conv a b c => Sys2Proof.Machine.execSthSf h scl acc conv a b c s
  | .sthWesf h scl acc conv a b c => Sys2Proof.Machine.execSthWesf h scl acc conv a b c s
  | .smap h id a b c => Sys2Proof.Machine.execSmap h id a b c s
  | .sunmap h id => Sys2Proof.Machine.execSunmap h id s
  | .sflush h id => Sys2Proof.Machine.execSflush h id s
  | .tpl h a => Sys2Proof.Machine.execTpl h a s
  | .tplT h => Sys2Proof.Machine.execTplT h s
  | .acpt h d => Sys2Proof.Machine.execAcpt h d s
  | .redem h d => Sys2Proof.Machine.execRedem h d s
  | .pft h scl lim lvl line a b => Sys2Proof.Machine.execPft h scl lim lvl line a b s
  | .gath h esz d a b c => Sys2Proof.Machine.execGath h esz d a b c s
  | .scatAddF32 h d a b c => Sys2Proof.Machine.execScatAddF32 h d a b c s
  | .scatAddI32 h d a b c => Sys2Proof.Machine.execScatAddI32 h d a b c s
  | .scatMin h d a b c => Sys2Proof.Machine.execScatMin h d a b c s
  | .scatMax h d a b c => Sys2Proof.Machine.execScatMax h d a b c s
  | .scatOr h d a b c => Sys2Proof.Machine.execScatOr h d a b c s
  | .tclr h => Sys2Proof.Machine.execTclr h s
  | .atAdd h sc scl ty d a b c => Sys2Proof.Machine.execAtAdd h sc scl ty d a b c s
  | .atMin h sc scl ty d a b c => Sys2Proof.Machine.execAtMin h sc scl ty d a b c s
  | .atMax h sc scl ty d a b c => Sys2Proof.Machine.execAtMax h sc scl ty d a b c s
  | .atAnd h sc scl ty d a b c => Sys2Proof.Machine.execAtAnd h sc scl ty d a b c s
  | .atOr h sc scl ty d a b c => Sys2Proof.Machine.execAtOr h sc scl ty d a b c s
  | .atXor h sc scl ty d a b c => Sys2Proof.Machine.execAtXor h sc scl ty d a b c s
  | .atExch h sc scl ty d a b c => Sys2Proof.Machine.execAtExch h sc scl ty d a b c s
  | .atCas h sc scl ty d a b c => Sys2Proof.Machine.execAtCas h sc scl ty d a b c s
  | .redAdd h sc scl ty a b c => Sys2Proof.Machine.execRedAdd h sc scl ty a b c s
  | .redMin h sc scl ty a b c => Sys2Proof.Machine.execRedMin h sc scl ty a b c s
  | .redMax h sc scl ty a b c => Sys2Proof.Machine.execRedMax h sc scl ty a b c s
  | .redAnd h sc scl ty a b c => Sys2Proof.Machine.execRedAnd h sc scl ty a b c s
  | .redOr h sc scl ty a b c => Sys2Proof.Machine.execRedOr h sc scl ty a b c s
  | .redXor h sc scl ty a b c => Sys2Proof.Machine.execRedXor h sc scl ty a b c s
  | .bind h d a b c => Sys2Proof.Machine.execBind h d a b c s
  | .bindUn h a => Sys2Proof.Machine.execBindUn h a s
  | .acq h tmo sc a b => Sys2Proof.Machine.execAcq h tmo sc a b s
  | .rel h sc a => Sys2Proof.Machine.execRel h sc a s
  | .fence h sc => Sys2Proof.Machine.execFence h sc s
  | .publ h a => Sys2Proof.Machine.execPubl h a s
  | .tld h scl conv d a b => Sys2Proof.Machine.execTld h scl conv d a b s
  | .tst h scl acc conv a b c => Sys2Proof.Machine.execTst h scl acc conv a b c s
  | .burn h scl a b => Sys2Proof.Machine.execBurn h scl a b s
  | .life h scl d a b => Sys2Proof.Machine.execLife h scl d a b s
  | .tinit h scl a b => Sys2Proof.Machine.execTinit h scl a b s
  | .ofill h rf ns sb conv d a b c => Sys2Proof.Machine.execOfill h rf ns sb conv d a b c s
  | .ofillAssay h d a c => Sys2Proof.Machine.execOfillAssay h d a c s
  | .awset h w a b => Sys2Proof.Machine.execAwset h w a b s
  | .accrd h d a b => Sys2Proof.Machine.execAccrd h d a b s
  | .accrdW h d a b => Sys2Proof.Machine.execAccrdW h d a b s
  | .accwr h a b c => Sys2Proof.Machine.execAccwr h a b c s
  | .accrel h a => Sys2Proof.Machine.execAccrel h a s
  | .lwait h tmo d a b => Sys2Proof.Machine.execLwait h tmo d a b s
  | .ldone h a b => Sys2Proof.Machine.execLdone h a b s
  | .lqry h d a b => Sys2Proof.Machine.execLqry h d a b s
  | .kvx h d a b c => Sys2Proof.Machine.execKvx h d a b c s
  | .pfxh h d a b => Sys2Proof.Machine.execPfxh h d a b s
  | .pfxm h d a b => Sys2Proof.Machine.execPfxm h d a b s
  | .pfxpPin h a b => Sys2Proof.Machine.execPfxpPin h a b s
  | .pfxpUnpin h a b => Sys2Proof.Machine.execPfxpUnpin h a b s
  | .pfxpInsert h a b c => Sys2Proof.Machine.execPfxpInsert h a b c s
  | .wqpop h d => Sys2Proof.Machine.execWqpop h d s
  | .larr h sc d a b c => Sys2Proof.Machine.execLarr h sc d a b c s
  | .rnext h d a b => Sys2Proof.Machine.execRnext h d a b s
  | .xra h op tmo n1 d a b c => Sys2Proof.Machine.execXra h op tmo n1 d a b c s
  | .xrc h a c => Sys2Proof.Machine.execXrc h a c s
  | .xrw h d a => Sys2Proof.Machine.execXrw h d a s
  | .xrf h a => Sys2Proof.Machine.execXrf h a s
  | .oclm h d n => Sys2Proof.Machine.execOclm h d n s
  | .orel h a n => Sys2Proof.Machine.execOrel h a n s
  | .orelRe h a n => Sys2Proof.Machine.execOrelRe h a n s
  | .owait h a n => Sys2Proof.Machine.execOwait h a n s
  | .mma h fmt mx d a b => Sys2Proof.Machine.execMma h fmt mx d a b s
  | .mmas h pat fmt d a b c => Sys2Proof.Machine.execMmas h pat fmt d a b c s
  | .mmah h pv cnt1 bit hr fmt fill mx d a b => Sys2Proof.Machine.execMmah h pv cnt1 bit hr fmt fill mx d a b s
  | .assay h bit hr sink loc cnt1 d a b c => Sys2Proof.Machine.execAssay h bit hr sink loc cnt1 d a b c s
  | .hmopAnd h d a b => Sys2Proof.Machine.execHmopAnd h d a b s
  | .hmopOr h d a b => Sys2Proof.Machine.execHmopOr h d a b s
  | .hmopAndn h d a b => Sys2Proof.Machine.execHmopAndn h d a b s
  | .hmopSet h d lo n1 => Sys2Proof.Machine.execHmopSet h d lo n1 s
  | .hmopClear h d lo n1 => Sys2Proof.Machine.execHmopClear h d lo n1 s
  | .hmopCount h d a lo n1 => Sys2Proof.Machine.execHmopCount h d a lo n1 s
  | .accz h a b => Sys2Proof.Machine.execAccz h a b s
  | .accsig h a b => Sys2Proof.Machine.execAccsig h a b s
  | .pairNop sw h1 => Sys2Proof.Machine.execPairNop sw h1 s
  | .pairIadd sw h0 h1 => Sys2Proof.Machine.execPairIadd sw h0 h1 s
  | .pairIsub sw h0 h1 => Sys2Proof.Machine.execPairIsub sw h0 h1 s
  | .pairImul sw h0 h1 => Sys2Proof.Machine.execPairImul sw h0 h1 s
  | .pairImin sw h0 h1 => Sys2Proof.Machine.execPairImin sw h0 h1 s
  | .pairImax sw h0 h1 => Sys2Proof.Machine.execPairImax sw h0 h1 s
  | .pairIminN sw h0 h1 => Sys2Proof.Machine.execPairIminN sw h0 h1 s
  | .pairImaxN sw h0 h1 => Sys2Proof.Machine.execPairImaxN sw h0 h1 s
  | .pairAnd sw h0 h1 => Sys2Proof.Machine.execPairAnd sw h0 h1 s
  | .pairOr sw h0 h1 => Sys2Proof.Machine.execPairOr sw h0 h1 s
  | .pairXor sw h0 h1 => Sys2Proof.Machine.execPairXor sw h0 h1 s
  | .pairAndn sw h0 h1 => Sys2Proof.Machine.execPairAndn sw h0 h1 s
  | .pairShl sw h0 h1 => Sys2Proof.Machine.execPairShl sw h0 h1 s
  | .pairShr sw h0 h1 => Sys2Proof.Machine.execPairShr sw h0 h1 s
  | .pairSar sw h0 h1 => Sys2Proof.Machine.execPairSar sw h0 h1 s
  | .pairRot sw h0 h1 => Sys2Proof.Machine.execPairRot sw h0 h1 s
  | .pairMov sw h0 h1 => Sys2Proof.Machine.execPairMov sw h0 h1 s
  | .pairFadd sw h0 h1 => Sys2Proof.Machine.execPairFadd sw h0 h1 s
  | .pairFsub sw h0 h1 => Sys2Proof.Machine.execPairFsub sw h0 h1 s
  | .pairFmul sw h0 h1 => Sys2Proof.Machine.execPairFmul sw h0 h1 s
  | .pairFmin sw h0 h1 => Sys2Proof.Machine.execPairFmin sw h0 h1 s
  | .pairFmax sw h0 h1 => Sys2Proof.Machine.execPairFmax sw h0 h1 s
  | .pairBadd2 sw h0 h1 => Sys2Proof.Machine.execPairBadd2 sw h0 h1 s
  | .pairBmul2 sw h0 h1 => Sys2Proof.Machine.execPairBmul2 sw h0 h1 s
  | .pairBmin2 sw h0 h1 => Sys2Proof.Machine.execPairBmin2 sw h0 h1 s
  | .pairBmax2 sw h0 h1 => Sys2Proof.Machine.execPairBmax2 sw h0 h1 s
  | .waitwWake cl slot id => Sys2Proof.Machine.execWaitwWake cl slot id s
  | .waitwTimeout cl slot id => Sys2Proof.Machine.execWaitwTimeout cl slot id s
  | .longResultWrite cl slot id => Sys2Proof.Machine.execLongResultWrite cl slot id s
  | .limitExpiry cl slot id => Sys2Proof.Machine.execLimitExpiry cl slot id s
  | .loadReply cl slot id via => Sys2Proof.Machine.execLoadReply cl slot id via s
  | .storeMemoryCause cl slot id => Sys2Proof.Machine.execStoreMemoryCause cl slot id s
  | .ldhWake cl slot id => Sys2Proof.Machine.execLdhWake cl slot id s
  | .sthWake cl slot id => Sys2Proof.Machine.execSthWake cl slot id s
  | .gathElementReply cl slot id elem => Sys2Proof.Machine.execGathElementReply cl slot id elem s
  | .acqWake cl slot id => Sys2Proof.Machine.execAcqWake cl slot id s
  | .acqTimeout cl slot id => Sys2Proof.Machine.execAcqTimeout cl slot id s
  | .relComplete cl slot id => Sys2Proof.Machine.execRelComplete cl slot id s
  | .fenceComplete cl slot id => Sys2Proof.Machine.execFenceComplete cl slot id s
  | .publComplete cl slot id => Sys2Proof.Machine.execPublComplete cl slot id s
  | .tarnishExpiry cl tile => Sys2Proof.Machine.execTarnishExpiry cl tile s
  | .tarnishTileMap ctx obj part clu tile => Sys2Proof.Machine.execTarnishTileMap ctx obj part clu tile s
  | .accrdWWake cl slot id => Sys2Proof.Machine.execAccrdWWake cl slot id s
  | .lwaitWake cl slot id => Sys2Proof.Machine.execLwaitWake cl slot id s
  | .lwaitTimeout cl slot id => Sys2Proof.Machine.execLwaitTimeout cl slot id s
  | .xrwWake cl slot id => Sys2Proof.Machine.execXrwWake cl slot id s
  | .xraAtHub src => Sys2Proof.Machine.execXraAtHub src s
  | .xrcAtHub src => Sys2Proof.Machine.execXrcAtHub src s
  | .xrSlotTimeout slot => Sys2Proof.Machine.execXrSlotTimeout slot s
  | .xrRecordWrite handle dev word0 missing elems => Sys2Proof.Machine.execXrRecordWrite handle dev word0 missing elems s
  | .xrfAtHub src => Sys2Proof.Machine.execXrfAtHub src s
  | .xrSlotReclaim slot => Sys2Proof.Machine.execXrSlotReclaim slot s
  | .oclmResult cl id => Sys2Proof.Machine.execOclmResult cl id s
  | .orelAct cl id => Sys2Proof.Machine.execOrelAct cl id s
  | .owaitWake cl id => Sys2Proof.Machine.execOwaitWake cl id s
  | .anvilOpBegin cl => Sys2Proof.Machine.execAnvilOpBegin cl s
  | .anvilOpCommit cl => Sys2Proof.Machine.execAnvilOpCommit cl s
  | .mmahTileCommit cl => Sys2Proof.Machine.execMmahTileCommit cl s
  | .warpRetire cl slot => Sys2Proof.Machine.execWarpRetire cl slot s
  | .trackerEntryFree cl entry => Sys2Proof.Machine.execTrackerEntryFree cl entry s
  | .workgroupComplete cl entry => Sys2Proof.Machine.execWorkgroupComplete cl entry s
  | .deviceQueueTake die ctx idx place => Sys2Proof.Machine.execDeviceQueueTake die ctx idx place s
  | .placementReservation die idx => Sys2Proof.Machine.execPlacementReservation die idx s
  | .bindRecord cl entry => Sys2Proof.Machine.execBindRecord cl entry s
  | .clusterGate cl => Sys2Proof.Machine.execClusterGate cl s
  | .sliceExpiry cl entry => Sys2Proof.Machine.execSliceExpiry cl entry s
  | .watchdog cl entry => Sys2Proof.Machine.execWatchdog cl entry s
  | .preemptRequest cl entry => Sys2Proof.Machine.execPreemptRequest cl entry s
  | .preemptSaveComplete cl entry iobj ioff => Sys2Proof.Machine.execPreemptSaveComplete cl entry iobj ioff s
  | .faultRecordResolve ctx die idx act => Sys2Proof.Machine.execFaultRecordResolve ctx die idx act s
  | .memoryPortTranslate cl slot id => Sys2Proof.Machine.execMemoryPortTranslate cl slot id s
  | .tlbSnoop pa val => Sys2Proof.Machine.execTlbSnoop pa val s
  | .descriptorSnoop ctx obj dw val => Sys2Proof.Machine.execDescriptorSnoop ctx obj dw val s
  | .migrationRequest ctx obj page to_ => Sys2Proof.Machine.execMigrationRequest ctx obj page to_ s
  | .migrationComplete ctx obj page pa => Sys2Proof.Machine.execMigrationComplete ctx obj page pa s
  | .pinWindowExpiry ctx obj page => Sys2Proof.Machine.execPinWindowExpiry ctx obj page s
  | .homeSliceRequest ctx obj off => Sys2Proof.Machine.execHomeSliceRequest ctx obj off s
  | .scatUpdateAtSlice cl slot id elem => Sys2Proof.Machine.execScatUpdateAtSlice cl slot id elem s
  | .ownershipRecall cl ctx obj word => Sys2Proof.Machine.execOwnershipRecall cl ctx obj word s
  | .peerProbe cl peer ctx obj sector => Sys2Proof.Machine.execPeerProbe cl peer ctx obj sector s
  | .tierRead addr => Sys2Proof.Machine.execTierRead addr s
  | .tierWriteback addr data => Sys2Proof.Machine.execTierWriteback addr data s
  | .sprueFetchStart die => Sys2Proof.Machine.execSprueFetchStart die s
  | .sprueFetchComplete ctx model layer => Sys2Proof.Machine.execSprueFetchComplete ctx model layer s
  | .layerLeaveComplete ctx model layer => Sys2Proof.Machine.execLayerLeaveComplete ctx model layer s
  | .cwgo cl slot run => Sys2Proof.Machine.execCwgo cl slot run s
  | .registerWrite cl slot word val => Sys2Proof.Machine.execRegisterWrite cl slot word val s
  | .chainEntryTake die eng chain => Sys2Proof.Machine.execChainEntryTake die eng chain s
  | .engineNop die eng src => Sys2Proof.Machine.execEngineNop die eng src s
  | .engineCopy die eng src => Sys2Proof.Machine.execEngineCopy die eng src s
  | .engineFill die eng src => Sys2Proof.Machine.execEngineFill die eng src s
  | .engineStash die eng src => Sys2Proof.Machine.execEngineStash die eng src s
  | .engineSlot die eng src => Sys2Proof.Machine.execEngineSlot die eng src s
  | .engineLaunch die eng src => Sys2Proof.Machine.execEngineLaunch die eng src s
  | .engineWait die eng src => Sys2Proof.Machine.execEngineWait die eng src s
  | .engineWaitWake die eng src => Sys2Proof.Machine.execEngineWaitWake die eng src s
  | .engineCommandComplete die eng src => Sys2Proof.Machine.execEngineCommandComplete die eng src s
  | .portTrain p dev pod => Sys2Proof.Machine.execPortTrain p dev pod s
  | .flitReplay p => Sys2Proof.Machine.execFlitReplay p s
  | .portRetrain p => Sys2Proof.Machine.execPortRetrain p s
  | .retrainComplete p failed => Sys2Proof.Machine.execRetrainComplete p failed s
  | .portDown p => Sys2Proof.Machine.execPortDown p s
  | .remoteRequest peer space obj off acc => Sys2Proof.Machine.execRemoteRequest peer space obj off acc s
  | .hostAccess ctx obj off acc => Sys2Proof.Machine.execHostAccess ctx obj off acc s
  | .clockRatioChange cl m boost => Sys2Proof.Machine.execClockRatioChange cl m boost s
  | .handshakeEnd cl => Sys2Proof.Machine.execHandshakeEnd cl s
  | .droopDetect cl => Sys2Proof.Machine.execDroopDetect cl s
  | .droopRelease cl => Sys2Proof.Machine.execDroopRelease cl s
  | .throttleSet die thr tw => Sys2Proof.Machine.execThrottleSet die thr tw s
  | .partRetire p => Sys2Proof.Machine.execPartRetire p s
  | .lifetimeRecordWrite => Sys2Proof.Machine.execLifetimeRecordWrite s
  | .tarnishRetentionMeasure at_ ticks => Sys2Proof.Machine.execTarnishRetentionMeasure at_ ticks s
  | .attestationRequest nonce => Sys2Proof.Machine.execAttestationRequest nonce s
  | .counterRead unit c => Sys2Proof.Machine.execCounterRead unit c s
  | .counterReadClear unit c => Sys2Proof.Machine.execCounterReadClear unit c s
  | .poolCapacitySet pool bytes => Sys2Proof.Machine.execPoolCapacitySet pool bytes s
  | .contextCreate num table models binds kv fault0 fault1 => Sys2Proof.Machine.execContextCreate num table models binds kv fault0 fault1 s
  | .contextEnd num => Sys2Proof.Machine.execContextEnd num s
  | .reset => Sys2Proof.Machine.execReset s
  | .schedulingCoreFailure die => Sys2Proof.Machine.execSchedulingCoreFailure die s
  | .lossOfPower => Sys2Proof.Machine.execLossOfPower s
  | .chainAttach die eng ctx obj off => Sys2Proof.Machine.execChainAttach die eng ctx obj off s

end Sys2Proof.Machine
end

