-- ==== Sys2Proof/Machine/Issue.lean ====
section
/-! DEFINITION. The order of issue: which warp may issue (R18, R20, R21, R36, R285, R289), its next run (R23), a repeat in
progress (R55; log 9), and the passing of ticks and of the cycles of every cluster (R4, R5; log 2, log 67). -/

namespace Sys2Proof.Machine

/-! ### Whose turn it is (log 1) -/

/-- The next turn: the agenda's, or the free schedule's. -/
def State.turn (s : State) : Turn × State :=
  match s.agenda with
  | t :: r => (t, { s with agenda := r })
  | [] => (Config.freeTurn s.turns, { s with turns := s.turns + 1 })

/-! ### Which warp may issue -/

/-- The workgroup begins runs: it is bound, not parked, not being saved (R281, R289, R291). -/
def Cluster.runs (x : Cluster) (e : Nat) : Bool :=
  let st := (Tab.get {} x.slots e).st
  (st == 1 || st == 4) && !(x.wg e).parked
/-- A run of the workgroup that has begun goes on: parking waits for its end (R289), a save stops it between repeats (R291). -/
def Cluster.goesOn (x : Cluster) (e : Nat) : Bool :=
  let st := (Tab.get {} x.slots e).st
  st == 1 || st == 2 || st == 4
/-- The warp has a thread that can issue, or a withdrawn request to issue again (R293): none does while a CWGO of the warp waits in issue
(R316). -/
def Cluster.hasReady (x : Cluster) (k : Nat) : Bool :=
  match look x.warps k with
  | none => false
  | some w =>
    !w.retiring && !w.atGo && (if w.rep.isSome then x.goesOn w.entry else x.runs w.entry) &&
      ((!w.redo.isEmpty && w.rep.isNone) || (List.range 32).any fun t => (w.thread t).st == .ready)
/-- Throttling withholds the start of a run of the warp (R285). -/
def State.withheld (s : State) (c k : Nat) : Bool :=
  let w := s.warp c k
  let thr := if dieOf c = 0 then s.thr0 else s.thr1
  let tw := if dieOf c = 0 then s.tw0 else s.tw1
  w.rep.isNone && w.unit == .bench && (s.wg c w.entry).prio < thr && w.lastRun != 0 && s.tick + 1 < w.lastRun + tw

/-! ### The next run (R23) -/

/-- The ready thread with the largest AGE, the lowest on a tie. -/
def Warp.oldest (w : Warp) (r : List Nat) : Nat :=
  r.foldl (fun o t => if (w.thread t).age > (w.thread o).age then t else o) (r.headD 0)

/-- The chosen PC and run, before the repeats of a REP are told apart, and the thread of the age rule. -/
def Warp.choose (w : Warp) : Option (BitVec 40 × List Nat × Option Nat) :=
  let r := (List.range 32).filter fun t => (w.thread t).st == .ready
  match r with
  | [] => none
  | t0 :: _ =>
    let o := w.oldest r
    let aged := (w.thread o).age ≥ 64
    let pc := if aged then (w.thread o).pc
      else r.foldl (fun p t => if (w.thread t).pc.ult p then (w.thread t).pc else p) (w.thread t0).pc
    some (pc, r.filter fun t => (w.thread t).pc == pc, if aged then some o else none)

/-- Of threads at a REP word, those that start at the chosen repeat (R23). -/
def Warp.sameRepeat (w : Warp) (run : List Nat) (o : Option Nat) (cnt : Nat) : List Nat :=
  let first (t : Nat) : Int := firstRepeat (w.thread t).repc cnt
  let f := match o with
    | some t => first t
    | none => run.foldl (fun m t => min m (first t)) (first (run.headD 0))
  run.filter fun t => first t == f

/-- The next word of the warp waits for its page, or for the record of that wait (R165, R290). -/
def State.fetchWaits (s : State) (c k : Nat) : Bool :=
  let w := s.warp c k
  s.recordOpen w.fetchRec || (w.redo.isEmpty && match w.choose with
    | some (pc, _, _) => s.fetch c w pc == .waits
    | none => false)

/-! ### Seats and lanes -/

/-- The other seat of a warp's lane (R18). -/
def otherSeat (k : Nat) : Nat := if k % 64 < 32 then k + 32 else k - 32
/-- Ticks in which every warp with a ready thread issues (R36). -/
def floorTicks : Nat := 4096
/-- Ticks for which one issue can hold its lane: 128 cycles (R20), at the lowest ratio (R319), as the cluster's clock is stretched. -/
def Cluster.carry (x : Cluster) : Nat := 32 * x.stretch
/-- An issue that held the lane from now on could keep the warp of a seat from issuing by the floor of R36, and it has waited for longer than
the other seat's: it comes first, between the repeats of the other as well (DESIGN CHOICE, log 93). -/
def Cluster.presses (x : Cluster) (o k : Nat) : Bool :=
  x.hasReady o && decide (floorTicks < (x.warp o).waited + x.carry ∧ (x.warp k).waited < (x.warp o).waited)
/-- The other seat's warp has the lane: it is in the midst of its repeats, or it is its turn (R21), or it must not wait for longer (R36). A
seat whose warp has no ready thread, whose turn is withheld, or whose word cannot be fetched yet, is passed over. -/
def State.otherFirst (s : State) (c k : Nat) : Bool :=
  let x := s.cluster c
  let o := otherSeat k
  k != Config.coreSlot && x.hasReady o &&
    (x.presses o k || (!x.presses k o && (x.warp k).rep.isNone && ((x.warp o).rep.isSome ||
      ((Tab.get {} x.lanes (laneOf k)).seat == k % 64 / 32 && !s.withheld c o && !s.fetchWaits c o))))
/-- The warp may issue now; in a module that has FAILED none does (R322). -/
def State.mayIssue (s : State) (c k : Nat) : Bool :=
  let x := s.cluster c
  decide (s.boot ≥ 6) && s.health != 2 && x.hasReady k && decide ((Tab.get {} x.lanes (laneOf k)).busy ≤ x.cyc) && !s.withheld c k &&
    !s.otherFirst c k
/-- A warp that may issue has to issue now: it has waited for as long as it may (R36); or the other seat's warp would have to wait for
longer than it may, if this one, which comes before it, issued later; or this one would, if it issued after the other, whose turn is
withheld until its own floor (log 1, log 93). -/
def State.floorDue (s : State) (c k : Nat) : Bool :=
  let x := s.cluster c
  let o := otherSeat k
  let w := (x.warp k).waited
  let v := (x.warp o).waited
  k != Config.coreSlot && s.mayIssue c k && (decide (floorTicks ≤ w) || (x.hasReady o && decide (floorTicks ≤ v + x.carry) &&
    (!s.withheld c o || decide (floorTicks ≤ w + (floorTicks - v) + x.carry))))

/-! ### The passing of ticks and cycles (R4, R5) -/

/-- Ticks at which an unsettled lane's limit passes (R99). -/
def State.limits (s : State) : List Nat :=
  s.clusters.flatMap fun e => e.2.warps.flatMap fun w =>
    (w.2.loads.filter fun l => !l.settled && l.limit != 0).map fun l => l.t0 + l.limit
/-- Which tickets are free as a tick begins (R107). -/
def Warp.startTick (w : Warp) : Warp :=
  { w with free0 := (List.range 8).foldl (fun m i =>
      if (Tab.get {} w.tickets i).valid then m else m ||| (1#8 <<< i)) 0 }
/-- Ticks a clock-ratio handshake lasts at most (R321). -/
def shakeTicks : Nat := 750
/-- Ticks by which the watchdog limits and the slices of a cluster's workgroups, and its handshake, are to be acted on
(R287, R321). -/
def Cluster.dues (x : Cluster) : List Nat :=
  ((x.wgs.filter fun g => g.2.wdog != 0 && !g.2.late && !g.2.killed).map fun g => g.2.bound + g.2.wdog) ++
  (x.shakes.take 1).map (fun h => h.2.2 + shakeTicks) ++
  (x.wgs.filter fun g => g.2.slice != 0 && (Tab.get {} x.slots g.1).st == 1 && !x.allExited g.1).map fun g => g.2.sliceAt + g.2.slice
/-- Ticks at which a pin window ends (R166). -/
def State.pinDues (s : State) : List Nat :=
  s.pages.filterMap fun p => if field (s.pageEntry p.ctx p.obj p.page) 59 2 = 2 then some (p.granted + pinTicks) else none
/-- Ticks at which something is to be acted on before time goes on: limits, watchdogs, slices, handshakes, pin windows, gating (R286), the
hub's slots and records (R299), retrains (R305), the lifetime records (R325), and the retirement of a cluster that has become idle (R323). A
slice that ran out while its workgroup was parked is acted on as it resumes (R287). -/
def State.dues (s : State) : List Nat :=
  s.limits ++ s.pinDues ++ s.clusters.flatMap (fun e => e.2.dues.map fun t => max s.tick t) ++ s.gateDues ++ s.xrDues ++ s.retrainDues ++
  [s.lifetimeAt + lifetimeTicks] ++ s.eraseDue.map fun _ => s.tick

/-- The cycle of the array's next act, the next one where its place in this cycle has gone by. -/
def Cluster.arrayStop (x : Cluster) : List Nat :=
  match x.arrayDue with
  | none => []
  | some (c, p) =>
    if x.cyc < c then [c]
    else [if (x.queue.headD { op := .accz 0 0 }).began.isSome || decide (x.stage ≤ p) then x.cyc else x.cyc + 1]
/-- The cycle in which an ACCRD.w reads its row: one that begins with the row ready (R231). -/
def Cluster.readStop (x : Cluster) (r : Req) : Option Nat :=
  match r.op with
  | .accrd row _ _ =>
    let y := Tab.get {} x.rows row
    if y.was then some (max r.leave (if x.mayStage 40 then x.cyc else x.cyc + 1)) else if y.ready then some (max r.leave (x.cyc + 1)) else none
  | _ => none
/-- The cycle in which a wait of the stream ends: OWAIT after that of its last slot (R218), OREL once no operation reads
(R219). -/
def Cluster.streamStop (x : Cluster) (w : Wait) : Option Nat :=
  match w.why with
  | .owait v n =>
    let l := slotsOfHandle v n
    if x.allFull l then some (l.foldl (fun m i => max m ((x.op i).fullAt + 1)) 0) else none
  | .orel v n _ => if x.readsAny (slotsOfHandle v n) then none else some x.cyc
  | _ => none
/-- Cycles in which waiters of a barrier that is complete become READY (R29). -/
def Cluster.barStops (x : Cluster) : List Nat :=
  (x.wgs.flatMap fun g => g.2.bars.map fun b => b.2.doneAt + 1).filter fun n => decide (x.cyc < n)
/-- Cycles with lanes that act in them, and the cycles after them; and those of ACCRELs (R20). -/
def Cluster.laneStops (x : Cluster) : List Nat :=
  (x.acts.flatMap (fun a => [a.cyc, a.cyc + 1]) ++ x.warps.flatMap fun w => w.2.reqs.map fun r => r.leave).filter fun n =>
    decide (x.cyc < n)
/-- Cycles that begin apart from those before them. -/
def Cluster.allStops (x : Cluster) : List Nat := x.barStops ++ x.laneStops
/-- Cycles at which something in the cluster is to be acted on before time goes on; the results of a claim come within 16 cycles
(R217). -/
def Cluster.stops (x : Cluster) : List Nat :=
  x.arrayStop ++ x.claims.map (fun c => c.at_ + 16) ++ (x.warps.flatMap fun w => w.2.reqs.filterMap x.readStop) ++
  (x.warp Config.coreSlot).waits.filterMap x.streamStop
/-- Something is to be acted on in this very tick and cycle. -/
def State.dueNow (s : State) : Bool :=
  s.bindDue || (s.dues.any fun d => d == s.tick) || s.clusters.any fun e =>
    (e.2.stops.any fun n => decide (n ≤ e.2.cyc)) || e.2.warps.any fun w => s.floorDue e.1 w.1

/-- Cycles, of the `m` that pass from the one under way, in which a ready row holds back the head of the queue, which it has been since the
operation before it ended (R239). -/
def Cluster.headWaits (x : Cluster) (m : Nat) : Nat :=
  match x.queue with
  | e :: _ =>
    if e.began.isNone && x.streamSt != 2 && x.streamSt != 3 && x.meetsReady e.op then
      x.cyc + m - max x.cyc (max (e.entered + 1) (x.arrayFree - 1))
    else 0
  | [] => 0
/-- Cycles, of the `m` that pass, in which the array is at work; the one in which an operation ends counts at its end (R239). -/
def Cluster.busyCycles (x : Cluster) (m : Nat) : Nat :=
  match x.queue with
  | e :: _ => if e.began.isSome then m else 0
  | [] => 0
/-- The cycle `m` after the one under way begins, with what its rows were ready for (R231). -/
def Cluster.startCycle (x : Cluster) (m : Nat) : Cluster :=
  { x with
    cyc := x.cyc + m, phase := x.phase - m * x.cycleLen, stage := 0, orels := []
    rows := x.rows.map fun r => (r.1, { r.2 with was := r.2.ready }) }
/-- `m` cycles of a cluster pass: the lanes of the one under way have acted; in the one that begins, ACCRELs clear their rows and
waiters of a barrier leave (R20, R29, R232). -/
def State.passCycles (s0 : State) (c m : Nat) : State :=
  if m = 0 then s0
  else
    let s := s0.lanesDue c fun _ => true
    let x := s.cluster c
    let y := (((s.count c .headWaits (x.headWaits m)).count c .arrayBusy (x.busyCycles m)).countGo c m).setCluster c (x.startCycle m)
    let z := y.releaseAll c
    x.wgs.foldl (fun q g => q.barCheck c g.1) z
/-- A cluster after `k` more ticks, of its cycle under way (R5, R319, R320), with how long its warps have been ready (R36). -/
def Cluster.passed (x : Cluster) (k : Nat) : Cluster :=
  { x with
    phase := x.phase + k * x.rate
    warps := x.warps.map fun w =>
      (w.1, { w.2.startTick with waited := if x.hasReady w.1 then w.2.waited + k else 0 }) }
/-- Cycles of the cluster that begin now: those whose length has passed, up to the first in which something is to be acted on. -/
def Cluster.owed (x : Cluster) : Nat := (x.stops ++ x.allStops).foldl (fun m n => min m (n - x.cyc)) (x.phase / x.cycleLen)
def State.passOwed (s : State) : State := s.clusters.foldl (fun q e => q.passCycles e.1 (q.cluster e.1).owed) s
/-- Ticks after which a warp that has waited for `n` may have to issue (R36). -/
def Cluster.floorStop (x : Cluster) (n : Nat) : Nat :=
  if n + x.carry < floorTicks then floorTicks - x.carry - n else max 1 (floorTicks - n)
/-- The most ticks that may pass at once for the cluster. -/
def Cluster.reach (x : Cluster) (n : Nat) : Nat :=
  let m := (x.stops ++ x.allStops).foldl (fun k c => min k (x.ticks (c - x.cyc))) n
  x.warps.foldl (fun k w => if x.hasReady w.1 then min k (x.floorStop w.2.waited) else k) m
/-- TICKS PASS, `n` at most: none while something is to be acted on now, and none beyond the next point at which something will
be. Where a clock is faster than the time base, a cycle can be owed that begins before the next tick does (log 2, log 67). -/
def State.passTicks (s : State) (n : Nat) : State :=
  if s.dueNow then s
  else if s.clusters.any fun e => decide (e.2.cycleLen ≤ e.2.phase) then s.passOwed
  else
    let d := s.dues.foldl (fun k t => if s.tick < t then min k (t - s.tick) else k) n
    match s.clusters.foldl (fun k e => e.2.reach k) d with
    | 0 => s
    | k => ({ s with tick := s.tick + k, clusters := s.clusters.map fun e => (e.1, e.2.passed k) } : State).passOwed

/-! ### Issue -/

/-- What a turn of a warp comes to: a state, with nothing left to perform, or an instruction to perform. -/
inductive Prep where
  | done (s : State)
  | go (i : Instr) (s : State)

/-- The run's lane is not held: its word has stayed in issue. -/
def State.stayed (s : State) : Bool := decide ((Tab.get {} s.myCluster.lanes (laneOf s.cur.slot)).busy ≤ s.myCluster.cyc)
/-- After a repeat: its threads that still stand at the REP word, ready, go on to the next one. A repeat whose word has stayed in
issue is still to be performed. -/
def State.finishRepeat (s : State) : State :=
  match s.cur.rep with
  | none => s
  | some (i, cnt) => if s.stayed then s else
    match look s.myCluster.warps s.cur.slot with
    | none => s
    | some w =>
      match w.rep with
      | none => s
      | some r =>
        let ts := r.threads.filter fun t => (w.thread t).st == .ready && (w.thread t).pc == r.pc
        s.setMe { w with rep := if i = cnt ∨ ts = [] then none else some { r with threads := ts, next := i + 1 } }

/-- After a withdrawn request has issued again: threads that had gone on from its word stand where they stood, but for those that took a
cause; and so do all where the word has stayed in issue, to be issued once more. -/
def State.finishAgain (s : State) (r : Redo) (l : List (Nat × Thread)) : State :=
  let stays := s.stayed
  let x := s.modMe fun w =>
    let y := l.foldl (fun z p => z.modThread p.1 fun q =>
      if stays || (r.lanes && q.pc == r.pc + 8 && q.st != .fault) then
        { q with st := p.2.st, pc := p.2.pc, age := p.2.age, marked := p.2.marked, repc := p.2.repc }
      else q) w
    { y with redo := if stays then y.redo else y.redo.drop 1 }
  if stays then x else x.wake x.cur.cl x.cur.slot
def State.finishRun (s : State) : State :=
  match s.cur.again with
  | some (r, l) => s.finishAgain r l
  | none => s.finishRepeat

/-- The warp has its turn: its seat has gone, and its wait of R36 starts anew. -/
def State.tried (s : State) (c k : Nat) : State :=
  (s.modCluster c fun x =>
    { x with lanes := Tab.put x.lanes (laneOf k) { (Tab.get {} x.lanes (laneOf k)) with seat := k % 64 / 32 } }).modWarp c k
      fun w => { w with waited := 0 }
/-- A fetch finds no word: a page that is not present posts a record (R165, R290). -/
def State.fetchHeld (s : State) (c k : Nat) (pc : BitVec 40) (run : List Nat) : State :=
  let w := s.warp c k
  let g := s.wg c w.entry
  match s.place w g.ctx g.cobj pc.toNat 8 with
  | .waits cause =>
    if cause = Cause.translation then
      let p := s.portRecord c k cause g.cobj pc.toNat pc (maskOf run)
      p.2.modWarp c k fun y => { y with fetchRec := p.1 }
    else s
  | _ => s

/-- The read of a word as it is fetched: from the tier it fills its cache first (R185). -/
def State.fetched (s : State) (c k : Nat) (pc : BitVec 40) : State :=
  let g := s.wg c (s.warp c k).entry
  s.served g.ctx g.cobj pc.toNat 8
/-- The next repeat of a REP in progress: the word after it with its fields stepped (R54, R55). -/
def State.prepRepeat (s : State) (c k : Nat) (r : Rep) : Prep :=
  let w := s.warp c k
  if s.recordOpen w.fetchRec then .done s
  else
    let word := match s.fetch c w (r.pc + 8) with
      | .word n => ((Fields.ofWord n).step r.sd r.sa r.sb r.sc r.next).pack
      | _ => 0
    let x := ({ s.fetched c k (r.pc + 8) with
      cur := { cl := c, slot := k, run := r.threads, pc := r.pc, rep := some (r.next, r.cnt), word := word } } : State).modWarp c k
      fun y => { y with fetchRec := 0 }
    let off (addr : Nat) : Prep := .done (x.noWord addr).finishRun
    match s.fetch c w (r.pc + 8) with
    | .waits => .done (s.fetchHeld c k (r.pc + 8) r.threads)
    | .beyond => off (r.pc + 8).toNat
    | .word n =>
      if n / 2 ^ 62 % 2 = 1 then off 0
      else match decodeFields w.unit ((Fields.ofWord n).step r.sd r.sa r.sb r.sc r.next) with
        | .ok i => .go i x
        | .error _ => off 0

/-- A new run of the warp (R23). -/
def State.prepRun (s : State) (c k : Nat) : Prep :=
  let w := s.warp c k
  match w.choose with
  | none => .done s
  | some (pc, all, o) =>
    if s.recordOpen w.fetchRec then .done s
    else
      let at_ (n : Nat) (run : List Nat) : State :=
        ({ s.fetched c k pc with cur := { cl := c, slot := k, run := run, pc := pc, word := n } } : State).modWarp c k fun y => { y with fetchRec := 0 }
      match s.fetch c w pc with
      | .waits => .done (s.fetchHeld c k pc all)
      | .beyond => .done ((at_ 0 all).noWord pc.toNat)
      | .word n =>
        let x := at_ n (match repOf w.unit n with
          | some (_, _, _, _, cnt) => w.sameRepeat all o cnt
          | none => all)
        match decode w.unit n with
        | .ok i => .go i x
        | .error _ => .done (x.noWord 0)

/-- Registers that the word of a withdrawn request leaves pending until it is performed. -/
def redoDst : Instr → List (Opd × Nat) × Bool
  | .ldh _ _ conv d _ _ => ([(d, wideOf conv.toNat)], false)
  | .ldhWf _ _ conv d _ _ => ([(d, wideOf conv.toNat)], false)
  | .ldhWfe _ _ conv d _ _ => ([(d, wideOf conv.toNat)], false)
  | .accrdW _ d _ _ => ([(d, 1)], false)
  | .lwait _ _ d _ _ => ([(d, 2)], true)
  | .xrw _ d _ => ([(.k d, 1)], true)
  | _ => ([], false)
/-- Its pending bits are saved with it, and are those of the word as it issues again (R179). -/
def Warp.clearPend (w : Warp) (i : Instr) (ts : List Nat) : Warp :=
  let p := redoDst i
  ts.foldl (fun x t =>
    let y := p.1.foldl (fun z o => (List.range o.2).foldl (fun u j => u.unpendDst t ((w.dst o.1).plus j)) z) x
    if p.2 then y.unpendDst t .cm else y) w
/-- A withdrawn request is issued again, of the threads that still wait (R293). -/
def State.prepAgain (s : State) (c k : Nat) (r : Redo) : Prep :=
  let w := s.warp c k
  let ts := r.threads.filter fun t => if r.lanes then (w.thread t).st != .exited else (w.thread t).st == .wait
  let x := ({ s with
    cur := { cl := c, slot := k, run := ts, pc := r.pc, word := r.word, again := some (r, ts.map fun t => (t, w.thread t)) } } : State).modMe fun y =>
    ts.foldl (fun z t => z.modThread t fun q => { q with st := .ready, pc := r.pc, marked := false }) y
  if ts.isEmpty then .done (s.modWarp c k fun y => { y with redo := y.redo.drop 1 })
  else match decode w.unit r.word with
    | .ok i => .go i (x.modMe fun y => y.clearPend i ts)
    | .error _ => .done (x.noWord 0).finishRun

/-- A turn of a warp or a control-core stream. -/
def State.prepare (s : State) (c k : Nat) : Prep :=
  if s.mayIssue c k then
    let x := s.tried c k
    match (x.warp c k).rep with
    | some r => x.prepRepeat c k r
    | none =>
      match (x.warp c k).redo with
      | r :: _ => x.prepAgain c k r
      | [] => x.prepRun c k
  else .done s

/-! ### Placing an instruction where the next step fetches it (log 7) -/

def progTable : Nat := 0x10000
def progList : Nat := 0x20000
def progCode : Nat := 0x30000
/-- The memory that describes one code object, number 1, of 64 KiB, and holds the word at its offset 0. -/
def progMem (m : List Host.Cell) (w : Nat) : List Host.Cell :=
  let m1 := memPutBytes m (progTable + 32) (leBytes 8 (2 ^ 63 + 6 * 2 ^ 60 + 8 * 2 ^ 56 + 2 ^ 16))
  let m2 := memPutBytes m1 (progTable + 40) (leBytes 8 progList)
  let m3 := memPutBytes m2 (progTable + 48) (leBytes 16 0)
  let m4 := memPutBytes m3 progList (leBytes 8 (2 ^ 63 + progCode))
  memPutBytes m4 progCode (leBytes 8 (w % 2 ^ 64))

/-- The warp, or control-core stream, that will fetch the word: one thread at offset 0. -/
def progWarp (u : Core) : Warp :=
  { unit := u, alloc := 256, em := 1, threads := [(0, { st := .ready })] }
def progWg : Wg := { ctx := 1, cobj := 1, threads := 1, warps := 1, alloc := 256, ae := true, wobj := 2 }
/-- The unit that the word is an instruction of: the control core where a bench rejects it. -/
def progUnit (w : Nat) : Core :=
  match decode .bench (w % 2 ^ 64) with
  | .ok _ => .bench
  | .error _ =>
    match decode .acc (w % 2 ^ 64) with
    | .ok _ => .acc
    | .error _ => .bench
def progSlot (u : Core) : Nat := match u with
  | .bench => 0
  | .acc => Config.coreSlot
def progCluster (u : Core) : Cluster :=
  { slots := [(0, { v := true, st := 1 })], wgs := [(0, progWg)], warps := [(progSlot u, progWarp u)], ctx := 1 }

end Sys2Proof.Machine
end

