-- ==== Sys2Proof/Machine/Step.lean ====
section
/-! DEFINITION. One step: the turn that the agenda holds (log 1), an issue of one run (R23), an event or the passing of
ticks; and the placing of an instruction for the next step (log 7). -/

namespace Sys2Proof.Machine

/-- A turn taken. -/
def take (t : Turn) (s : State) : Host.Outcome State Fault Refusal :=
  match t with
  | .pass n => .next (s.passTicks n)
  | .event i => if isEvent i then exec i s else .next s
  | .issue c k =>
    match s.prepare c k with
    | .done x => .next x
    | .go i x =>
      match exec i x with
      | .next y => .next y.finishRun
      | .fault r => .fault r
      | .refused r => .refused r

/-- One step of the module. -/
def step (s : State) : Host.Outcome State Fault Refusal := take s.turn.1 s.turn.2

/-- `s` with the word stored as the next one to be fetched, and the fetching warp's turn next (log 7). -/
def State.withFetchWord (s : State) (nbits w : Nat) : State :=
  let v := w % 2 ^ nbits
  let u := progUnit v
  { s with
    boot := 8
    mem := progMem s.mem v
    clusters := [(0, progCluster u)]
    ctxs := Tab.put s.ctxs 1 { table := progTable }
    scats := []
    poison := []
    agenda := [.issue 0 (progSlot u)] }

end Sys2Proof.Machine
end

