-- ==== Sys2Proof/Safety.lean ====
section
/-! DEFINITION. What a safe run of the module is, and the terms in which claims speak of a word that issues. -/

namespace Sys2Proof.Machine

/-- The outcome is a next state that `p` holds of. -/
def NextWith (o : Host.Outcome State Fault Refusal) (p : State → Prop) : Prop := ∃ t, o = .next t ∧ p t

/-- A step from `s` is safe: it goes on, and the memory is canonical after it. -/
def SafeStep (s : State) : Prop := NextWith (step s) fun t => Memory.wf t.mem = true

/-! ### A word that nothing holds up -/

/-- Nothing in the frame of issue stops the word or a thread of its run: no decode-class cause (R57), no lane held at the
memory port (R110), no deferred cause due (R100), no guessed guard (R46). -/
structure State.Clear (s : State) (x : Shape) : Prop where
  decode : decodeCause s x = none
  port : s.me.portThreads s.cur.run x = []
  due : ∀ t ∈ s.cur.run, s.me.due x t = none
  guess : ∀ t ∈ s.cur.run, s.me.guardPlated x.h t = false

/-- The active threads of the run (R24). -/
def State.acting (s : State) (x : Shape) : List Nat := s.cur.run.filter fun t => s.me.guarded x.h.g t
/-- The run has been chosen, has stepped past the word, and holds its lane (R20, R23, R24). -/
def State.begun (s : State) (x : Shape) : State :=
  (s.issued.advance s.cur.run).holdLane ((if x.once then 1 else s.cur.run.length) * x.cost)
/-- After the word's effect, which left the state `y`, no thread has met a cause: a switch marker parks the run (R52). -/
def State.ended (s : State) (x : Shape) (y : State) : State :=
  let z := y.holdRepc []
  if x.h.sw && s.cur.last then z.mark s.cur.run else z

end Sys2Proof.Machine
end

