-- ==== Sys2Proof/Safety/Events.lean ====
section
/-! DEFINITION. Terms of the claims about events of accesses, waits, tarnish tiles, the Anvil and the fabric hub: for each,
when it happens and what holds after it. -/

namespace Sys2Proof.Machine

/-- What a claim says of an event in a state: when it happens, and what holds of the state after. -/
structure EventClaim where
  ready : Prop
  post : State → Prop

/-- After the event the state is `t`. -/
def EventClaim.gives (ready : Prop) (t : State) : EventClaim := { ready := ready, post := fun u => u = t }

/-- A destination of thread `t` holds a value that is not pending: the register with its tag and plate, or CM and CPM. -/
def Warp.shows (w : Warp) (t : Nat) (d : Dst) (v : Word) (tag : BitVec 2) (plate : Bool) : Prop :=
  match d with
  | .v n => w.getV t n = { data := v, tag := tag, plate := plate }
  | .k n => n ≠ 0 → Tab.get {} w.k n = ({ data := v, tag := tag, plate := plate } : Reg)
  | .cm => t < 32 → bitOf w.cm t = bitOf v 0 ∧ bitOf w.cpm t = plate
  | .h n => Tab.get 0 w.h n = v.setWidth 256
/-- The destination is a v or a k register. -/
def Dst.isReg : Dst → Prop
  | .v _ => True
  | .k _ => True
  | _ => False
/-- A number is in its destination: 64 bits in two registers, the low word first (R80, R97), else one word with its tag. -/
def Warp.showsNumber (w : Warp) (t : Nat) (d : Dst) (conv v : Nat) (plate : Bool) : Prop :=
  if conv = 3 then
    w.shows t d (BitVec.ofNat 32 v) 0 plate ∧ w.shows t (d.plus 1) (BitVec.ofNat 32 (v / 2 ^ 32)) 0 plate
  else w.shows t d (convLoad conv v) (convTag conv) plate
/-- Two writes have one destination: a k or an hm register has one value, a v register and CM one for each thread. -/
def LWrite.meets (x y : LWrite) : Bool := x.dst == y.dst && (match x.dst with
  | .k _ => true
  | .h _ => true
  | _ => x.t == y.t)
/-- Of several writes in order, those that stand at the end. -/
def lastWrites : List LWrite → List LWrite
  | [] => []
  | x :: r => if r.any x.meets then lastWrites r else x :: lastWrites r
/-- CM of threads is `b`. -/
def Warp.showsCm (w : Warp) (ts : List Nat) (b : Bool) : Prop := ∀ t ∈ ts, t < 32 → bitOf w.cm t = b

/-! ### Replies, and the writing of long results -/

/-- An atomic with a result, at its point of coherence (R203): the old value to D, and for `.cas` whether it met to CM. -/
def State.atomClaim (s : State) (c k id : Nat) : Option EventClaim := do
  let r ← (s.warp c k).reqOf id
  match r.op with
  | .atom fn ty x _ (some d) =>
    match s.performAt c (s.warp c k) r with
    | .ok y old =>
      some { ready := s.notYet c (s.warp c k) r true = false ∧ (s.warp c k).laneBefore r = false ∧ d.isReg ∧ (∀ t ∈ r.threads, t < 32) ∧ r.t < 32
             post := fun t => ∃ z : State, t = z.stir c k ∧ z.mem = y.mem ∧ (z.warp c k).reqOf r.id = none ∧
               (z.warp c k).showsNumber r.t d (if ty = 3 then 3 else if ty = 2 then 1 else 0) old r.taint ∧
               (fn = 7 → (z.warp c k).showsCm r.threads (decide (old = x.toNat))) }
    | _ => none
  | _ => none
/-- What is marked of an access that waits at the port for `cause`: it waits, and the record of its page that is posted where the page is
not present (R165, R290). -/
def State.portRec (s : State) (c k : Nat) (cause : Byte) : Nat :=
  if cause = Cause.translation then s.nextRecord (s.wg c (s.warp c k).entry).ctx (dieOf c) else 0
/-- Memory as the record that the wait for `cause` posts leaves it. -/
def State.portMem (s : State) (c k : Nat) (cause : Byte) (obj off : Nat) (pc : BitVec 40) (ts : List Nat) : List Host.Cell :=
  if cause = Cause.translation then (s.portRecord c k cause obj off pc (maskOf ts)).2.mem else s.mem
/-- An access of a request has its turn (R20, R122, R190, R203), and no fault of the memory port holds it. -/
def State.canGo (s : State) (c k : Nat) (r : Req) : Prop :=
  (s.cluster c).cyc ≥ r.leave ∧ (s.warp c k).blocked r.id r.threads r.obj r.off r.size r.strong.isSome = false ∧
    (s.warp c k).laneBefore r = false ∧ s.recordOpen r.recAt = false
/-- A store or a RED at the port: it is performed where it can be, it waits where its place cannot be had, and it keeps a cause that it
meets (R100, R165). -/
def State.goClaim (s : State) (c k : Nat) (r : Req) : EventClaim :=
  { ready := c < 128 ∧ (s.warp c k).loadOf r.id = none ∧ s.canGo c k r
    post := fun t => match s.performAt c (s.warp c k) r with
      | .ok x _ => ∃ y : State, t = y.stir c k ∧ y.mem = x.mem ∧ (y.cluster c).l1 = (x.cluster c).l1 ∧
          (y.cluster c).stash = (x.cluster c).stash ∧ (y.warp c k).reqOf r.id = none
      | .waits cause => ∃ y : State, t = y.wake c k ∧ y.mem = s.portMem c k cause r.obj r.off r.pc r.threads ∧
          ∀ x ∈ (y.warp c k).reqs, x.id = r.id → x.posted = true ∧ x.recAt = s.portRec c k cause
      | .fails cause => t.mem = s.mem ∧ ∀ x ∈ (t.warp c k).reqs, x.id = r.id → x.op = .failed cause }
/-- A request other than a load, or a wait, at the port (R165). -/
def State.portClaim (s : State) (c k id : Nat) : Option EventClaim :=
  match (s.warp c k).reqOf id with
  | some r =>
    match r.op with
    | .store _ => some (s.goClaim c k r)
    | .atom _ _ _ _ none => some (s.goClaim c k r)
    | _ =>
      match s.portCause c { (s.warp c k) with under := r.old } r.obj r.off r.size with
      | .waits cause =>
        some { ready := c < 128 ∧ (s.warp c k).loadOf id = none ∧ (s.cluster c).cyc ≥ r.leave ∧ s.recordOpen r.recAt = false ∧
                 r.open_ = true
               post := fun t => ∃ y : State, t = y.wake c k ∧ y.mem = s.portMem c k cause r.obj r.off r.pc r.threads ∧
                 ∀ x ∈ (y.warp c k).reqs, x.id = r.id → x.posted = true ∧ x.recAt = s.portRec c k cause }
      | _ => none
  | none => do
    let x ← (s.warp c k).waits.find? fun x => x.id == id
    let p ← s.waitPlace c k x
    match s.portCause c ((s.warp c k).underWait id) p.1 p.2 4 with
    | .waits cause =>
      some { ready := c < 128 ∧ (s.warp c k).loadOf id = none ∧ s.recordOpen x.recAt = false
             post := fun t => t.mem = s.portMem c k cause p.1 p.2 x.pc x.threads ∧
               ∀ z ∈ (t.warp c k).waits, z.id = id → z.posted = true ∧ z.recAt = s.portRec c k cause }
    | _ => none
/-- Events that end an access. -/
def replyClaim (s : State) : Instr → Option EventClaim
  | .longResultWrite c k id =>
    match (s.warp c k).longs.find? fun l => l.id == id with
    | none => s.atomClaim c k id
    | some l =>
    some { ready := l.remote = false ∨ (s.cluster c).crossing = false
           post := fun t => ∃ y : State, t = y.stir c k ∧ y.mem = s.mem ∧ (y.warp c k).sr = (s.warp c k).sr ||| l.flags ∧
             (∀ m ∈ (y.warp c k).longs, m.id ≠ l.id) ∧
             ((∀ x ∈ l.writes, x.t < 32) → ∀ x ∈ lastWrites l.writes, (y.warp c k).shows x.t x.dst x.val x.tag x.plate) }
  | .loadReply c k id via => do
    let l ← (s.warp c k).loadOf id
    let g ← s.readLoad c (s.warp c k) l (some via)
    match g with
    | .ok x v =>
      some { ready := l.ticket = none ∧ l.fixed = none ∧ l.leave ≤ (s.cluster c).cyc ∧ s.recordOpen l.recAt = false ∧
               (s.warp c k).blocked l.id l.threads l.obj l.off l.size l.strong.isSome = false ∧ l.t < 32
             post := fun t => ∃ y : State, t = y.stir c k ∧ y.mem = x.mem ∧
               (y.warp c k).showsNumber l.t l.dst l.conv v l.taint }
    | _ => none
  | .limitExpiry c k id => do
    let l ← (s.warp c k).loadOf id
    let i ← (s.warp c k).ticketFor l.k l.reg
    some { ready := l.settled = false ∧ l.limit ≠ 0 ∧ l.t0 + l.limit ≤ s.tick
           post := fun t => ∃ y : State, t = y.stir c k ∧ y.mem = s.mem ∧
             (y.warp c k).shows l.t l.dst (s.guessOf c (s.warp c k) l) (convTag l.conv) true ∧
             (Tab.get {} (y.warp c k).tickets i).valid = true ∧
             (l.k = false → l.t < 32 → bitOf (Tab.get {} (y.warp c k).tickets i).lanes l.t = true) }
  | .storeMemoryCause c k id => do
    let r ← (s.warp c k).reqOf id
    match r.op with
    | .failed cause =>
      some { ready := k < trackSlot ∧ ∃ t ∈ r.threads, ((s.warp c k).thread t).st ≠ .exited
             post := fun t => ∃ y : State, t = y.stir c k ∧ (y.warp c k).reqOf id = none ∧
               ∀ u ∈ r.threads, ((s.warp c k).thread u).st ≠ .exited →
                 ({ cause := cause, addr := objAddr r.obj r.off } : Deferred) ∈ ((y.warp c k).thread u).deferred }
    | _ => none
  | .ldhWake c k id => do
    let r ← (s.warp c k).reqOf id
    match r.op, s.stashRead c (s.warp c k) r.off r.size with
    | .ldh conv d q, .ok x v =>
      let g := (s.wg c (s.warp c k).entry).granule r.off
      some { ready := s.notYet c (s.warp c k) r false = false ∧ (s.warp c k).granuleBusy r = false ∧ (q = 0 ∨ (s.cluster c).isFull g = true) ∧ d.isReg ∧ r.t < 32
             post := fun t => ∃ y : State, t = y.stir c k ∧ y.mem = x.mem ∧
               (y.warp c k).showsNumber r.t d conv v r.taint ∧
               (y.cluster c).full = if q = 2 then (x.cluster c).full.filter (fun j => j != g) else (x.cluster c).full }
    | _, _ => none
  | .sthWake c k id => do
    let r ← (s.warp c k).reqOf id
    match r.op with
    | .sth bytes q =>
      let w := s.warp c k
      let g := (s.wg c w.entry).granule r.off
      match s.stashWrite c w r.off r.size (leNat bytes) (some (w.writer r.t)) with
      | .ok x _ =>
        some { ready := s.notYet c w r false = false ∧ w.granuleBusy r = false ∧ (q = 2 → (s.cluster c).isFull g = false)
               post := fun t => ∃ y : State, t = y.stir c k ∧ y.mem = x.mem ∧ (y.cluster c).stash = (x.cluster c).stash ∧
                 (y.warp c k).reqOf r.id = none ∧
                 (y.cluster c).full = if q = 0 then (x.cluster c).full else insertNat g (x.cluster c).full }
      | _ => none
    | _ => none
  | .gathElementReply c k id elem => do
    let r ← (s.warp c k).reqOf id
    match r.op with
    | .gath dest e mute =>
      let w := s.warp c k
      let ctx := (s.wg c w.entry).ctx
      match s.weakSlice c { w with under := r.old } ctx r.obj r.off r.size with
      | .ok z (a, seen) =>
        match z.stashWrite c w dest r.size (seen.homeNat ctx r.obj r.off r.size a) (some (w.writer r.t)) with
        | .ok x _ =>
          some { ready := e = elem ∧ r.lost = false ∧ w.blocked r.id r.threads r.obj r.off r.size false = false ∧
                   s.recordOpen r.recAt = false
                 post := fun t => ∃ y : State, t = y.stir c k ∧ y.mem = x.mem ∧ (y.cluster c).stash = (x.cluster c).stash ∧
                   (y.warp c k).reqOf id = none ∧
                   (y.cluster c).full = if mute = false ∧ w.granuleMates r dest = [] then
                       insertNat ((s.wg c w.entry).granule dest) (x.cluster c).full else (x.cluster c).full }
        | _ => none
      | _ => none
    | _ => none
  | .scatUpdateAtSlice c k id elem => do
    let r ← (s.warp c k).reqOf id
    match r.op with
    | .scat fn y e =>
      let w := s.warp c k
      let ctx := (s.wg c w.entry).ctx
      let others : Warp := { w with reqs := w.reqs.filter fun q => q.group != r.group }
      match (s.telling ctx r.obj r.off 4).slice c { w with under := r.old, wants := r.right } ctx r.obj r.off 4 true with
      | .ok _ _ =>
        some { ready := e = elem ∧ r.lost = false ∧ others.blocked r.id r.threads r.obj r.off r.size false = false ∧
                 s.recordOpen r.recAt = false
               post := fun t => ∃ z : State, t = z.stir c k ∧ (z.warp c k).reqOf id = none ∧
                 z.ups ctx r.obj (r.off / 4) = s.ups ctx r.obj (r.off / 4) ++ [(fn, y)] }
      | _ => none
    | _ => none
  | .memoryPortTranslate c k id =>
    match (s.warp c k).loadOf id with
    | none => s.portClaim c k id
    | some l =>
      let free := c < 128 ∧ l.fixed = none ∧ l.leave ≤ (s.cluster c).cyc ∧ s.recordOpen l.recAt = false
      match s.portCause c { (s.warp c k) with under := l.old } l.obj l.off l.size with
      | .found _ =>
        let d := s.desc (s.wg c (s.warp c k).entry).ctx l.obj
        some { ready := free ∧ l.obj ≠ stashObj
               post := fun t => ∃ y : State, t = y.fixLoad c k l ∧ d.xlist + 8 * (l.off / pageSize d.pg) ∈ y.tlb ∧
                 ({ y with tlb := s.tlb } : State) = s }
      | .waits cause =>
        some { ready := free
               post := fun t => ∃ y : State, t = y.wake c k ∧ y.mem = s.portMem c k cause l.obj l.off l.pc l.threads ∧
                 ∀ x ∈ (y.warp c k).loads, x.id = l.id → x.posted = true ∧ x.recAt = s.portRec c k cause }
      | .fails _ => none
  | .registerWrite c k i v => do
    let e ← (s.warp c k).winQ.head?
    some { ready := e = (i, v)
           post := fun t => (t.warp c k).cw = Tab.put (s.warp c k).cw i v ∧ (t.warp c k).winQ = (s.warp c k).winQ.tail ∧
             t.mem = s.mem }
  | .cwgo c k run => do
    let x ← (s.warp c k).waits.find? fun x => x.threads == run && (match x.why with
      | .cwgo _ _ => true
      | _ => false)
    match x.why with
    | .cwgo m rel =>
      match s.go c k m rel with
      | .sent y =>
        some (.gives True (y.endWait c k x))
      | _ => none
    | _ => none
  | _ => none

/-! ### Waits -/

/-- Events that end a wait, by success or because its time has passed. -/
def waitClaim (s : State) : Instr → Option EventClaim
  | .waitwWake c k id => do
    let x ← (s.warp c k).waitOf id
    match x.why with
    | .waitw cond sc _ obj off n d =>
      match s.look4 c k x.id x.threads obj off sc with
      | .value y v =>
        some { ready := condHolds cond v n = true ∧ d.isReg
               post := fun t => ∃ z : State, t = z.endWait c k x ∧ (z.warp c k).showsCm x.threads true ∧
                 (z.warp c k).shows (x.threads.headD 0) d v 0 ((y.warp c k).anyTaint x.threads) }
      | _ => none
    | _ => none
  | .waitwTimeout c k id => do
    let x ← (s.warp c k).waitOf id
    match x.why with
    | .waitw cond sc tmo obj off n d =>
      match s.look4 c k x.id x.threads obj off sc with
      | .value y v =>
        some { ready := condHolds cond v n = false ∧ tmo ≠ 0 ∧ x.t0 + 2 ^ (tmo + 2) ≤ s.tick ∧ d.isReg
               post := fun t => ∃ z : State, t = z.endWait c k x ∧ (z.warp c k).showsCm x.threads false ∧
                 (z.warp c k).shows (x.threads.headD 0) d v 0 ((y.warp c k).anyTaint x.threads) }
      | _ => none
    | _ => none
  | .acqWake c k id => do
    let x ← (s.warp c k).waitOf id
    match x.why with
    | .acq sc _ obj off n =>
      match s.look4 c k x.id x.threads obj off sc with
      | .value y v =>
        match y.waitRead c k id obj (off + 4) sc with
        | .ok q g =>
          let ctx := (q.wg c (s.warp c k).entry).ctx
          some { ready := reached v n = true
                 post := fun t => ∃ z : State, t = z.endWait c k x ∧ (z.warp c k).showsCm x.threads true ∧
                   (nearScope sc = false → ∀ e ∈ (z.cluster c).l1, e.2.own = true ∨ keyCtx e.1 ≠ ctx ∨
                     (g % 2 = 0 ∧ inRegions (q.regions ctx obj off) (keyObj e.1) (keyWord e.1) = false)) }
        | _ => none
      | _ => none
    | _ => none
  | .acqTimeout c k id => do
    let x ← (s.warp c k).waitOf id
    match x.why with
    | .acq sc tmo obj off n =>
      match s.look4 c k x.id x.threads obj off sc with
      | .value _ v =>
        some { ready := reached v n = false ∧ tmo ≠ 0 ∧ x.t0 + 2 ^ (tmo + 2) ≤ s.tick
               post := fun t => ∃ z : State, t = z.endWait c k x ∧ (z.warp c k).showsCm x.threads false }
      | _ => none
    | _ => none
  | .relComplete c k id => do
    let x ← (s.warp c k).waitOf id
    match x.why with
    | .rel sc obj off =>
      let w := s.warp c k
      match s.waitRead c k x.id obj (off + 4) sc with
      | .ok y g =>
        let rs := y.regions (y.wg c w.entry).ctx obj off
        match y.releaseBy c k x.id x.threads sc fun o i => g % 2 == 1 || inRegions rs o i with
        | .sent z =>
          match z.strongStep c { (w.underWait x.id) with wants := 2 } obj off 4 sc true fun v => some ((v + 1) % 2 ^ 32) with
          | .ok q _ => some (.gives (s.strongTurn c k x.id x.threads obj off = true ∧ (s.warp c k).tarnOpen x.threads = false) (q.endWait c k x))
          | _ => none
        | _ => none
      | _ => none
    | _ => none
  | .fenceComplete c k id => do
    let x ← (s.warp c k).waitOf id
    match x.why with
    | .fence sc =>
      let w := s.warp c k
      let free := w.storesOpen x.threads (fun _ => true) = false ∧ w.tarnOpen x.threads = false
      if nearScope sc then some (.gives free (s.endWait c k x))
      else match s.flush c w fun _ _ _ e => e.byAny (w.writers x.threads) with
        | (.ok y _, _) =>
          some { ready := free
                 post := fun t => ∃ z : State, t = z.endWait c k x ∧ z.mem = y.mem ∧ (z.cluster c).l1 = (y.cluster c).l1 }
        | _ => none
    | _ => none
  | .publComplete c k id => do
    let x ← (s.warp c k).waitOf id
    match x.why with
    | .publ obj =>
      let ctx := (s.wg c (s.warp c k).entry).ctx
      let q ← s.shadowOf ctx obj
      let y ← s.publish ctx obj
      let n ← y.countUp ctx q.seqObj (q.seqOff + 8) 1
      some { ready := q.deferred = true ∧ q.filled = true ∧ s.snoopWaits Config.clusters ctx q.seqObj (q.seqOff + 8) 4 = false ∧
               ∀ cause, s.translate ctx q.seqObj (q.seqOff + 8) ≠ .waits cause
             post := fun t => ∃ z : State, t = z.endWait c k x ∧ z.mem = n.mem ∧ z.shadows = n.shadows ∧
               (z.warp c k).showsCm x.threads true }
    | _ => none
  | .lwaitWake c k id => do
    let x ← (s.warp c k).waitOf id
    match x.why with
    | .lwait _ m l d =>
      let ctx := (s.wg c (s.warp c k).entry).ctx
      let taint := (s.warp c k).anyTaint x.threads
      some { ready := (s.cluster c).crossing = false ∧ s.strongTurn c k x.id x.threads 0 0 = true ∧ s.layerFail ctx m l = false ∧
               s.layerState ctx m l = 2 ∧ d.isReg
             post := fun t => ∃ z : State, t = (z.endWait c k x).dropAsks ∧ (z.warp c k).showsCm x.threads true ∧
               (z.warp c k).shows (x.threads.headD 0) d 0 0 taint ∧
               (z.warp c k).shows (x.threads.headD 0) (d.plus 1) (BitVec.ofNat 32 (s.layerObj ctx m l * 256 + 128)) 0 taint ∧
               (ctx, m, z.modelSign ctx m) ∈ z.cursors ∧ field (z.modelDw ctx m 0) 20 10 = l % 1024 ∧
               ((s.warp c k).isLive m l = false → ({ model := m, layer := l, live := true } : Hold) ∈ (z.warp c k).holds) }
    | _ => none
  | .lwaitTimeout c k id => do
    let x ← (s.warp c k).waitOf id
    match x.why with
    | .lwait tmo m l _ =>
      let ctx := (s.wg c (s.warp c k).entry).ctx
      some { ready := (s.cluster c).crossing = false ∧ s.strongTurn c k x.id x.threads 0 0 = true ∧ s.layerFail ctx m l = false ∧
               s.layerState ctx m l ≠ 2 ∧ tmo ≠ 0 ∧ x.t0 + 2 ^ (tmo + 2) ≤ s.tick
             post := fun t => ∃ z : State, t = (z.endWait c k x).dropAsks ∧ z.mem = s.mem ∧
               (z.warp c k).showsCm x.threads false }
    | _ => none
  | .xrwWake c k id => do
    let x ← (s.warp c k).waitOf id
    match x.why with
    | .xrw j d =>
      let v ← s.xrReady j
      let taint := (s.warp c k).anyTaint x.threads
      some { ready := x.lost = false ∧ (s.cluster c).crossing = false ∧ s.snoopWaits c j.ctx j.obj j.off 8 = false ∧ d.isReg
             post := fun t => ∃ z : State, t = z.endWait c k x ∧ z.mem = s.mem ∧ (z.warp c k).showsCm x.threads (v &&& 7 == 1) ∧
               (∀ u ∈ x.threads, u < 32 → bitOf (z.warp c k).cpm u = taint) ∧
               (z.warp c k).shows (x.threads.headD 0) d v 0 taint }
    | _ => none
  | .owaitWake c id => do
    let x ← (s.warp c Config.coreSlot).waitOf id
    match x.why with
    | .owait v n => some (.gives (∀ i ∈ slotsOfHandle v n, ((s.cluster c).op i).st = .full ∧ ((s.cluster c).op i).fullAt < (s.cluster c).cyc)
        (s.endWait c Config.coreSlot x))
    | _ => none
  | .orelAct c id => do
    let x ← (s.warp c Config.coreSlot).waitOf id
    match x.why with
    | .orel v n re =>
      some (.gives ((s.cluster c).readsAny (slotsOfHandle v n) = false)
        (((s.fillsNow c).modCluster c fun y => y.leaveSlots (slotsOfHandle v n) re).endWait c Config.coreSlot x))
    | _ => none
  | .oclmResult c id => do
    let q ← (s.cluster c).claims.find? fun q => q.id == id
    let _ ← look (s.cluster c).warps Config.coreSlot
    some { ready := q.dst ≠ 0
           post := fun t => ∃ y : State, t = y.stir c Config.coreSlot ∧ (∀ p ∈ (y.cluster c).claims, p.id ≠ id) ∧ y.mem = s.mem ∧
             (Tab.get {} (y.warp c Config.coreSlot).k q.dst).data = q.handle ∧
             (Tab.get {} (y.warp c Config.coreSlot).k q.dst).pend = false ∧
             bitOf (y.warp c Config.coreSlot).cm 0 = (q.handle != 0) }
  | .accrdWWake c k id => do
    let r ← (s.warp c k).reqOf id
    match r.op with
    | .accrd row col d =>
      let x := s.lanesTo c 40
      let v := (x.cluster c).accWord row col
      some { ready := (Tab.get {} (s.cluster c).rows row).was = true ∧ (s.cluster c).mayStage 40 = true ∧
               r.leave ≤ (s.cluster c).cyc ∧ (∀ q ∈ (s.warp c k).reqs, q.op = .accrel row → r.readsAfter q row = false) ∧ d.isReg
             post := fun t => ∃ y : State, t = (y.release c k).stir c k ∧ y.mem = x.mem ∧
               (y.warp c k).shows r.t d v.data (if v.int then 0 else 1) r.taint }
    | _ => none
  | _ => none

/-! ### Tarnish tiles and the Anvil -/

/-- Events of a cluster's arrays. -/
def arrayClaim (s : State) : Instr → Option EventClaim
  | .tarnishExpiry c i =>
    let x := (s.cluster c).tile i
    some { ready := x.v = true ∧ x.b.toNat + 120000 ≤ s.tick
           post := fun t => (t.cluster c).tile i = {} ∧ t.mem = s.mem ∧
             ∀ j, j ≠ i → (t.cluster c).tile j = (s.cluster c).tile j }
  | .tarnishTileMap ctx obj i clu tile =>
    let d := s.desc ctx obj
    let c := (d.plc - 1) * 64 + clu
    some { ready := d.kind = 1 ∧ d.valid = true ∧ 4096 * i < d.len ∧ clu < 64 ∧ tile < 1024
           post := fun t => (t.cluster c).tile tile = {} ∧
             t.mem = (s.setPd (d.xlist + 8 * i) 0 (BitVec.ofNat 64 (2 ^ 63 + clu * 2 ^ 16 + tile))).mem }
  | .anvilOpBegin c =>
    match (s.cluster c).queue with
    | [] => none
    | e :: r =>
      let x := s.cluster c
      some { ready := e.began = none ∧ x.streamSt ≠ 2 ∧ x.streamSt ≠ 3 ∧ e.entered < x.cyc ∧ x.arrayFree ≤ x.cyc ∧
               x.meetsReady e.op = false ∧ x.mayStage (if e.op.isSig then 4 else 41) = true
             post := fun t => t.mem = (s.lanesTo c (if e.op.isSig then 4 else 41)).mem ∧
               ∃ f, f.op = e.op ∧ f.began = some x.cyc ∧ (t.cluster c).queue = f :: r }
  | .anvilOpCommit c =>
    match (s.cluster c).queue with
    | [] => none
    | e :: r => do
      let b ← e.began
      some { ready := e.left = false ∧ e.nextCommit b ≤ (s.cluster c).cyc
             post := fun t => t = (s.lanesTo c (if e.op.isSig then 4 else 1)).anvilEnd c e.op ∧
               (∀ a z, e.op = .accsig a z → (t.cluster c).queue = r ∧
                 ∀ i, (Tab.get {} (t.cluster c).rows i).ready =
                   (decide (a ≤ i ∧ i < z) || (Tab.get {} (s.cluster c).rows i).ready)) ∧
               (∀ a z, e.op = .accz a z → (t.cluster c).queue = r ∧
                 ∀ i j, a ≤ i → i < z → j < 128 → (t.cluster c).accWord i j = {}) }
  | .mmahTileCommit c =>
    match (s.cluster c).queue with
    | [] => none
    | e :: r => do
      let b ← e.began
      let y := s.lanesTo c 1
      let p := y.anvilView c
      let z := (y.cluster c).mmahTile p.1 e.op e.tiles
      some { ready := e.left = true ∧ e.nextCommit b ≤ (s.cluster c).cyc
             post := fun t => t.mem = y.mem ∧ (t.cluster c).rows = z.1.rows ∧
               ∃ f, f.op = e.op ∧ f.tiles = z.2 ∧ (t.cluster c).queue = f :: r }
  | _ => none

/-! ### The fabric hub -/

/-- A slot as a message finds it: one whose time has passed is DONE from that tick on (R299), and one that has stayed DONE too long is
FREE (R307). -/
def XrSlot.asOf (x : XrSlot) (tick : Nat) : XrSlot :=
  let y : XrSlot := if x.st = .open_ ∧ x.tmo ≠ 0 ∧ x.t0 + 2 ^ (x.tmo + 2) ≤ tick then
    { x with st := .done, timeout := true, doneAt := x.t0 + 2 ^ (x.tmo + 2) } else x
  if y.st = .done ∧ y.doneAt + 3000000 ≤ tick then {} else y
/-- The slot that a message names, as it finds it. -/
def State.slotFor (s : State) (m : XrMsg) : XrSlot := (s.xrSlot (handleXr m.handle)).asOf s.tick
/-- The code that answers an XRA (R297). -/
def xraCode (x : XrSlot) (m : XrMsg) (op n tmo : Nat) (mask : Dword) : Nat :=
  if hasBit mask m.dev = false then 4
  else if x.st = .free then 0
  else if x.handle ≠ m.handle then 3
  else if x.op ≠ op ∨ x.n ≠ n ∨ x.tmo ≠ tmo ∨ x.mask ≠ mask ∨ hasBit x.joined m.dev = true then 4
  else if x.st = .open_ then 1
  else 2
/-- The slot after an XRA (R297, R299). -/
def xraSlot (x : XrSlot) (m : XrMsg) (op n tmo : Nat) (mask : Dword) (tick : Nat) : XrSlot :=
  match xraCode x m op n tmo mask with
  | 0 => { st := .open_, handle := m.handle, op := op, n := n, tmo := tmo, mask := mask, t0 := tick, joined := devBit m.dev }
  | 1 => { x with joined := x.joined ||| devBit m.dev }
  | 2 => { x with joined := x.joined ||| devBit m.dev, late := x.late ||| devBit m.dev, lateAt := Tab.put x.lateAt m.dev tick }
  | _ => x
/-- A contribution counts (R298). -/
def xrcCounts (x : XrSlot) (m : XrMsg) : Bool := x.st == .open_ && x.handle == m.handle && !hasBit x.contributed m.dev
/-- The slot after an XRC (R298, R299). -/
def xrcSlot (x : XrSlot) (m : XrMsg) (data : List Word) (tick : Nat) : XrSlot :=
  let y : XrSlot := { x with contributed := x.contributed ||| devBit m.dev, data := x.data ++ [data] }
  if xrcCounts x m then (if x.mask &&& ~~~y.contributed = 0 then { y with st := .done, timeout := false, doneAt := tick } else y) else x
/-- The slot after an XRF (R300). -/
def xrfSlot (x : XrSlot) (m : XrMsg) : XrSlot :=
  if x.st ≠ .free ∧ x.handle = m.handle then
    (if x.mask &&& ~~~(x.freed ||| devBit m.dev) = 0 then {} else { x with freed := x.freed ||| devBit m.dev })
  else x
/-- The hub's slot that a message names has become `x`, and the hub has changed nothing else of State that is not a counter. -/
def State.hubGives (s t : State) (m : XrMsg) (x : XrSlot) : Prop :=
  t.xrSlot (handleXr m.handle) = x ∧ t.mem = s.mem ∧ ∀ i, i ≠ handleXr m.handle → t.xrSlot i = s.xrSlot i
/-- A message of this module has been answered: its request has become the long result of D and CM (R50, R297), and it is on its way no
more. -/
def State.xrGot (t : State) (c k no : Nat) (r : Req) (d : Option Dst) (v : Word) (cm : Bool) : Prop :=
  (∀ f ∈ t.xrFlights, f.1 ≠ no) ∧ ∃ l ∈ (t.warp c k).longs, l.id = r.id ∧
    l.writes = (d.map fun e => ({ t := r.t, dst := e, val := v, plate := r.taint } : LWrite)).toList ++
      r.threads.map fun u => { t := u, dst := .cm, val := if cm then 1 else 0, plate := if d.isSome then r.taint else bitOf r.tts u }

/-- Events of the reductions of the fabric (R297 to R300, R307). -/
def hubClaim (s : State) : Instr → Option EventClaim
  | .xraAtHub src =>
    match src with
    | .peer m =>
      match m.body with
      | .xra op n tmo mask =>
        some { ready := s.peerAt m = true
               post := fun t => s.hubGives t m (xraSlot (s.slotFor m) m op n tmo mask s.tick) ∧ t.clusters = s.clusters }
      | _ => none
    | .own no answer => do
      let p ← s.ownAt no
      match p.2.2.op with
      | .xr _ m cap d =>
        match m.body with
        | .xra op n tmo mask =>
          let own := handleHub m.handle = s.dev
          let x := s.slotFor m
          let code := if own then xraCode x m op n tmo mask else if hasBit mask s.dev then answer else 4
          let ctx := (s.wg p.1 (s.warp p.1 p.2.1).entry).ctx
          let j : XrJoin := { handle := m.handle, ctx := ctx, obj := capObj cap, off := capOff cap, n := n, op := op }
          some { ready := (own ∨ answer ≤ 4) ∧ (s.warp p.1 p.2.1).retiring = false ∧ p.2.1 < trackSlot
                 post := fun t => (own → s.hubGives t m (xraSlot x m op n tmo mask s.tick)) ∧
                   t.xrGot p.1 p.2.1 no p.2.2 d (BitVec.ofNat 32 code) (decide (code ≤ 2)) ∧ (code ≤ 2 → j ∈ t.xrJoins) ∧
                   (2 < code → t.xrJoins = s.xrJoins) }
        | _ => none
      | _ => none
  | .xrcAtHub src =>
    match src with
    | .peer m =>
      match m.body with
      | .xrc data =>
        some { ready := s.peerAt m = true
               post := fun t => s.hubGives t m (xrcSlot (s.slotFor m) m data s.tick) ∧ t.clusters = s.clusters }
      | _ => none
    | .own no answer => do
      let p ← s.ownAt no
      match p.2.2.op with
      | .xr _ m _ d =>
        match m.body with
        | .xrc data =>
          let own := handleHub m.handle = s.dev
          let x := s.slotFor m
          some { ready := (s.warp p.1 p.2.1).retiring = false ∧ p.2.1 < trackSlot
                 post := fun t => (own → s.hubGives t m (xrcSlot x m data s.tick)) ∧
                   t.xrGot p.1 p.2.1 no p.2.2 d 0 (if own then xrcCounts x m else decide (answer = 1)) }
        | _ => none
      | _ => none
  | .xrfAtHub src =>
    match src with
    | .peer m =>
      match m.body with
      | .xrf =>
        some { ready := s.peerAt m = true
               post := fun t => s.hubGives t m (xrfSlot (s.slotFor m) m) ∧ t.clusters = s.clusters }
      | _ => none
    | .own no _ => do
      let p ← s.ownAt no
      match p.2.2.op with
      | .xr _ m _ d =>
        match m.body with
        | .xrf =>
          let own := handleHub m.handle = s.dev
          some { ready := (s.warp p.1 p.2.1).retiring = false ∧ p.2.1 < trackSlot
                 post := fun t => (own → s.hubGives t m (xrfSlot (s.slotFor m) m)) ∧ t.xrGot p.1 p.2.1 no p.2.2 d 0 true ∧
                   (∀ j ∈ t.xrFreed, j.handle ≠ m.handle) ∧ t.xrJoins = s.xrJoins }
        | _ => none
      | _ => none
  | .xrSlotTimeout i =>
    let x := s.xrSlot i
    some { ready := x.st = .open_ ∧ x.tmo ≠ 0 ∧ x.t0 + 2 ^ (x.tmo + 2) ≤ s.tick
           post := fun t => t.mem = s.mem ∧
             t.xrSlot i = { x with st := .done, timeout := true, doneAt := x.t0 + 2 ^ (x.tmo + 2) } }
  | .xrRecordWrite handle dev w0 missing elems =>
    let i := handleXr handle
    let x := s.xrSlot i
    if handleHub handle = s.dev ∧ dev = s.dev then do
      let j ← s.joinOf handle
      let y ← (s.setXr i { x with recorded := x.recorded ||| devBit dev }).putRecord j
        (BitVec.ofNat 32 (1 + 2 * x.timeout.toNat + 4 * x.nanSeen.toNat + 8 * (hasBit x.late dev).toNat)) x.missing
        (x.elems.map fun p => p.1)
      some (.gives (s.health ≠ 2 ∧ x.st = .done ∧ x.handle = handle ∧ hasBit x.joined dev = true ∧ hasBit x.freed dev = false ∧
        hasBit x.recorded dev = false) y)
    else if handleHub handle = s.dev then
      some (.gives (s.health ≠ 2 ∧ x.st = .done ∧ x.handle = handle ∧ hasBit x.joined dev = true ∧ hasBit x.freed dev = false ∧
        hasBit x.recorded dev = false ∧ s.reach dev = .open_) (s.setXr i { x with recorded := x.recorded ||| devBit dev }))
    else if handleHub handle ≠ s.dev ∧ dev = s.dev then do
      let j ← s.joinOf handle
      let y ← s.putRecord j w0 missing elems
      some (.gives (s.health ≠ 2 ∧ elems.length = j.n ∧ w0.getLsbD 0 = true ∧ w0.toNat < 16 ∧ s.hubReach handle = .open_) y)
    else none
  | .xrSlotReclaim i =>
    let x := s.xrSlot i
    some { ready := x.st = .done ∧ x.doneAt + 3000000 ≤ s.tick
           post := fun t => t.mem = s.mem ∧ t.xrSlot i = {} ∧ ∀ j, j ≠ i → t.xrSlot j = s.xrSlot j }
  | _ => none

end Sys2Proof.Machine
end

