-- ==== Sys2Proof/Safety/Words.lean ====
section
/-! DEFINITION. Terms of the claims about register words: for each, its frame, its sources and the effect of one lane, the
integer results written anew from R70 to R79 in whole numbers and bits. -/

namespace Sys2Proof.Machine

/-- What a claim says of a word: its frame, the lane-class cause of a lane `t` that acts for threads `ts` (R57), and the
effect of a lane without one. -/
structure WordClaim where
  x : Shape
  cause : State → Nat → List Nat → Option (Byte × Dword)
  eff : State → Nat → List Nat → State

/-- Lane by lane in ascending order, or once for the run (R20, R25). -/
def WordClaim.perform (q : WordClaim) (s : State) (ts : List Nat) : State :=
  if q.x.once then
    match ts with
    | [] => s
    | t :: r => q.eff s t (t :: r)
  else ts.foldl (fun y t => q.eff y t [t]) s
/-- No lane meets a cause at its turn. -/
def WordClaim.pass (q : WordClaim) : State → List Nat → Bool
  | _, [] => true
  | s, t :: r => (q.cause s t [t]).isNone && q.pass (q.eff s t [t]) r
/-- No lane meets a cause, or the one performance for the run meets none. -/
def WordClaim.passes (q : WordClaim) (s : State) (ts : List Nat) : Bool :=
  if q.x.once then
    match ts with
    | [] => true
    | t :: r => (q.cause s t (t :: r)).isNone
  else q.pass s ts
/-- The word completes: nothing in the frame holds it up, and its lanes meet no cause. -/
def WordClaim.Runs (q : WordClaim) (s : State) : Prop := s.Clear q.x ∧ q.passes (s.begun q.x) (s.acting q.x) = true
/-- The state after it. -/
def WordClaim.after (q : WordClaim) (s : State) : State := s.ended q.x (q.perform (s.begun q.x) (s.acting q.x))
/-- What a claim says of a word that acts once on the threads of its run together: when they meet no cause, and the
effect on the active ones. -/
structure RunClaim where
  x : Shape
  ok : State → List Nat → Bool := fun _ _ => true
  eff : State → List Nat → State
def RunClaim.Runs (q : RunClaim) (s : State) : Prop := s.Clear q.x ∧ q.ok (s.begun q.x) (s.acting q.x) = true
def RunClaim.after (q : RunClaim) (s : State) : State := s.ended q.x (q.eff (s.begun q.x) (s.acting q.x))
/-- The cause of sources alone (R57, R64). -/
def srcCause (l : List Src) (s : State) (t : Nat) (_ : List Nat) : Option (Byte × Dword) := checkSrcs s.me t l

/-! ### One register result -/

/-- A register word (R69, R133): one value with its tag. -/
def regClaim (h : Hdr) (d : Opd) (l : List Src) (tag : BitVec 2) (value : Warp → Nat → Word) : WordClaim :=
  { x := { h := h, named := (d, 1) :: l.map fun y => (y.o, y.width), once := uniform (d :: l.map Src.o) }
    cause := srcCause l
    eff := fun s t ts => s.writeReg t (s.me.dst d) (value s.me t) tag (resultPlate s.me t ts l) }

def claim1 (h : Hdr) (disc : Disc) (d a : Opd) (f : Word → Word) : WordClaim :=
  regClaim h d [srcA a disc] 0 fun w t => f (w.val t a)
def claim2 (h : Hdr) (disc : Disc) (d a b : Opd) (f : Word → Word → Word) : WordClaim :=
  regClaim h d [srcA a disc, srcB b disc] 0 fun w t => f (w.val t a) (w.val t b)
def claim3 (h : Hdr) (disc : Disc) (d a b c : Opd) (f : Word → Word → Word → Word) : WordClaim :=
  regClaim h d [srcA a disc, srcB b disc, srcC c disc] 0 fun w t => f (w.val t a) (w.val t b) (w.val t c)

/-- The word whose bit `i` is `f i`. -/
def bitsWord (f : Nat → Bool) : Word := maskOf ((List.range 32).filter f)

/-- The integer words with one register result, each with its rule's arithmetic: whole numbers modulo 2^32 (R70, R72, R73),
bits (R74 to R76), and moves that set a tag (R79). -/
def integerClaim : Instr → Option WordClaim
  | .iadd h d a b => some (claim2 h .arith d a b fun x y => BitVec.ofInt 32 (x.toInt + y.toInt))
  | .isub h d a b => some (claim2 h .arith d a b fun x y => BitVec.ofInt 32 (x.toInt - y.toInt))
  | .imul h d a b => some (claim2 h .arith d a b fun x y => BitVec.ofInt 32 (x.toInt * y.toInt))
  | .imulh h d a b => some (claim2 h .arith d a b fun x y => (x.signExtend 64 * y.signExtend 64).extractLsb' 32 32)
  | .imulhN h d a b => some (claim2 h .arith d a b fun x y => (x.setWidth 64 * y.setWidth 64).extractLsb' 32 32)
  | .imad h d a b c => some (claim3 h .arith d a b c fun x y z => BitVec.ofInt 32 (x.toInt * y.toInt + z.toInt))
  | .imin h n d a b => some (claim2 h .arith d a b fun x y =>
      if n then BitVec.ofNat 32 (min x.toNat y.toNat) else BitVec.ofInt 32 (min x.toInt y.toInt))
  | .imax h n d a b => some (claim2 h .arith d a b fun x y =>
      if n then BitVec.ofNat 32 (max x.toNat y.toNat) else BitVec.ofInt 32 (max x.toInt y.toInt))
  | .iabs h d a => some (claim1 h .arith d a fun x => BitVec.ofNat 32 x.toInt.natAbs)
  | .ineg h d a => some (claim1 h .arith d a fun x => BitVec.ofInt 32 (-x.toInt))
  | .idiv h d a b => some (claim2 h .arith d a b fun x y =>
      if y = 0 then BitVec.ofInt 32 (if x.toInt < 0 then -(2 ^ 31) else 2 ^ 31 - 1) else BitVec.ofInt 32 (x.toInt.tdiv y.toInt))
  | .idivN h d a b => some (claim2 h .arith d a b fun x y =>
      if y = 0 then BitVec.allOnes 32 else BitVec.ofNat 32 (x.toNat / y.toNat))
  | .irem h d a b => some (claim2 h .arith d a b fun x y =>
      if y = 0 then x else BitVec.ofInt 32 (x.toInt - y.toInt * x.toInt.tdiv y.toInt))
  | .iremN h d a b => some (claim2 h .arith d a b fun x y =>
      if y = 0 then x else BitVec.ofNat 32 (x.toNat - y.toNat * (x.toNat / y.toNat)))
  | .and h d a b => some (claim2 h .bits d a b fun x y => bitsWord fun i => x.getLsbD i && y.getLsbD i)
  | .or h d a b => some (claim2 h .bits d a b fun x y => bitsWord fun i => x.getLsbD i || y.getLsbD i)
  | .xor h d a b => some (claim2 h .bits d a b fun x y => bitsWord fun i => x.getLsbD i != y.getLsbD i)
  | .andn h d a b => some (claim2 h .bits d a b fun x y => bitsWord fun i => x.getLsbD i && !y.getLsbD i)
  | .not h d a => some (claim1 h .bits d a fun x => bitsWord fun i => !x.getLsbD i)
  | .shl h d a b => some (claim2 h .bits d a b fun x y =>
      bitsWord fun i => decide (y.toNat ≤ i) && x.getLsbD (i - y.toNat))
  | .shr h d a b => some (claim2 h .bits d a b fun x y => bitsWord fun i => x.getLsbD (i + y.toNat))
  | .sar h d a b => some (claim2 h .bits d a b fun x y => bitsWord fun i => x.getLsbD (min 31 (i + y.toNat)))
  | .rot h d a b => some (claim2 h .bits d a b fun x y => bitsWord fun i => x.getLsbD ((i + 32 - y.toNat % 32) % 32))
  | .bfx h sg d a b => some (claim2 h .bits d a b fun x y =>
      let off := y.toNat % 64
      let wid := y.toNat / 256 % 64
      let n := min wid (32 - off)
      bitsWord fun i => decide (off < 32 ∧ 0 < wid) &&
        (if i < n then x.getLsbD (off + i) else sg && x.getLsbD (off + n - 1)))
  | .bfi h d a b c => some (claim3 h .bits d a b c fun x y z =>
      let off := z.toNat % 64
      let wid := z.toNat / 256 % 64
      bitsWord fun i => if off ≤ i ∧ i < off + wid then y.getLsbD (i - off) else x.getLsbD i)
  | .popc h d a => some (claim1 h .bits d a fun x =>
      BitVec.ofNat 32 ((List.range 32).map fun i => (x.getLsbD i).toNat).sum)
  | .clz h d a => some (claim1 h .bits d a fun x => BitVec.ofNat 32 (if x = 0 then 32 else 31 - Nat.log2 x.toNat))
  | .brev h d a => some (claim1 h .bits d a fun x => x.reverse)
  | .movi h d tag v => some (regClaim h d [] tag fun _ _ => v)
  | .retag h tag d a => some (regClaim h d [srcA a .bits] tag fun w t => w.val t a)
  | _ => none

/-! ### Floating results (R133 to R145) -/

/-- A floating word: results to D and the registers after it, flags to ST (R133, R146). -/
def floatClaimOf (h : Hdr) (d : Opd) (width : Nat) (l : List Src) (tag : BitVec 2) (op : Warp → Nat → List Word × Word) :
    WordClaim :=
  { x := { h := h, named := (d, width) :: l.map fun y => (y.o, y.width), once := uniform (d :: l.map Src.o) }
    cause := srcCause l
    eff := fun s t ts =>
      let r := op s.me t
      let p := resultPlate s.me t ts l
      let y := r.1.zipIdx.foldl (fun z v => z.writeReg t ((s.me.dst d).plus v.2) v.1 tag p) s
      y.orSt r.2 }
/-- A floating word whose result comes later (R50, R144, R145). -/
def longClaimOf (h : Hdr) (cost : Nat) (d : Opd) (l : List Src) (op : Warp → Nat → Dword → Word × Word) (draws : Bool) :
    WordClaim :=
  { x := { h := h, named := (d, 1) :: l.map fun y => (y.o, y.width), once := uniform (d :: l.map Src.o), cost := cost }
    cause := srcCause l
    eff := fun s t ts =>
      let r := op s.me t s.free.1
      let y := if draws then s.free.2 else s
      y.long [{ t := t, dst := s.me.dst d, val := r.1, tag := 1, plate := resultPlate s.me t ts l }] r.2 }

/-- FP32 sources, one FP32 result of the exact value rounded once. -/
def exact2 (h : Hdr) (r : Rnd) (d a b : Opd) (f : FVal → FVal → FVal) : WordClaim :=
  floatClaimOf h d 1 [srcA a tagF32, srcB b tagF32] 1 fun w t =>
    let v := fp32.finish r (f (f32 (w.val t a)) (f32 (w.val t b)))
    ([BitVec.ofNat 32 v.1], v.2)
/-- FMIN and FMAX, whose result is one of the codes or the canonical NaN. -/
def minmaxClaim (h : Hdr) (mx prop : Bool) (d a b : Opd) : WordClaim :=
  floatClaimOf h d 1 [srcA a tagF32, srcB b tagF32] 1 fun w t =>
    let r := minmaxCode fp32 mx prop (w.val t a).toNat (w.val t b).toNat
    ([BitVec.ofNat 32 r.1], r.2)
/-- Both halves of packed BF16, each on its own (R142). -/
def packedClaim (h : Hdr) (d : Opd) (l : List Src) (f : (Word → Nat) → Warp → Nat → Nat × Word) : WordClaim :=
  floatClaimOf h d 1 l 2 fun w t =>
    let lo := f lowHalf w t
    let hi := f highHalf w t
    ([halves lo.1 hi.1], lo.2 ||| hi.2)
def sfuClaim (h : Hdr) (fn : Nat) (d a : Opd) : WordClaim :=
  longClaimOf h 4 d [srcA a tagF32] (fun w t free => sfuWord fn (loWord free) (w.val t a)) true

/-- The floating words with a register result. -/
def floatClaim : Instr → Option WordClaim
  | .fadd h r d a b => some (exact2 h r d a b (addX r))
  | .fsub h r d a b => some (exact2 h r d a b fun x y => addX r x y.negate)
  | .fmul h r d a b => some (exact2 h r d a b mulX)
  | .ffma h r d a b c => some (floatClaimOf h d 1 [srcA a tagF32, srcB b tagF32, srcC c tagF32] 1 fun w t =>
      let v := fp32.finish r (fmaX r (f32 (w.val t a)) (f32 (w.val t b)) (f32 (w.val t c)))
      ([BitVec.ofNat 32 v.1], v.2))
  | .fmin h d a b => some (minmaxClaim h false false d a b)
  | .fmax h d a b => some (minmaxClaim h true false d a b)
  | .fminm h d a b => some (minmaxClaim h false true d a b)
  | .fmaxm h d a b => some (minmaxClaim h true true d a b)
  | .fclass h d a => some (floatClaimOf h d 1 [srcA a tagF32] 0 fun w t => ([classWord (w.val t a)], 0))
  | .frnd h r x d a => some (floatClaimOf h d 1 [srcA a tagF32] 1 fun w t =>
      let v := frndWord r x (w.val t a)
      ([v.1], v.2))
  | .f2i h r n d a => some (floatClaimOf h d 1 [srcA a tagF32] 0 fun w t =>
      let v := f2iWord r n (w.val t a)
      ([v.1], v.2))
  | .i2f h r n d a => some (floatClaimOf h d 1 [srcA a] 1 fun w t =>
      let z : Int := if n then (w.val t a).toNat else (w.val t a).toInt
      let v := fp32.finish r (.fin (z < 0) z.natAbs 0)
      ([BitVec.ofNat 32 v.1], v.2))
  | .fpk h r d a b => some (floatClaimOf h d 1 [srcA a tagF32, srcB b tagF32] 2 fun w t =>
      let lo := narrow bf16 r false (f32 (w.val t a))
      let hi := narrow bf16 r false (f32 (w.val t b))
      ([halves lo.1 hi.1], lo.2 ||| hi.2))
  | .fupk h hi d a => some (floatClaimOf h d 1 [srcA a tagB2] 1 fun w t =>
      ([if hi then w.val t a &&& 0xFFFF0000 else w.val t a <<< 16], 0))
  | .badd2 h r d a b => some (packedClaim h d [srcA a tagB2, srcB b tagB2] fun f w t =>
      bf16.finish r (addX r (bf16.decode (f (w.val t a))) (bf16.decode (f (w.val t b)))))
  | .bmul2 h r d a b => some (packedClaim h d [srcA a tagB2, srcB b tagB2] fun f w t =>
      bf16.finish r (mulX (bf16.decode (f (w.val t a))) (bf16.decode (f (w.val t b)))))
  | .bfma2 h r d a b c => some (packedClaim h d [srcA a tagB2, srcB b tagB2, srcC c tagB2] fun f w t =>
      bf16.finish r (fmaX r (bf16.decode (f (w.val t a))) (bf16.decode (f (w.val t b))) (bf16.decode (f (w.val t c)))))
  | .bmin2 h d a b => some (packedClaim h d [srcA a tagB2, srcB b tagB2] fun f w t =>
      minmaxCode bf16 false false (f (w.val t a)) (f (w.val t b)))
  | .bmax2 h d a b => some (packedClaim h d [srcA a tagB2, srcB b tagB2] fun f w t =>
      minmaxCode bf16 true false (f (w.val t a)) (f (w.val t b)))
  | .ftwos h d a b => some (floatClaimOf h d 2 [srcA a tagF32, srcB b tagF32] 1 fun w t =>
      twoWord false (addX .rn (f32 (w.val t a)) (f32 (w.val t b))))
  | .ftwop h d a b => some (floatClaimOf h d 2 [srcA a tagF32, srcB b tagF32] 1 fun w t =>
      twoWord true (mulX (f32 (w.val t a)) (f32 (w.val t b))))
  | .rota h d a b => some (floatClaimOf h d 1 [srcA a, srcB b tagF32] 1 fun w t =>
      let v := rotaWord (w.val t a) (w.val t b)
      ([v.1], v.2))
  | .fdiv h r d a b => some (longClaimOf h 1 d [srcA a tagF32, srcB b tagF32]
      (fun w t _ => fdivWord r (f32 (w.val t a)) (f32 (w.val t b))) false)
  | .fsqrt h d a => some (longClaimOf h 4 d [srcA a tagF32]
      (fun w t _ =>
        let v := fp32.finish .rn (sqrtX (f32 (w.val t a)))
        (BitVec.ofNat 32 v.1, v.2)) false)
  | .frcp h d a => some (sfuClaim h 0 d a)
  | .frsq h d a => some (sfuClaim h 1 d a)
  | .fexp2 h d a => some (sfuClaim h 3 d a)
  | .flog2 h d a => some (sfuClaim h 4 d a)
  | .fsint h d a => some (sfuClaim h 5 d a)
  | .fcost h d a => some (sfuClaim h 6 d a)
  | .ftanh h d a => some (sfuClaim h 7 d a)
  | _ => none

/-! ### CM, selection and moves (R71, R77, R78, R79, R81, R137) -/

/-- A result and a condition: the result to D if there is one, the condition to CM of the threads, the plate to both. -/
def condEff (d : Option Opd) (s : State) (t : Nat) (ts : List Nat) (v : Word) (c p : Bool) : State :=
  let y := ts.foldl (fun z u => z.writeCm u c p) s
  match d with
  | some o => y.writeReg t (s.me.dst o) v 0 p
  | none => y

/-- The words that write CM beside D, the moves, and those that make a pair. -/
def moveClaim : Instr → Option WordClaim
  | .iaddc h d a b =>
    some { x := { h := h, named := [(d, 1), (a, 1), (b, 1)], cm := true, once := uniform [d, a, b] }
           cause := srcCause [srcA a, srcB b]
           eff := fun s t ts =>
             let w := s.me
             let n := (w.val t a).toNat + (w.val t b).toNat + (bitOf w.cm t).toNat
             let p := resultPlate w t ts [srcA a, srcB b] || bitOf w.cpm t
             ts.foldl (fun z u => z.writeCm u (n / 2 ^ 32 == 1) p) (s.writeReg t (w.dst d) (BitVec.ofNat 32 n) 0 p) }
  | .isubb h d a b =>
    some { x := { h := h, named := [(d, 1), (a, 1), (b, 1)], cm := true, once := uniform [d, a, b] }
           cause := srcCause [srcA a, srcB b]
           eff := fun s t ts =>
             let w := s.me
             let z : Int := (w.val t a).toNat - (w.val t b).toNat - (bitOf w.cm t).toNat
             let p := resultPlate w t ts [srcA a, srcB b] || bitOf w.cpm t
             ts.foldl (fun y u => y.writeCm u (z < 0) p) (s.writeReg t (w.dst d) (BitVec.ofInt 32 z) 0 p) }
  | .iset h c d a b =>
    some { x := { h := h, named := (d.map fun o => (o, 1)).toList ++ [(a, 1), (b, 1)], cm := true
                  once := uniform (d.toList ++ [a, b]) }
           cause := srcCause [srcA a, srcB b]
           eff := fun s t ts =>
             let v := icond c (s.me.val t a) (s.me.val t b)
             condEff d s t ts (if v then BitVec.allOnes 32 else 0) v (resultPlate s.me t ts [srcA a, srcB b]) }
  | .fset h c d a b =>
    some { x := { h := h, named := (d.map fun o => (o, 1)).toList ++ [(a, 1), (b, 1)], cm := true
                  once := uniform (d.toList ++ [a, b]) }
           cause := srcCause [srcA a tagF32, srcB b tagF32]
           eff := fun s t ts =>
             let p := f32 (s.me.val t a)
             let q := f32 (s.me.val t b)
             let nv := p == .nan true || q == .nan true || (fcondSignals c && (p.isNan || q.isNan))
             let v := fcond c (cmpX p q)
             condEff d (if nv then s.orSt Flag.nv else s) t ts (if v then BitVec.allOnes 32 else 0) v
               (resultPlate s.me t ts [srcA a tagF32, srcB b tagF32]) }
  | .sel h d a b =>
    some { x := { h := h, named := [(d, 1), (a, 1), (b, 1)], cm := true, once := uniform [d, a, b] }
           cause := srcCause []
           eff := fun s t ts =>
             let w := s.me
             let r := w.read t (if bitOf w.cm t then a else b)
             s.writeReg t (w.dst d) r.data r.tag (w.anyTaint ts || r.plate || bitOf w.cpm t) }
  | .selZ h d a b c =>
    some { x := { h := h, named := [(d, 1), (a, 1), (b, 1), (c, 1)], once := uniform [d, a, b, c] }
           cause := srcCause [srcC c]
           eff := fun s t ts =>
             let w := s.me
             let r := w.read t (if w.val t c ≠ 0 then a else b)
             s.writeReg t (w.dst d) r.data r.tag (w.anyTaint ts || r.plate || (w.read t c).plate) }
  | .mov h d a =>
    some { x := { h := h, named := [(d, 1), (a, 1)], once := uniform [d, a] }
           cause := srcCause []
           eff := fun s t ts =>
             let r := s.me.read t a
             s.writeReg t (s.me.dst d) r.data r.tag (s.me.anyTaint ts || r.plate) }
  | .cadd h d a b =>
    some { x := { h := h, named := [(d, 2), (a, 2), (b, 1)], once := uniform [d, a, b] }
           cause := srcCause [srcA a .arith 2, srcB b]
           eff := fun s t ts =>
             let c := s.me.readPair t a
             let off := ((c.setWidth 36).toNat + (s.me.val t b).toInt) % 2 ^ 36
             let v : Dword := BitVec.ofNat 64 (c.toNat / 2 ^ 36 * 2 ^ 36 + off.toNat)
             let p := resultPlate s.me t ts [srcA a .arith 2, srcB b]
             (s.writeReg t (s.me.dst d) (loWord v) 0 p).writeReg t ((s.me.dst d).plus 1) (hiWord v) 0 p }
  | .crst h d a b =>
    some { x := { h := h, named := [(d, 2), (a, 2), (b, 1)], once := uniform [d, a, b] }
           cause := srcCause [srcA a .arith 2, srcB b]
           eff := fun s t ts =>
             let c := s.me.readPair t a
             let mask : Dword := ((s.me.val t b).setWidth 4).setWidth 64 <<< 36 ||| 0xFFFFFF0FFFFFFFFF
             let v := c &&& mask
             let p := resultPlate s.me t ts [srcA a .arith 2, srcB b]
             (s.writeReg t (s.me.dst d) (loWord v) 0 p).writeReg t ((s.me.dst d).plus 1) (hiWord v) 0 p }
  | _ => none

/-! ### Frames -/

/-- Of a warp, only its v and k registers, CM, CPM and flags, what its threads stand at, its loads and longs, and the tick of its
latest run differ. -/
def Warp.Rest (a b : Warp) : Prop :=
  { b with v := a.v, k := a.k, cm := a.cm, cpm := a.cpm, sr := a.sr, threads := a.threads, tickets := a.tickets
           loads := a.loads, longs := a.longs, cmPend := a.cmPend, nextId := a.nextId, lastRun := a.lastRun } = a
/-- Of a thread, only its PC, REPC and age differ. -/
def Thread.Rest (a b : Thread) : Prop := { b with pc := a.pc, repc := a.repc, age := a.age } = a

/-- `t` is `s` but for the warp that issues, its lane and counters: every byte of memory, every other warp, cluster and unit
is the same. -/
structure State.Frame (s t : State) : Prop where
  rest : { t with clusters := s.clusters, counters := s.counters, frees := s.frees } = s
  others : ∀ c, c ≠ s.cur.cl → t.cluster c = s.cluster c
  mine : { t.myCluster with warps := s.myCluster.warps, tracker := s.myCluster.tracker, lanes := s.myCluster.lanes } = s.myCluster
  warps : ∀ k, k ≠ s.cur.slot → t.myCluster.warp k = s.myCluster.warp k
  warp : s.me.Rest t.me
  threads : ∀ u, (s.me.thread u).Rest (t.me.thread u)

end Sys2Proof.Machine
end

