-- ==== Sys2Proof/Safety/Control.lean ====
section
/-! DEFINITION. Terms of the claims about control words, special registers, masks, plates and capabilities: for each, its
frame, what it meets, and its effect. -/

namespace Sys2Proof.Machine

/-- The first of several checks that finds a cause. -/
def firstOf (l : List (Option (Byte × Dword))) : Option (Byte × Dword) := l.findSome? id
/-- A cause where the condition holds. -/
def causeIf (b : Bool) (cause : Byte) (addr : Dword) : Option (Byte × Dword) := if b then some (cause, addr) else none
/-- The byte offset that a branch with displacement `w` goes to from the word at `pc` (R84). -/
def branchTo (pc : BitVec 40) (w : BitVec 32) : BitVec 40 := BitVec.ofInt 40 (pc.toNat + 8 + 8 * w.toInt)
/-- Each of the threads goes to `pc`. -/
def State.jumpAll (s : State) (ts : List Nat) (pc : BitVec 40) : State := ts.foldl (fun y u => y.jump u pc) s
/-- A pair result, low register first. -/
def State.writePair (s : State) (t : Nat) (d : Dst) (v : Dword) (p : Bool) : State :=
  (s.writeReg t d (loWord v) 0 p).writeReg t (d.plus 1) (hiWord v) 0 p

/-! ### Branches, calls and returns (R84 to R86, R90) -/

def jumpClaim (h : Hdr) (a : Opd) : WordClaim :=
  { x := { h := h, named := [(a, 1)], once := uniform [a] }
    cause := fun s t _ => firstOf [checkSrcs s.me t [srcA a], causeIf (s.me.read t a).plate Cause.plateControl 0,
      causeIf (decide ((s.me.val t a).toNat % 8 ≠ 0)) Cause.align ((s.me.val t a).setWidth 64)]
    eff := fun s t ts => s.jumpAll ts ((s.me.val t a).setWidth 40) }

/-- The control words that act lane by lane, or once for the run; `s` is the state in which the word issues. -/
def controlClaim (s : State) : Instr → Option WordClaim
  | .nop h => some { x := { h := h }, cause := fun _ _ _ => none, eff := fun y _ _ => y }
  | .yield h => some { x := { h := h }, cause := fun _ _ _ => none, eff := fun y _ _ => y }
  | .bra h w => some { x := { h := h }, cause := fun _ _ _ => none, eff := fun y t _ => y.jump t (branchTo s.cur.pc w) }
  | .brc h neg gf w =>
    some { x := { h := h, cm := true }
           cause := fun y t _ => causeIf (bitOf y.me.cpm t && !gf) Cause.plateControl 0
           eff := fun y t _ =>
             let z := if bitOf y.me.cpm t then y.taint t else y
             if bitOf y.me.cm t != neg then z.jump t (branchTo s.cur.pc w) else z }
  | .jmpi h a => some (jumpClaim h a)
  | .ret h a => some (jumpClaim h a)
  | .call h d w =>
    some { x := { h := h, named := [(d, 1)], once := uniform [d] }
           cause := fun _ _ _ => none
           eff := fun y t ts =>
             (y.writeReg t (y.me.dst d) (BitVec.ofNat 32 (s.cur.pc.toNat + 8)) 0 (y.me.anyTaint ts)).jumpAll ts (branchTo s.cur.pc w) }
  | .tretReplay h =>
    some { x := { h := h }
           cause := fun y t _ => causeIf (!(y.me.thread t).tcause.getLsbD 31) Cause.illegal 0
           eff := fun y t _ => y.modMe fun w => w.modThread t fun z =>
             { z with tcause := z.tcause &&& 0x7FFFFFFF#32, pc := BitVec.ofNat 40 (z.tpc.toNat / 8 * 8) } }
  | .tretResume h => if s.tretWaits h then none else
    some { x := { h := h }
           cause := fun y t _ => causeIf (!(y.me.thread t).tcause.getLsbD 31) Cause.illegal 0
           eff := fun y t _ =>
             let pc : BitVec 40 := BitVec.ofNat 40 ((y.me.thread t).tpc.toNat / 8 * 8)
             let rep := match y.fetch y.cur.cl y.me pc with
               | .word w => (repOf y.me.unit w).isSome
               | _ => false
             y.modMe fun w => w.modThread t fun z =>
               let n := z.repc.toNat - 1
               { z with
                 tcause := z.tcause &&& 0x7FFFFFFF#32
                 pc := if rep then (if n = 0 then pc + 16 else pc) else pc + 8
                 repc := if rep then BitVec.ofNat 32 n else z.repc } }
  | .part h size =>
    some { x := { h := h, once := true }
           cause := fun _ _ _ => none
           eff := fun y _ _ => (y.modMe fun w => { w with pt := size.setWidth 32 }).joinCheck s.cur.cl s.cur.slot }
  | .xiset h (.imm v) =>
    some { x := { h := h, once := true }
           cause := fun _ _ _ => none
           eff := fun y _ _ => y.modMe fun w => { w with xi := v.setWidth 32 } }
  | .xiset h (.k n) =>
    some { x := { h := h, named := [(.k n, 1)], once := true }
           cause := fun y _ _ => firstOf [causeIf ((y.me.getK n).tag == 3) Cause.uninit 1, causeIf (y.me.getK n).plate Cause.plateAddr 1]
           eff := fun y _ _ => y.modMe fun w => { w with xi := BitVec.ofNat 32 ((w.getK n).data.toNat % 256) } }
  | .movwWrite h w k =>
    some { x := { h := h, named := [(.k k, 1)], once := true }
           cause := fun y _ ts => causeIf ((y.me.getK k).plate || y.me.anyTaint ts) Cause.plateEscape 1
           eff := fun y _ _ =>
             let g := y.myWg.settle y.myCluster.cyc
             y.setMyWg { g with wLate := insertLate (y.myCluster.cyc, y.me.num, w, { data := (y.me.getK k).data, tag := (y.me.getK k).tag }) g.wLate } }
  | .movwRead h k w =>
    some { x := { h := h, named := [(.k k, 1)], once := true }
           cause := fun _ _ _ => none
           eff := fun y t ts =>
             let r := Tab.get {} (y.myWg.settle y.myCluster.cyc).w w
             y.writeReg t (.k k) r.data r.tag (r.plate || y.me.anyTaint ts) }
  | _ => none

/-! ### Special registers (R66 to R68) -/

/-- What RDSR reads (R66); TB is read `i` cycles of the cluster after the word's first. -/
def srRead (s : State) (t i : Nat) (sr : Sr) : Dword :=
  let w := s.me
  let y := w.thread t
  match sr with
  | .tb => BitVec.ofNat 64 (s.tick + s.myCluster.ticks i)
  | .tpc => y.tpc
  | .taddr => y.taddr
  | .tcause => y.tcause.setWidth 64
  | .tlanes => y.tlanes.setWidth 64
  | .repc => y.repc.setWidth 64
  | .tt => BitVec.ofNat 64 y.tt.toNat
  | .em => w.em.setWidth 64
  | .cm => w.cm.setWidth 64
  | .cpm => w.cpm.setWidth 64
  | .pt => w.pt.setWidth 64
  | .xi => w.xi.setWidth 64
  | .st => w.sr.setWidth 64
  | .tvec => w.tvec.setWidth 64
  | .awb => (w.window s.myCluster.cyc).1.setWidth 64
  | .awl => (w.window s.myCluster.cyc).2.setWidth 64

/-- RDSR and WRSR; `s` is the state in which the word issues. -/
def specialClaim (s : State) : Instr → Option WordClaim
  | .rdsr h d sr =>
    some { x := { h := h, named := [(d, if srWide sr then 2 else 1)], cm := sr == .cm || sr == .cpm, once := uniform [d] }
           cause := fun _ _ _ => none
           eff := fun y t ts =>
             let v := srRead y t (if uniform [d] then 0 else s.cur.run.idxOf t) sr
             let p := y.me.anyTaint ts || (sr == .cm && y.me.cpm &&& maskOf s.cur.run != 0)
             if srWide sr then y.writePair t (y.me.dst d) v p else y.writeReg t (y.me.dst d) (loWord v) 0 p }
  | .wrsr h sr a =>
    let src := srcA a .arith (if srWide sr then 2 else 1)
    let v (y : State) (t : Nat) : Dword := if srWide sr then y.me.readPair t a else (y.me.val t a).setWidth 64
    some { x := { h := h, named := [(a, if srWide sr then 2 else 1)], cm := sr == .cm || sr == .cpm, once := uniform [a] }
           cause := fun y t _ => firstOf [checkSrcs y.me t [src], if src.plated y.me t then srPlate sr else none,
             causeIf (sr == .pt && !decide (1 ≤ (v y t).toNat % 8 ∧ (v y t).toNat % 8 ≤ 5)) Cause.illegal 0]
           eff := fun y t ts => y.setSr y.cur.run ts sr (v y t) (src.plated y.me t) }
  | _ => none

/-! ### Plates, taint and capabilities (R81, R116, R117, R120) -/

def plateClaim : Instr → Option WordClaim
  | .tpl h a =>
    some { x := { h := h, named := [(a, 1)], cm := true, once := uniform [a] }
           cause := fun _ _ _ => none
           eff := fun y t ts =>
             let p := (y.me.read t a).plate
             ts.foldl (fun z u => z.writeCm u p false) y }
  | .tplT h =>
    some { x := { h := h, cm := true }, cause := fun _ _ _ => none, eff := fun y t _ => y.writeCm t (y.me.thread t).tt false }
  | .acpt h d =>
    some { x := { h := h, named := [(d, 1)], once := uniform [d] }
           cause := fun _ _ _ => none
           eff := fun y t _ =>
             let e := y.me.dst d
             let w := y.me.untieDst t e
             (y.setMe (w.putReg t e { (w.reg t e) with plate := false })).count y.cur.cl .guessesAccepted (y.me.tie t e).isSome.toNat }
  | .tclr h =>
    some { x := { h := h }, cause := fun _ _ _ => none
           eff := fun y t _ => y.modMe fun w => w.modThread t fun z => { z with tt := false } }
  | .cmk h d a =>
    some { x := { h := h, named := [(d, 2), (a, 1)], once := uniform [d, a] }
           cause := fun y t _ => firstOf [checkSrcs y.me t [srcA a], checkPlates y.me t [srcA a]]
           eff := fun y t ts =>
             let n := (y.me.val t a).toNat
             let e := y.descFor y.myWg n
             y.writePair t (y.me.dst d) (if 0 < n ∧ n < 2 ^ 24 ∧ e.valid then BitVec.ofNat 64 (n * 2 ^ 40 + e.rights * 2 ^ 36) else 0)
               (y.me.anyTaint ts || (srcA a).plated y.me t) }
  | .clen h d a =>
    some { x := { h := h, named := [(d, 2), (a, 2)], once := uniform [d, a] }
           cause := fun y t _ => checkSrcs y.me t [srcA a .arith 2]
           eff := fun y t ts =>
             let n := capObj (y.me.readPair t a)
             let e := y.descFor y.myWg n
             y.writePair t (y.me.dst d) (if n ≠ 0 ∧ e.valid then BitVec.ofNat 64 e.len else 0)
               (y.me.anyTaint ts || (srcA a .arith 2).plated y.me t) }
  | _ => none

/-! ### Words that act on the run together: masks (R82), JOIN, BAR, EXIT and TAIL (R28 to R32) -/

/-- A mask word acts on every thread of the run, active or not. -/
def maskClaim (sw cm : Bool) (named : List (Opd × Nat)) (ok : State → Bool) (eff : State → List Nat → State) : RunClaim :=
  { x := { h := { sw := sw, g := .em }, named := named, cm := cm, once := true }
    ok := fun s _ => ok s
    eff := fun s _ => if s.cur.run = [] then s else eff s s.cur.run }
/-- EMA, EMN and EMO: the threads whose condition may steer get their bit; guessed conditions taint (R82). -/
def steerClaim (sw gf : Bool) (f : Bool → Bool → Bool) : RunClaim :=
  maskClaim sw true [] (fun s => gf || s.cur.run.all fun t => !(bitOf s.me.em t && bitOf s.me.cpm t)) fun s r =>
    r.foldl (fun z t =>
      if bitOf s.me.cpm t && !gf then z
      else
        let y := z.modMe fun q => { q with em := setBit q.em t (f (bitOf s.me.em t) (bitOf s.me.cm t)) }
        if bitOf s.me.cpm t then y.taint t else y) s
/-- Threads in a state of waiting. -/
def State.waitIn (s : State) (ts : List Nat) (f : Thread → Thread) : State :=
  s.modMe fun w => ts.foldl (fun v t => v.modThread t f) w

def runClaim (s : State) : Instr → Option RunClaim
  | .ems sw kd => some (maskClaim sw false [(.k kd, 1)] (fun _ => true) fun y r =>
      y.writeReg (r.headD 0) (.k kd) y.me.em 0 (y.me.anyTaint r))
  | .eml sw gf ka => some (maskClaim sw false [(.k ka, 1)]
      (fun y => (y.me.getK ka).tag != 3 && (gf || !(y.me.getK ka).plate)) fun y r =>
      let z := y.loadEm r (y.me.getK ka).data
      if (y.me.getK ka).plate then r.foldl (fun v t => v.taint t) z else z)
  | .ema sw gf => some (steerClaim sw gf fun e c => e && c)
  | .emn sw gf => some (steerClaim sw gf fun e c => e && !c)
  | .emo sw gf => some (steerClaim sw gf fun e c => e || c)
  | .cms sw p kd => some (maskClaim sw true [(.k kd, 1)] (fun _ => true) fun y r =>
      y.writeReg (r.headD 0) (.k kd) (if p then y.me.cpm else y.me.cm) 0
        (y.me.anyTaint r || (!p && y.me.cpm &&& maskOf r != 0)))
  | .cml sw p ka => some (maskClaim sw true [(.k ka, 1)] (fun y => (y.me.getK ka).tag != 3) fun y r =>
      let q := y.me.getK ka
      if p then y.loadCpm r q.data else y.loadCm r (fun t => bitOf q.data t) fun _ => q.plate)
  | .cmx sw op ka => some (maskClaim sw true [(.k ka, 1)] (fun y => (y.me.getK ka).tag != 3) fun y r =>
      let q := y.me.getK ka
      let w := y.me
      y.loadCm r (fun t => match op.toNat with
        | 0 => bitOf w.cm t && bitOf q.data t
        | 1 => bitOf w.cm t || bitOf q.data t
        | 2 => bitOf w.cm t != bitOf q.data t
        | _ => bitOf w.cm t && !bitOf q.data t) fun t => bitOf w.cpm t || q.plate)
  | .join h tile => some
      { x := { h := h }
        eff := fun y ts => (y.waitIn ts fun z => { z with st := .join, jt := tile }).joinCheck s.cur.cl s.cur.slot }
  | .barArriveWait h id => some
      { x := { h := h, sync := true }
        eff := fun y ts =>
          ((ts.foldl (fun z t => z.arrive s.cur.cl s.cur.slot t id.toNat) y).waitIn ts fun z => { z with st := .bar, bid := id }).barCheck
            s.cur.cl s.me.entry }
  | .barArrive h id => some
      { x := { h := h, sync := true }
        eff := fun y ts => (ts.foldl (fun z t => z.arrive s.cur.cl s.cur.slot t id.toNat) y).barCheck s.cur.cl s.me.entry }
  | .barWait h id => some
      { x := { h := h, sync := true }
        eff := fun y ts =>
          (y.waitIn (ts.filter fun t => Tab.get 0 (y.me.thread t).gens id.toNat != 0) fun z => { z with st := .bar, bid := id }).barCheck
            s.cur.cl s.me.entry }
  | .exit h => some
      { x := { h := h, sync := true }
        eff := fun y ts => if ts = [] then y else (y.exitAll s.cur.cl s.cur.slot ts).retireByExit s.cur.cl s.cur.slot }
  | .tail h => some
      { x := { h := h }
        eff := fun y ts => match ts.getLast? with
          | none => y
          | some l =>
            let z := y.exitAll s.cur.cl s.cur.slot (ts.filter fun t => t != l)
            if z.me.members = [l] ∧ z.tailWaits then z.waitIn [l] fun q => { q with st := .track, pc := s.cur.pc }
            else (z.exitAll s.cur.cl s.cur.slot [l]).retireByTail s.cur.cl s.cur.slot }
  | _ => none

end Sys2Proof.Machine
end

