-- ==== Sys2Proof/Safety/Memory.lean ====
section
/-! DEFINITION. Terms of the claims about loads, stores, the stash, gathers, atomics, synchronisation and tarnish words: for
each, its frame, the causes that a lane can meet, and what it does where it meets none. -/

namespace Sys2Proof.Machine

def LaneOut.cause : LaneOut → Option (Byte × Dword)
  | .ok _ => none
  | .hit cause addr _ => some (cause, addr)
def LaneOut.state : LaneOut → State
  | .ok s => s
  | .hit _ _ s => s

/-- The next number of the warp is used. -/
def State.numbered (s : State) : State := s.modMe fun w => { w with nextId := w.nextId + 1 }
/-- A request of the warp that waits to be performed, from its thread's lane cycle on (R20). -/
def State.addReq (s : State) (r : Req) (once : Bool) : State :=
  s.modMe fun w => { w with reqs := w.reqs ++ [{ r with leave := s.myCluster.cyc + if once then 0 else s.cur.run.idxOf r.t }] }
/-- The word carried the switch marker, in its last repeat. -/
def State.marks (s : State) (h : Hdr) : Bool := h.sw && s.cur.last

/-! ### Loads (R94 to R102) -/

/-- A lane's limit in ticks (R102): 0 for none. -/
def limitTicks (l : LoadWord) (w : Warp) (t : Nat) : Nat :=
  if l.lim = 0 then 0
  else if l.lim = 15 then
    match l.c with
    | .v n => (w.val t (.v n)).toNat % 2 ^ 20
    | .k n => (w.val t (.k n)).toNat % 2 ^ 20
    | .none => 2 ^ 17
  else 2 ^ (l.lim + 2)
/-- A load: each lane is checked, its register pends, and it is in flight. -/
def loadClaim (s : State) (l : LoadWord) : WordClaim :=
  { x := l.shape
    cause := fun y t _ => memCause y t l.m l.more { rights := 8, kinds := l.kinds, size := convSize l.conv }
    eff := fun y t ts =>
      let w := y.me
      let d := w.dst l.d
      (y.numbered.pendWide t d (if l.conv = 3 then 2 else 1)).modMe fun q => { q with loads := q.loads ++
        [{ id := w.nextId, group := s.me.nextId, t := t, threads := ts, k := l.k, reg := d.num
           obj := capObj (l.m.cap w t), off := l.m.addr w t, conv := l.conv, strong := l.strong, taint := w.anyTaint ts
           limit := limitTicks l w t, leave := y.myCluster.cyc + if l.k then 0 else s.cur.run.idxOf t
           t0 := y.tick + y.myCluster.ticks (if l.k then 0 else s.cur.run.idxOf t), pred := l.pred
           guessK := match l.guessReg with
             | some n => (w.getK n).data
             | none => 0
           pc := s.cur.pc, wpc := if s.cur.rep.isSome then s.cur.pc + 8 else s.cur.pc, marked := s.marks l.h }] } }

/-! ### Stores (R97 to R100, R114, R315 to R317) -/

/-- A store: each lane is checked, data and exit too; a window word takes it, or it leaves for memory. -/
def storeClaim (s : State) (l : StoreWord) : WordClaim :=
  let window (y : State) (t : Nat) : Bool := (y.descFor y.myWg (capObj (l.m.cap y.me t))).kind == 4
  { x := { h := l.h, named := l.m.named ++ [(l.c, if l.conv = 3 then 2 else 1)], once := l.once, more := l.goDecode }
    cause := fun y t ts => firstOf [memCause y t l.m [] { rights := 4, kinds := l.kinds, size := convSize l.conv },
      l.dataCause y.me t ts (window y t), if window y t && l.m.addr y.me t == 16 then (storeGo y ts).cause else none]
    eff := fun y t ts =>
      let w := y.me
      let off := l.m.addr w t
      if window y t then
        if off = 16 then (storeGo y ts).state
        else y.modMe fun q => { q with winQ := q.winQ ++ [(off / 4, w.val t l.c)] }
      else
        let r := storeData w t l.c l.conv l.ns
        let z := y.orSt r.2
        let plated := (dataSrc l.c l.conv).plated w t || w.anyTaint ts
        (z.numbered.count s.cur.cl .platedStores plated.toNat).addReq (once := l.once)
          { id := w.nextId, t := t, threads := ts, obj := capObj (l.m.cap w t), off := off, size := convSize l.conv, strong := l.strong
            op := .store (leBytes (convSize l.conv) r.1), pc := s.cur.pc, group := w.nextId } }

/-- The words that load and store (R96, R97). -/
def memoryClaim (s : State) : Instr → Option WordClaim
  | .ld h scl lim pred conv d a b c => some (loadClaim s
      { h := h, m := ⟨a, b, scl⟩, d := d, k := false, conv := conv.toNat, lim := lim.toNat, pred := pred.toNat, c := c })
  | .ldStrong h scl sc conv d a b => some (loadClaim s
      { h := h, m := ⟨a, b, scl⟩, d := d, k := false, conv := conv.toNat, strong := some sc })
  | .ldk h scl (.weak lim pred) conv d a b c => some (loadClaim s
      { h := h, m := ⟨a, b, scl⟩, d := d, k := true, conv := conv.toNat, lim := lim.toNat, pred := pred.toNat, c := c
        kinds := [0, 2, 3, 5, 6] })
  | .ldk h scl (.strong sc) conv d a b c => some (loadClaim s
      { h := h, m := ⟨a, b, scl⟩, d := d, k := true, conv := conv.toNat, strong := some sc, c := c, kinds := [0, 2, 3, 5, 6] })
  | .st h scl acc ns conv a b c => some (storeClaim s
      { h := h, m := ⟨a, b, scl⟩, c := c, conv := conv.toNat, ns := ns, acc := acc, once := uniform [a, b, c] })
  | .stStrong h scl sc acc ns conv a b c => some (storeClaim s
      { h := h, m := ⟨a, b, scl⟩, c := c, conv := conv.toNat, ns := ns, acc := acc, strong := some sc, once := uniform [a, b, c] })
  | .stk h scl mode acc ns conv a b c => some (storeClaim s
      { h := h, m := ⟨a, b, scl⟩, c := c, conv := conv.toNat, ns := ns, acc := acc, strong := mode, once := true
        kinds := if conv = 0 then [0, 3, 4, 5] else [0, 3, 5] })
  | _ => none

/-! ### The stash (R174 to R182) -/

def ldhClaim (s : State) (h : Hdr) (scl : BitVec 2) (conv : Nat) (d a b : Opd) (q : Nat) : WordClaim :=
  let m : MemOpd := ⟨a, b, scl⟩
  { x := { h := h, named := (d, if conv = 3 then 2 else 1) :: m.named, once := uniform [d, a, b] }
    cause := fun y t _ => memCause y t m [] { rights := 8, kinds := [8], size := convSize conv }
    eff := fun y t ts =>
      let w := y.me
      (y.numbered.pendWide t (w.dst d) (if conv = 3 then 2 else 1)).addReq (once := uniform [d, a, b])
        { id := w.nextId, t := t, threads := ts, obj := stashObj, off := m.addr w t, size := convSize conv, taint := w.anyTaint ts
          op := .ldh conv (w.dst d) q, pc := s.cur.pc, marked := s.marks h, group := s.me.nextId, word := s.cur.word } }
def sthClaim (s : State) (h : Hdr) (scl : BitVec 2) (acc : Bool) (conv : Nat) (a b c : Opd) (q : Nat) : WordClaim :=
  let l : StoreWord := { h := h, m := ⟨a, b, scl⟩, c := c, conv := conv, acc := acc, once := uniform [a, b, c] }
  { x := { h := h, named := l.m.named ++ [(c, if conv = 3 then 2 else 1)], once := uniform [a, b, c] }
    cause := fun y t ts => firstOf [memCause y t l.m [] { rights := 4, kinds := [8], size := convSize conv }, l.dataCause y.me t ts false]
    eff := fun y t ts =>
      let w := y.me
      let bytes := leBytes (convSize conv) (storeData w t c conv false).1
      let r : Req :=
        { id := w.nextId, t := t, threads := ts, obj := stashObj, off := l.m.addr w t, size := convSize conv, op := .sth bytes q
          pc := s.cur.pc, group := s.me.nextId, word := s.cur.word }
      (y.numbered.count s.cur.cl .platedStores ((dataSrc c conv).plated w t || w.anyTaint ts).toNat).addReq r l.once }
/-- A word performed once for the run, at its lowest active thread. -/
def onceClaim (h : Hdr) (named : List (Opd × Nat)) (cause : State → List Nat → Option (Byte × Dword))
    (eff : State → List Nat → State) : WordClaim :=
  { x := { h := h, named := named, once := true }, cause := fun y _ ts => cause y ts, eff := fun y _ ts => eff y ts }

/-- A gather or scatter: the requests of its elements. -/
def sliceClaim (g : Slice) (eff : State → List Nat → State) : WordClaim :=
  onceClaim g.h [(.k g.d, 1), (.k g.a, 2), (.k g.b, 1), (.k g.c, 1)] (fun y ts => g.cause y (ts.headD 0)) eff
def scatClaim (h : Hdr) (d a b c fn : Nat) : WordClaim :=
  let g : Slice := { h := h, d := d, a := a, b := b, c := c, size := 4, need := { rights := 6, kinds := [0, 3], size := 4 }, dAlign := 4 }
  sliceClaim g fun y ts =>
    let v (i : Nat) : Word := BitVec.ofNat 32 (y.stashNat y.cur.cl y.myWg ((y.me.getK d).data.toNat + 4 * i) 4)
    (g.send y ts fun i => .scat fn (v i) i).count y.cur.cl .scatters 1

/-- PFT (R121): a lane with a cause is dropped and counted; else its sector or line is asked for, at the station while a handshake holds
what leaves the cluster (R321). What a page that migrates, or a cause of memory, makes of it is the model's choice (log 72). -/
def pftClaim (h : Hdr) (m : MemOpd) (lvl : Nat) (line : Bool) : WordClaim :=
  { x := { h := h, named := m.named, once := uniform [m.a, m.b], quiet := true }
    cause := fun _ _ _ => none
    eff := fun y t _ =>
      let c := y.cur.cl
      let n := if line then 256 else 64
      let obj := capObj (m.cap y.me t)
      let off := m.addr y.me t / n * n
      let ctx := (y.wg c y.me.entry).ctx
      if (memCause y t m [] { rights := 8, kinds := [0, 2, 3, 5, 6], size := 1 }).isSome then y.count c .pftDropped 1
      else if y.myCluster.crossing then
        y.modMyCluster fun q => { q with station := q.station ++ [{ entry := y.me.entry, obj := obj, off := off, bytes := n, lvl := lvl }] }
      else match y.place y.me ctx obj off n with
        | .found a => (y.count c .pftIssued 1).prefetch c ctx obj off n lvl a
        | .waits cause => if cause = Cause.migration then y.count c .pftIssued 1 else y.count c .pftDropped 1
        | .fails _ => y.count c .pftDropped 1 }
/-- REDEM (R118, R119): the true value of a tied lane, where its ticket holds it, with CM 0; its cause, where the ticket has failed; else
the threads wait for it, D and CM pending. A lane that is not tied keeps its D, and CM tells whether D is plated. -/
def redemClaim (h : Hdr) (d : Opd) : WordClaim :=
  let ticket (w : Warp) (t : Nat) : Option Ticket := (w.tie t (w.dst d)).map fun i => Tab.get {} w.tickets i
  let lane (w : Warp) (t : Nat) : Nat := if (w.dst d).isK then 0 else t
  { x := { h := h, named := [(d, 1)], cm := true, once := uniform [d] }
    cause := fun y t _ => match ticket y.me t with
      | some k => causeIf (bitOf k.failed (lane y.me t)) ((Tab.get 0 k.value (lane y.me t)).setWidth 8) 0
      | none => none
    eff := fun y t ts =>
      let w := y.me
      let e := w.dst d
      let r := w.reg t e
      match ticket w t with
      | none => y.long ({ t := t, dst := e, val := r.data, tag := r.tag, plate := r.plate } ::
          ts.map fun u => { t := u, dst := .cm, val := if r.plate then 1 else 0 }) 0
      | some k =>
        if bitOf k.arrived (lane w t) then
          ((y.setMe (w.untieDst t e)).count y.cur.cl .guessesRedeemed 1).long
            ({ t := t, dst := e, val := Tab.get 0 k.value (lane w t), tag := convTag k.conv, plate := w.anyTaint ts } ::
              ts.map fun u => { t := u, dst := .cm, val := 0 }) 0
        else (y.setMe (ts.foldl (fun z u => z.pendDst u .cm) (w.putReg t e { r with pend := true }))).await ts (.redem e.isK e.num) }

/-- The words of the stash: accesses with granules, mappings, gathers and scatters; and prefetches and REDEM. -/
def stashClaim (s : State) : Instr → Option WordClaim
  | .ldh h scl conv d a b => some (ldhClaim s h scl conv.toNat d a b 0)
  | .ldhWf h scl conv d a b => some (ldhClaim s h scl conv.toNat d a b 1)
  | .ldhWfe h scl conv d a b => some (ldhClaim s h scl conv.toNat d a b 2)
  | .sth h scl acc conv a b c => some (sthClaim s h scl acc conv.toNat a b c 0)
  | .sthSf h scl acc conv a b c => some (sthClaim s h scl acc conv.toNat a b c 1)
  | .sthWesf h scl acc conv a b c => some (sthClaim s h scl acc conv.toNat a b c 2)
  | .smap h id a b c => some (onceClaim h [(.k a, 2), (.k b, 1), (.k c, 1)] (fun y ts => mapCause y (ts.headD 0) id.toNat a b c)
      fun y ts =>
        let cap := y.me.kPair a
        let e := y.descFor y.myWg (capObj cap)
        let z := y.unmap y.cur.cl y.cur.slot (ts.headD 0) ts id.toNat
        let m : Map :=
          { cap := cap, live := true, soff := (y.me.getK b).data.toNat, len := (y.me.getK c).data.toNat
            ro := !(capRights cap / 4 % 2 == 1 && e.rights / 4 % 2 == 1 && (e.kind == 0 || e.kind == 3)) }
        (z.setMyWg { z.myWg with maps := Tab.put z.myWg.maps id.toNat m }).modMyCluster fun q =>
          { q with mapped := q.mapped.filter fun p => !inMap (z.myWg.mapRange m) p.1 })
  | .sunmap h id => some (onceClaim h [] (fun _ _ => none) fun y ts => y.unmap y.cur.cl y.cur.slot (ts.headD 0) ts id.toNat)
  | .sflush h id => some (onceClaim h [] (fun _ _ => none) fun y ts =>
      let m := Tab.get {} y.myWg.maps id.toNat
      if m.live then (y.mapBack y.cur.cl y.cur.slot (ts.headD 0) ts m).getD y else y)
  | .pft h scl _ lvl line a b => some (pftClaim h ⟨a, b, scl⟩ lvl.toNat line)
  | .redem h d => some (redemClaim h d)
  | .gath h esz d a b c =>
    let size := 2 ^ (esz.toNat + 1)
    let g : Slice := { h := h, d := d, a := a, b := b, c := c, size := size
                       need := { rights := 8, kinds := [0, 2, 3, 5], size := size }, dAlign := 16, fills := true }
    some (sliceClaim g fun y ts =>
      let dest := (y.me.getK d).data.toNat
      let n := size * (y.me.getK c).data.toNat
      ((g.send y ts fun i => .gath (dest + size * i) i false).modMyCluster fun q =>
        (List.range ((n + 15) / 16)).foldl (fun z i => z.setFull (y.myWg.granule (dest + 16 * i)) false) q).count y.cur.cl .gathers 1)
  | .scatAddF32 h d a b c => some (scatClaim h d a b c 0)
  | .scatAddI32 h d a b c => some (scatClaim h d a b c 1)
  | .scatMin h d a b c => some (scatClaim h d a b c 2)
  | .scatMax h d a b c => some (scatClaim h d a b c 3)
  | .scatOr h d a b c => some (scatClaim h d a b c 4)
  | _ => none

/-! ### Atomics (R202 to R204) -/

/-- An atomic: `fn` as R202 numbers them; with a destination the old value comes back. -/
def atomClaim (s : State) (a : AtomWord) : WordClaim :=
  let once := uniform (a.d.toList ++ [a.m.a, a.m.b, a.c])
  { x := { h := a.h, once := once, cm := a.fn == 7
           named := (a.d.map fun o => (o, a.unit)).toList ++ a.m.named ++ [(a.c, a.cWidth)] }
    cause := fun y t ts => firstOf [memCause y t a.m [a.src]
        { rights := 2, kinds := [0, 3, 5] ++ if a.d.isSome then [8] else [], size := 4 * a.unit },
      causeIf (a.src.plated y.me t || y.me.anyTaint ts) Cause.plateEscape 3]
    eff := fun y t ts =>
      let w := y.me
      let r : Req :=
        { id := w.nextId, t := t, threads := ts, obj := capObj (a.m.cap w t), off := a.m.addr w t, size := 4 * a.unit
          strong := some a.sc, pc := s.cur.pc, marked := s.marks a.h, group := s.me.nextId
          op := .atom a.fn a.ty (a.value w t 0) (if a.fn = 7 then a.value w t 1 else 0) (a.d.map fun o => w.dst o) }
      match a.d with
      | none => y.numbered.addReq r once
      | some o =>
        let z := y.numbered.pendWide t (w.dst o) a.unit
        (if a.fn = 7 then ts.foldl (fun q u => q.pend u .cm) z else z).addReq r once }
def atClaim (s : State) (h : Hdr) (sc : Scope) (scl ty : BitVec 2) (d : Option Opd) (a b c : Opd) (fn : Nat) : WordClaim :=
  atomClaim s { h := h, m := ⟨a, b, scl⟩, fn := fn, ty := ty.toNat, sc := sc, d := d, c := c }
def atomicClaim (s : State) : Instr → Option WordClaim
  | .atAdd h sc scl ty d a b c => some (atClaim s h sc scl ty (some d) a b c 0)
  | .atMin h sc scl ty d a b c => some (atClaim s h sc scl ty (some d) a b c 1)
  | .atMax h sc scl ty d a b c => some (atClaim s h sc scl ty (some d) a b c 2)
  | .atAnd h sc scl ty d a b c => some (atClaim s h sc scl ty (some d) a b c 3)
  | .atOr h sc scl ty d a b c => some (atClaim s h sc scl ty (some d) a b c 4)
  | .atXor h sc scl ty d a b c => some (atClaim s h sc scl ty (some d) a b c 5)
  | .atExch h sc scl ty d a b c => some (atClaim s h sc scl ty (some d) a b c 6)
  | .atCas h sc scl ty d a b c => some (atClaim s h sc scl ty (some d) a b c 7)
  | .redAdd h sc scl ty a b c => some (atClaim s h sc scl ty none a b c 0)
  | .redMin h sc scl ty a b c => some (atClaim s h sc scl ty none a b c 1)
  | .redMax h sc scl ty a b c => some (atClaim s h sc scl ty none a b c 2)
  | .redAnd h sc scl ty a b c => some (atClaim s h sc scl ty none a b c 3)
  | .redOr h sc scl ty a b c => some (atClaim s h sc scl ty none a b c 4)
  | .redXor h sc scl ty a b c => some (atClaim s h sc scl ty none a b c 5)
  | _ => none

/-! ### Synchronisation (R87, R193 to R199, R209) -/

/-- The cause that a wait's read of its word meets. -/
def Look.cause : Look → Option (Byte × Dword)
  | .fails cause addr _ => some (cause, addr)
  | _ => none

def syncClaim (s : State) : Instr → Option WordClaim
  | .waitw h cond d a b c tmo scl sc =>
    let m : MemOpd := ⟨a, b, scl⟩
    let read (y : State) (t : Nat) (ts : List Nat) : Look :=
      y.look4 s.cur.cl s.cur.slot y.me.nextId ts (capObj (m.cap y.me t)) (m.addr y.me t) sc
    let once := uniform [d, a, b, c]
    some { x := { h := h, named := [(d, 1), (a, 2), (b, 1), (c, 1)], cm := true, once := once }
           cause := fun y t ts => firstOf [checkSrcs y.me t [srcA a .arith 2, srcB b, srcC c],
             checkPlates y.me t [srcA a .arith 2, srcB b], causeIf ((srcC c).plated y.me t) Cause.plateControl 0,
             y.checkAccess y.myWg (m.cap y.me t) (m.addr y.me t) { rights := 8, kinds := [0, 2, 3, 5, 6], size := 4 },
             (read y t ts).cause]
           eff := fun y t ts =>
             let n := y.me.val t c
             let why : WaitFor := .waitw cond sc tmo.toNat (capObj (m.cap y.me t)) (m.addr y.me t) n (y.me.dst d)
             match read y t ts with
             | .value z v => if condHolds cond v n then z.waited s.cur.cl s.cur.slot ts (y.me.dst d) v true
               else (z.untied t (y.me.dst d)).await ts why once
             | .waits z => (z.untied t (y.me.dst d)).await ts why once
             | .fails _ _ z => z }
  | .bind h d a b c =>
    let l : List Src := [srcA (.k a) .arith 2, srcB (.k b) .arith 2, srcC (.k c)]
    some { x := { h := h, named := [(.k d, 1), (.k a, 2), (.k b, 2), (.k c, 1)], cm := true, once := true }
           cause := fun y t _ =>
             let region := y.me.kPair a
             let len := (y.me.getK c).data.toNat
             firstOf [checkSrcs y.me t l, checkPlates y.me t (l.take 2),
               firstCause [y.checkRange y.myWg region (capOff region) { rights := 8, kinds := [0, 3, 5], size := len } 256,
                 causeIf (decide (len % 256 ≠ 0 ∨ len = 0)) Cause.align (objAddr (capObj region) (capOff region)),
                 y.syncCause y.myWg (y.me.kPair b)]]
           eff := fun y t ts =>
             let p := resultPlate y.me t ts l
             match y.bindStep y.myCtx (y.me.kPair a) (y.me.kPair b) (y.me.getK c).data.toNat with
             | .inl r => (y.writeReg t (.k d) (BitVec.ofNat 32 (2 ^ 31 + r)) 0 p).lateCm s.cur.cl s.cur.slot ts false
             | .inr (i, z) => (z.writeReg t (.k d) (BitVec.ofNat 32 i) 0 p).lateCm s.cur.cl s.cur.slot ts true }
  | .bindUn h a =>
    some { x := { h := h, named := [(.k a, 1)], cm := true, once := true }
           cause := fun y t _ => firstOf [checkSrcs y.me t [srcA (.k a)], checkPlates y.me t [srcA (.k a)]]
           eff := fun y _ ts =>
             let i := (y.me.getK a).data.toNat
             let e := y.bindAt y.myCtx i
             if i < 256 ∧ y.bindValid y.myCtx i then
               ((((y.setPd e 0 0).setPd e 1 0).setPd e 2 0).setPd e 3 0).lateCm s.cur.cl s.cur.slot ts true
             else y.lateCm s.cur.cl s.cur.slot ts false }
  | .acq h tmo sc a b =>
    let l : List Src := [srcA (.k a) .arith 2, srcB (.k b)]
    let try_ (y : State) (ts : List Nat) : Look ⊕ State :=
      y.acqTry s.cur.cl s.cur.slot y.me.nextId ts sc (capObj (y.me.kPair a)) (capOff (y.me.kPair a)) (y.me.getK b).data false
    some { x := { h := h, named := [(.k a, 2), (.k b, 1)], cm := true, once := true, sync := true }
           cause := fun y t ts => firstOf [checkSrcs y.me t l, checkPlates y.me t (l.take 1), y.syncCause y.myWg (y.me.kPair a),
             match try_ y ts with
             | .inl z => z.cause
             | .inr _ => none]
           eff := fun y _ ts => match try_ y ts with
             | .inr z => z
             | .inl (.waits z) => z.await ts (.acq sc tmo.toNat (capObj (y.me.kPair a)) (capOff (y.me.kPair a)) (y.me.getK b).data)
             | .inl (.value z _) => z
             | .inl (.fails _ _ z) => z }
  | .rel h sc a =>
    some { x := { h := h, named := [(.k a, 2)], once := true, sync := true }
           cause := fun y t _ => firstOf [checkSrcs y.me t [srcA (.k a) .arith 2], checkPlates y.me t [srcA (.k a) .arith 2],
             y.syncCause y.myWg (y.me.kPair a)]
           eff := fun y _ ts => y.await ts (.rel sc (capObj (y.me.kPair a)) (capOff (y.me.kPair a))) }
  | .fence h sc =>
    some { x := { h := h, sync := true }, cause := fun _ _ _ => none, eff := fun y t _ => y.await [t] (.fence sc) }
  | .publ h a =>
    some { x := { h := h, named := [(.k a, 2)], cm := true, once := true }
           cause := fun y t ts =>
             let cap := y.me.kPair a
             firstOf [checkSrcs y.me t [srcA (.k a) .arith 2],
               causeIf (resultPlate y.me t ts [srcA (.k a) .arith 2]) Cause.plateEscape 1,
               (y.checkRange y.myWg cap 0 { rights := 1, kinds := [0, 3], size := 0 } 1).map fun q =>
                 (q.1, objAddr (capObj cap) (capOff cap))]
           eff := fun y _ ts =>
             let obj := capObj (y.me.kPair a)
             if (y.shadowOf y.myCtx obj).any fun q => q.deferred then y.await ts (.publ obj)
             else y.lateCm s.cur.cl s.cur.slot ts false }
  | _ => none

/-! ### Tarnish memory (R248 to R252) -/

/-- A tarnish word: each lane is checked, its results pend, and its access is on its way. -/
def tarnClaim (s : State) (a : TarnWord) : WordClaim :=
  let plated (y : State) (t : Nat) (ts : List Nat) : Bool := (a.data.any fun z => z.plated y.me t) || y.me.anyTaint ts
  { x := { h := a.h, once := uniform (a.d.toList ++ [a.m.a, a.m.b] ++ a.c.toList), cm := decide (a.kind < 3)
           named := (a.d.map fun o => (o, 1)).toList ++ a.m.named ++ (a.c.map fun o => (o, 1)).toList }
    cause := fun y t ts =>
      let here := (y.descFor y.myWg (capObj (a.m.cap y.me t))).plc == dieOf s.cur.cl + 1
      firstOf [memCause y t a.m [] { rights := a.rights, kinds := if here then [1] else [], size := a.size }, checkSrcs y.me t a.data,
        causeIf (a.kind == 1 && plated y t ts && !a.acc) Cause.plateEscape 3,
        causeIf ((a.kind == 2 || a.kind == 4) && y.me.anyTaint ts) Cause.plateEscape 0]
    eff := fun y t ts =>
      let w := y.me
      let z := y.numbered.count s.cur.cl .platedStores (a.kind == 1 && plated y t ts).toNat
      let z1 := match a.d with
        | some o => z.pend t (w.dst o)
        | none => z
      (if a.kind < 3 then ts.foldl (fun q u => q.pend u .cm) z1 else z1).addReq (once := uniform (a.d.toList ++ [a.m.a, a.m.b] ++ a.c.toList))
        { id := w.nextId, t := t, threads := ts, obj := capObj (a.m.cap w t), off := a.m.addr w t, size := a.size
          taint := w.anyTaint ts, tts := w.taints ts, pc := s.cur.pc, marked := s.marks a.h, group := s.me.nextId
          op := .tarn a.kind a.conv (match a.c with
            | some o => w.val t o
            | none => 0) (a.d.map fun o => w.dst o) } }
def tarnishClaim (s : State) : Instr → Option WordClaim
  | .tld h scl conv d a b => some (tarnClaim s { h := h, m := ⟨a, b, scl⟩, kind := 0, rights := 8, size := 4, conv := conv.toNat, d := some d })
  | .tst h scl acc conv a b c => some (tarnClaim s
      { h := h, m := ⟨a, b, scl⟩, kind := 1, rights := 4, size := 4, conv := conv.toNat, acc := acc, c := some c })
  | .burn h scl a b => some (tarnClaim s { h := h, m := ⟨a, b, scl⟩, kind := 2, rights := 12, size := 1 })
  | .life h scl d a b => some (tarnClaim s { h := h, m := ⟨a, b, scl⟩, kind := 3, rights := 8, size := 1, d := some d })
  | .tinit h scl a b => some (tarnClaim s { h := h, m := ⟨a, b, scl⟩, kind := 4, rights := 4, size := 1 })
  | _ => none

end Sys2Proof.Machine
end

