-- ==== Sys2Proof/Safety/Units.lean ====
section
/-! DEFINITION. Terms of the claims about the words of the Anvil, of models and attention, of fabric reductions, and LNCH and
WCAN: for each, its frame, what it meets, and its effect. -/

namespace Sys2Proof.Machine

/-! ### Words that can wait in issue (R190, R212, R219, R232, R321) -/

/-- The word makes a strong access as it issues (R242, R262, R266). -/
def isStrongService : Instr → Bool
  | .ldone .. => true
  | .lqry .. => true
  | .pfxm .. => true
  | .pfxpPin .. => true
  | .pfxpUnpin .. => true
  | .pfxpInsert .. => true
  | _ => false
/-- The words of the queue of the Anvil (R212). -/
def isQueued : Instr → Bool
  | .mma .. => true
  | .mmas .. => true
  | .mmah .. => true
  | .assay .. => true
  | .accz .. => true
  | .accsig .. => true
  | _ => false
/-- The word's place in the order of its cycle (R232) has not gone by: the state in which it issues, the lanes that come before it in
that order having acted (R20). -/
def State.inPlace (s : State) (n : Nat) : Option State :=
  if s.myCluster.mayStage n then some ((s.lanesTo s.cur.cl n).modMyCluster fun x => x.toStage n) else none
/-- A mapping can be written back as its threads' word issues, or is not live: their earlier stores to it are performed (R122, R176). -/
def State.mapTurn (s : State) (x : Shape) (id : Nat) : Option State :=
  if s.acting x = [] ∨ s.mapGoes (s.acting x) id = true then some s else none
/-- What a gather or scatter reads of the stash as it issues: its threads' earlier stores there are performed (R122, R181). -/
def State.readTurn (s : State) (x : Shape) (regs : List Nat) (c : Nat) : Option State :=
  if regs.any (fun n => s.me.openIn (s.acting x) (s.me.getK n).data.toNat (4 * (s.me.getK c).data.toNat)) then none else some s
/-- BIND and BIND.un, whose step is at a table outside the cluster. -/
def isBind : Instr → Bool
  | .bind .. => true
  | .bindUn .. => true
  | _ => false
/-- The state in which the word issues; none where it waits in issue: for its place in the cycle (R232), for room in the queue
(R212), for the cycle after an OREL of its slot (R219), for its threads' earlier strong accesses (R190) or stores to the stash (R122), or
for the end of a handshake (R321). -/
def State.turnOf (s : State) (x : Shape) (i : Instr) : Option State :=
  if isStrongService i then
    (if s.myCluster.crossing = true ∨ s.strongTurn s.cur.cl s.cur.slot s.me.nextId (s.acting x) 0 0 = false then none else some s)
  else if isBind i then (if s.myCluster.crossing then none else some s)
  else if isQueued i then
    (if s.me.guarded x.h.g 0 = false ∨ (s.myCluster.queue.length < 8 ∧ s.myCluster.mayStage 2 = true) then some s else none)
  else match i with
    | .accrd .. => s.inPlace 40
    | .accrel .. => s.inPlace 3
    | .accwr .. => s.inPlace (5 + s.me.num)
    | .ofill _ _ _ _ _ d _ _ _ => if (s.me.getK d).data.toNat % 64 ∈ s.myCluster.orels then none else some s
    | .ofillAssay _ d _ _ => if (s.me.getK d).data.toNat % 64 ∈ s.myCluster.orels then none else some s
    | .smap _ id .. => s.mapTurn x id.toNat
    | .sunmap _ id => s.mapTurn x id.toNat
    | .sflush _ id => s.mapTurn x id.toNat
    | .gath _ _ _ _ b c => s.readTurn x [b] c
    | .scatAddF32 _ d _ b c => s.readTurn x [b, d] c
    | .scatAddI32 _ d _ b c => s.readTurn x [b, d] c
    | .scatMin _ d _ b c => s.readTurn x [b, d] c
    | .scatMax _ d _ b c => s.readTurn x [b, d] c
    | .scatOr _ d _ b c => s.readTurn x [b, d] c
    | _ => some s

/-! ### The bench side of the Anvil (R220, R221, R234 to R237) -/

/-- The row check of R235, with the access to the row it then makes. -/
def rowClaim (h : Hdr) (d : List Opd) (a : Opd) (b c : Option Opd) (cause : State → Nat → List Nat → Nat → Option (Byte × Dword))
    (eff : State → Nat → List Nat → Nat → Nat → State) : WordClaim :=
  { x := { h := h, named := (d ++ [a] ++ b.toList ++ c.toList).map fun o => (o, 1), once := uniform (d ++ [a] ++ b.toList ++ c.toList) }
    cause := fun y t ts => firstOf [rowCheck y t a b c, cause y t ts (y.me.val t a).toNat]
    eff := fun y t ts => eff y t ts (y.me.val t a).toNat ((b.map fun o => (y.me.val t o).toNat).getD 0) }

/-- Words that act lane by lane; the kernel has an `.acc` section. -/
def anvilBenchClaim (s : State) : Instr → Option WordClaim
  | .awset h n a b =>
    let w := n.toNat
    let l := [srcA (.k a), srcB (.k b)]
    some { x := { h := h, named := [(.k a, 1), (.k b, 1)], once := true }
           cause := fun y t _ => firstOf [checkSrcs y.me t l, checkPlates y.me t l,
             causeIf (decide (w ≥ y.myWg.warps ∨ (y.me.getK a).data.toNat > (y.me.getK b).data.toNat ∨ (y.me.getK b).data.toNat > 1024))
               Cause.accWindow (BitVec.ofNat 64 w)]
           eff := fun y _ _ =>
             match (y.myCluster.benchOf y.me.entry).find? fun k => (y.myCluster.warp k).num == w with
             | some k => y.modWarp s.cur.cl k fun z => z.setWindow s.myCluster.cyc y.me.num (y.me.getK a).data (y.me.getK b).data
             | none => y }
  | .accrd h d a b => some (rowClaim h [d] a (some b) none (fun _ _ _ _ => none) fun y t ts row col =>
      (y.pend t (y.me.dst d)).inLane (y.laneAct t ts (uniform [d, a, b]) (.accrd row col (y.me.dst d) (y.me.anyTaint ts))))
  | .accrdW h d a b => some (rowClaim h [d] a (some b) none (fun _ _ _ _ => none) fun y t ts row col =>
      (y.numbered.pend t (y.me.dst d)).addReq (once := uniform [d, a, b])
        { id := y.me.nextId, t := t, threads := ts, obj := 0, off := 0, size := 0, taint := y.me.anyTaint ts
          op := .accrd row col (y.me.dst d), pc := s.cur.pc, marked := s.marks h
          word := s.cur.word })
  | .accwr h a b c => some (rowClaim h [] a (some b) (some c)
      (fun y t ts row => firstOf [causeIf ((y.me.read t c).plate || y.me.anyTaint ts) Cause.plateEscape 3,
        causeIf (y.oneLane (uniform [a, b, c]) && y.myCluster.busyRow row) Cause.accBusy (BitVec.ofNat 64 row)])
      fun y t ts row col => y.inLane (y.laneAct t ts (uniform [a, b, c])
        (.accwr row col { data := (y.me.read t c).data, int := (y.me.read t c).tag == 0 })))
  | .accrel h a => some (rowClaim h [] a none none (fun _ _ _ _ => none) fun y t ts row _ =>
      (y.numbered.addReq (once := uniform [a])
        { id := y.me.nextId, t := t, threads := ts, obj := 0, off := 0, size := 0, op := .accrel row, pc := s.cur.pc
          word := s.cur.word }).release s.cur.cl s.cur.slot)
  | _ => none

/-- What a lane leaves in its own cycle (R20), in the state `t`: OFILL's bytes, and the mark of a row that it fills (R220), where the slot
still stands under the claim that the word named (the model's choice, log 84); ACCWR's word, or where the row is busy by then a lane
that meets ACCBUSY at the end of its word (R237, log 84); the long result of ACCRD (R236). -/
def State.laneLeaves (s t : State) (c : Nat) (a : LaneAct) : Prop :=
  let x := s.cluster c
  let y := t.cluster c
  t.mem = s.mem ∧ match a.act with
  | .fill n gen side i l =>
    if (x.op n).st ≠ .free ∧ (x.op n).gen = gen then
      (∀ j b, l[j]? = some b → Tab.get 0 (if side then (y.op n).side else (y.op n).data) (i + j) = b) ∧ y.rows = x.rows ∧
        ∀ m, m ≠ n → y.op m = x.op m
    else y = x
  | .mark n gen row =>
    if (x.op n).st ≠ .free ∧ (x.op n).gen = gen then y.op n = (x.op n).mark x.cyc row ∧ ∀ m, m ≠ n → y.op m = x.op m else y = x
  | .accwr row col v =>
    if x.queue.any (fun e => inRows e.op.rows row) = true then
      y.acts = x.acts ++ [{ a with cyc := a.last, act := .busy row }] ∧ y.rows = x.rows
    else y.accWord row col = v ∧ y.acts = x.acts ∧ ∀ r q, (r, q) ≠ (row, col) → y.accWord r q = x.accWord r q
  | .busy _ => t = s
  | .accrd row col d plate => ∀ w, look x.warps a.slot = some w → w.retiring = false →
    ∃ l, (y.warp a.slot).longs = w.longs ++ [l] ∧ l.writes =
      [{ t := a.t, dst := d, val := (x.accWord row col).data, tag := if (x.accWord row col).int then 0 else 1, plate := plate }]

/-- One lane of OFILL: where in the slot its bytes go, in the lane's cycle. -/
def fillClaim (h : Hdr) (ns sb : Bool) (conv : Nat) (d : Nat) (a b c : Opd) : WordClaim :=
  let size := convSize conv
  let rowBytes := if sb then 4 else 128
  { x := { h := h, named := [(.k d, 1), (a, 1), (b, 1), (c, 1)], once := uniform [a, b, c], handle := fillCause d }
    cause := fun y t ts =>
      let row := (y.me.val t a).toNat
      let off := (y.me.val t b).toNat
      firstOf [checkSrcs y.me t [srcA a, srcB b], checkPlates y.me t [srcA a, srcB b], checkSrcs y.me t [dataSrc c conv],
        causeIf (decide (row ≥ 128 ∨ off + size > rowBytes)) Cause.bounds (rowAddr row off),
        causeIf (off % size != 0) Cause.align (rowAddr row off),
        causeIf ((y.me.read t c).plate || y.me.anyTaint ts) Cause.plateEscape 3]
    eff := fun y t ts =>
      let r := convStore conv ns (y.me.val t c)
      let n := (y.me.getK d).data.toNat % 64
      (y.orSt r.2).inLane (y.laneAct t ts (uniform [a, b, c]) (.fill n (y.myCluster.op n).gen sb
        (rowBytes * (y.me.val t a).toNat + (y.me.val t b).toNat) (leBytes size r.1))) }

/-- OFILL and OFILL.assay; the kernel has an `.acc` section. -/
def anvilFillClaim (s : State) : Instr → Option RunClaim
  | .ofill h rf ns sb conv d a b c =>
    let q := fillClaim h ns sb conv.toNat d a b c
    some { x := q.x
           ok := fun y ts => q.passes y ts
           eff := fun y ts =>
             let z := q.perform y ts
             if rf then z.markLanes ((y.me.getK d).data.toNat % 64) (uniform [a, b, c]) (fun t => (y.me.val t a).toNat) ts else z }
  | .ofillAssay h d a c =>
    some { x := { h := h, named := [(.k d, 1), (.k a, 1), (c, 1)], once := true, handle := fillCause d }
           ok := fun y ts => ts.all fun t => (assayLane y.me t a c).isNone
           eff := fun y ts =>
             if ts = [] then y
             else
               let v (t : Nat) : Word := y.me.val t c
               let scale := assayRowScale (ts.flatMap fun t => [v t <<< 16, v t &&& 0xFFFF0000])
               let qs := (List.range 32).flatMap fun t =>
                 if t ∈ ts then [assayQuant scale (v t <<< 16), assayQuant scale (v t &&& 0xFFFF0000)] else [(0, false), (0, false)]
               let row := (y.me.getK a).data.toNat
               let n := (y.me.getK d).data.toNat % 64
               let z := y.modMyCluster fun q =>
                 (q.fillBytes n false (128 * row) (assayPack (qs.map fun p => p.1) ++ List.replicate 96 0)).fillBytes n true (4 * row)
                   (leBytes 4 scale.toNat)
               (z.markRows s.cur.cl n [row]).orSt (if qs.any fun p => p.2 then Flag.nv else 0) }
  | _ => none

/-! ### The control core (R217 to R219, R222 to R229, R233) -/

/-- An Anvil operation with a valid window: it enters the queue, and its later results pend. -/
def queueClaim (a : AnvilWord) : RunClaim :=
  { x := { h := a.h, named := a.regs.map fun n => (.g n, 1), hnum := a.hnum, handle := fun y => slotCause y (a.handles y.me) }
    ok := fun y ts => ts.isEmpty || (a.check y.me).isNone
    eff := fun y ts =>
      if ts = [] then y
      else
        a.long.foldl (fun v d => v.pend 0 d) (y.modMyCluster fun q =>
          { q with queue := q.queue ++ [{ op := a.op y.me, entered := q.cyc }], stage := max q.stage 2 }) }
/-- Slots that a handle in register `a` names. -/
def slotsOf (w : Warp) (a n : Nat) : List Nat := (List.range n).map fun i => (w.gval a).toNat % 64 + i
def slotClaim (h : Hdr) (a n : Nat) (eff : State → List Nat → State) : RunClaim :=
  { x := { h := h, named := [(.g a, 1)], handle := fun y => slotCause y (handles (y.me.gval a) n) }
    eff := fun y ts => if ts = [] then y else eff y (slotsOf y.me a n) }
/-- The rows of ACCZ and ACCSIG. -/
def rowsClaim (h : Hdr) (a b : Nat) (op : Nat → Nat → AOp) : RunClaim :=
  queueClaim
    { h := h, regs := [a, b], handles := fun _ => []
      check := fun w => causeIf (decide ((w.gval b).toNat > 1024)) Cause.accWindow ((w.gval b).setWidth 64)
      op := fun w => op (w.gval a).toNat (w.gval b).toNat }
/-- A hallmark register gets a value. -/
def hallmarkClaim (h : Hdr) (hnum : List Nat) (d : Nat) (f : Warp → BitVec 256) : RunClaim :=
  { x := { h := h, hnum := hnum }, eff := fun y ts => if ts = [] then y else y.modMe fun w => { w with h := Tab.put w.h d (f w) } }
/-- The bits from `lo` to `lo + n`, those beyond bit 255 left out. -/
def spanBits (lo n : Nat) : BitVec 256 := BitVec.ofNat 256 (2 ^ (n + 1) - 1) <<< lo
/-- Bits of a hallmark register chosen one by one. -/
def hmBits (f : Nat → Bool) : BitVec 256 := BitVec.ofNat 256 ((List.range 256).map fun i => if f i then 2 ^ i else 0).sum

def coreClaim (s : State) : Instr → Option RunClaim
  | .oclm h d n => some
      { x := { h := h, named := [(.g d, 1)], cm := true }
        eff := fun y ts =>
          if ts = [] then y
          else
            let p := y.myCluster.claim y.me.entry n.toNat
            (((y.setCluster s.cur.cl { p.2 with
                claims := p.2.claims ++ [{ id := p.2.nextId, dst := d, handle := p.1, at_ := y.myCluster.cyc }]
                nextId := p.2.nextId + 1 }).pend 0 (.k d)).pend 0 .cm) }
  | .owait h a n => some (slotClaim h a n.toNat fun y l =>
      if l.all fun i => (y.myCluster.op i).st == .full then y else y.await [0] (.owait (y.me.gval a) n.toNat))
  | .orel h a n => some (slotClaim h a n.toNat fun y l =>
      if y.myCluster.readsAny l then y.await [0] (.orel (y.me.gval a) n.toNat false)
      else (y.fillsNow s.cur.cl).modMyCluster fun q => { (l.foldl (fun z i => z.setOp i {}) q) with orels := q.orels ++ l })
  | .orelRe h a n => some (slotClaim h a n.toNat fun y l =>
      if y.myCluster.readsAny l then y.await [0] (.orel (y.me.gval a) n.toNat true)
      else (y.fillsNow s.cur.cl).modMyCluster fun q =>
        { (l.foldl (fun z i => z.setOp i { st := .claimed, gen := (z.op i).gen, entry := (z.op i).entry }) q) with orels := q.orels ++ l })
  | .mma h fmt mx d a b =>
    let n := if fmt.toNat = 5 ∧ mx then 2 else 1
    some (queueClaim
      { h := h, regs := [d, a, b], handles := fun w => handles (w.gval a) n ++ handles (w.gval b) n
        check := fun w => causeIf (decide ((w.gval d).toNat + 128 > 1024)) Cause.accWindow ((w.gval d).setWidth 64)
        op := fun w => .mma fmt.toNat mx (w.gval d).toNat ((w.gval a).toNat % 64) ((w.gval b).toNat % 64) })
  | .mmas h pat fmt d a b c => some (queueClaim
      { h := h, regs := [d, a, b, c]
        handles := fun w => w.gval a :: handles (w.gval b) (if pat.toNat = 0 then 2 else 4) ++ [w.gval c]
        check := fun w => causeIf (decide ((w.gval d).toNat + 128 > 1024)) Cause.accWindow ((w.gval d).setWidth 64)
        op := fun w => .mmas pat.toNat fmt.toNat (w.gval d).toNat ((w.gval a).toNat % 64) ((w.gval b).toNat % 64)
          ((w.gval c).toNat % 64) })
  | .mmah h pv cnt1 bit hr fmt fill mx d a b =>
    let cnt := cnt1.toNat + 1
    let n := if fmt.toNat = 5 ∧ mx then 2 else 1
    some (queueClaim
      { h := h, regs := [d, a, b], hnum := [hr.toNat]
        handles := fun w => handles (w.gval a) (if pv then n * cnt else n) ++ handles (w.gval b) (n * cnt)
        check := fun w => causeIf (decide ((w.gval d).toNat + (if pv then 128 else 128 * cnt) > 1024)) Cause.accWindow
          ((w.gval d).setWidth 64)
        op := fun w => .mmah pv cnt fmt.toNat fill mx (w.gval d).toNat ((w.gval a).toNat % 64) ((w.gval b).toNat % 64)
          (Tab.get 0 w.h hr.toNat) bit.toNat })
  | .assay h bit hr sink loc cnt1 d a b c =>
    let cnt := cnt1.toNat + 1
    some (queueClaim
      { h := h, regs := [d, a, b, c], hnum := [hr.toNat], handles := fun w => w.gval a :: handles (w.gval b) cnt, check := fun _ => none
        op := fun w => .assay bit.toNat hr.toNat cnt sink loc ((w.gval a).toNat % 64) ((w.gval b).toNat % 64) (w.gval c) (w.gval d) d
        long := [.k d, .h hr.toNat] })
  | .accz h a b => some (rowsClaim h a b .accz)
  | .accsig h a b => some (rowsClaim h a b .accsig)
  | .hmopAnd h d a b => some (hallmarkClaim h [d, a, b] d fun w => hmBits fun i =>
      (Tab.get 0 w.h a).getLsbD i && (Tab.get 0 w.h b).getLsbD i)
  | .hmopOr h d a b => some (hallmarkClaim h [d, a, b] d fun w => hmBits fun i =>
      (Tab.get 0 w.h a).getLsbD i || (Tab.get 0 w.h b).getLsbD i)
  | .hmopAndn h d a b => some (hallmarkClaim h [d, a, b] d fun w => hmBits fun i =>
      (Tab.get 0 w.h a).getLsbD i && !(Tab.get 0 w.h b).getLsbD i)
  | .hmopSet h d lo n1 => some (hallmarkClaim h [d] d fun w => hmBits fun i =>
      (Tab.get 0 w.h d).getLsbD i || decide (lo.toNat ≤ i ∧ i ≤ lo.toNat + n1.toNat))
  | .hmopClear h d lo n1 => some (hallmarkClaim h [d] d fun w => hmBits fun i =>
      (Tab.get 0 w.h d).getLsbD i && !decide (lo.toNat ≤ i ∧ i ≤ lo.toNat + n1.toNat))
  | .hmopCount h d a lo n1 => some
      { x := { h := h, named := [(.g d, 1)], cm := true, hnum := [a] }
        eff := fun y ts =>
          if ts = [] then y
          else
            let n := ((List.range 256).filter fun i =>
              (Tab.get 0 y.me.h a).getLsbD i && decide (lo.toNat ≤ i ∧ i ≤ lo.toNat + n1.toNat)).length
            (y.writeReg 0 (.k d) (BitVec.ofNat 32 n) 0 false).writeCm 0 (decide (0 < n)) false }
  | _ => none

/-! ### Models, KV caches, prefixes, queues, merging, rings (R241, R242, R262 to R272) -/

/-- A word performed once, long on CM at least. -/
def serviceClaim (h : Hdr) (named : List (Opd × Nat)) (handle : State → Option (Byte × Dword))
    (cause : State → Nat → List Nat → Option (Byte × Dword)) (eff : State → Nat → List Nat → State) : WordClaim :=
  { x := { h := h, named := named, cm := true, once := true, handle := handle }, cause := cause, eff := eff }
/-- Sources, then plates of every one. -/
def plainOf (l : List Src) (y : State) (t : Nat) (_ : List Nat) : Option (Byte × Dword) := firstOf [checkSrcs y.me t l, checkPlates y.me t l]
/-- A capability's address, where a check of its kind and rights fails. -/
def kindCause (y : State) (cap : Dword) (n : Need) : Option (Byte × Dword) :=
  (y.checkRange y.myWg cap 0 { n with size := 0 } 1).map fun q => (q.1, objAddr (capObj cap) (capOff cap))

/-- A word on a prefix table. -/
def prefixClaim (h : Hdr) (d : Option Nat) (a b : Nat) (c : Option Nat) (eff : State → List Nat → Nat → Dword → State) : WordClaim :=
  let ab := [srcA (.k a), srcB (.k b) .arith 2]
  let cs := (c.map fun n => srcC (.k n) .arith 2).toList
  serviceClaim h ((d.map fun n => (Opd.k n, 2)).toList ++ [(.k a, 1), (.k b, 2)] ++ (c.map fun n => (Opd.k n, 2)).toList) (modelHandle a)
    (fun y t ts => firstOf [checkSrcs y.me t (ab ++ cs), checkPlates y.me t ab,
      causeIf (c.isSome && (cs.any (fun z => z.plated y.me t) || y.me.anyTaint ts)) Cause.plateEscape 3])
    fun y _ ts => eff y ts (y.pfxTable y.myCtx (y.me.getK a).data.toNat) (y.me.kPair b)
/-- PIN of the entry of a hash. -/
def pinEff (bit : Nat) (y : State) (ts : List Nat) (tab : Nat) (hash : Dword) : State :=
  match y.pfxFind tab hash with
  | some i => (y.setPd (tab + 32 * i) 0 (setField (y.pd (tab + 32 * i) 0) 62 1 bit)).long (y.me.cmWrites ts true) 0
  | none => y.long (y.me.cmWrites ts false) 0

def modelClaim (s : State) : Instr → Option WordClaim
  | .lwait h tmo d a b =>
    let ka := (s.me.dst a).num
    let kb := (s.me.dst b).num
    let m (y : State) : Nat := (y.me.getK ka).data.toNat
    let l (y : State) : Nat := (y.me.getK kb).data.toNat
    some (serviceClaim h [(d, 2), (a, 1), (b, 1)] (layerHandle ka kb)
      (fun y t ts => firstOf [plainOf (layerSrcs ka kb) y t ts, causeIf (y.layerFail y.myCtx (m y) (l y))
        ((y.layerDw y.myCtx (m y) (l y) 3).setWidth 8) (objAddr (y.layerObj y.myCtx (m y) (l y)) 0)])
      fun y t ts =>
        let z := (y.pendBoth t ts (y.me.dst d) 2).await ts (.lwait tmo.toNat (m y) (l y) (y.me.dst d))
        if y.layerState y.myCtx (m y) (l y) = 0 then z.askFetch y.myCtx (m y) (l y) else z)
  | .ldone h a b =>
    let ka := (s.me.dst a).num
    let kb := (s.me.dst b).num
    some (serviceClaim h [(a, 1), (b, 1)] (layerHandle ka kb) (plainOf (layerSrcs ka kb)) fun y _ ts =>
      let m := (y.me.getK ka).data.toNat
      let l := (y.me.getK kb).data.toNat
      let live := y.me.isLive m l
      (if live then (y.setLayer y.myCtx m l 32 16 (y.layerInUse y.myCtx m l - 1)).modMe fun q => q.dropHold m l else y).long
        (y.me.cmWrites ts live) 0)
  | .lqry h d a b =>
    let ka := (s.me.dst a).num
    let kb := (s.me.dst b).num
    some (serviceClaim h [(d, 1), (a, 1), (b, 1)] (layerHandle ka kb) (plainOf (layerSrcs ka kb)) fun y t ts =>
      let m := (y.me.getK ka).data.toNat
      let l := (y.me.getK kb).data.toNat
      let st := y.layerState y.myCtx m l
      let v := st + 4 * (y.me.isLive m l).toNat + 8 * ((y.me.holdOf m l).any fun q => !q.live).toNat + 16 * (y.layerFail y.myCtx m l).toNat +
        65536 * y.layerInUse y.myCtx m l
      y.long ({ t := t, dst := y.me.dst d, val := BitVec.ofNat 32 v, plate := y.me.anyTaint ts } :: y.me.cmWrites ts (st == 2)) 0)
  | .kvx h d a b c =>
    some { x := { h := h, named := [(d, 2), (.k a, 2), (b, 1), (c, 1)], cm := true, once := uniform [d, .k a, b, c] }
           cause := fun y t ts => firstOf [plainOf [srcA (.k a) .arith 2, srcB b, srcC c] y t ts,
             kindCause y (y.me.kPair a) { rights := 8, kinds := [0], size := 0 }]
           eff := fun y t ts =>
             let dir := y.me.kPair a
             let pos := (y.me.val t b).toNat
             let off := capOff dir + pos / 16 * 8
             if pos < 2 ^ 28 ∧ off + 8 ≤ (y.descFor y.myWg (capObj dir)).len then
               y.sendBoth h t ts (y.me.dst d) 2 (capObj dir) off 8 (some .pod) (.kvx (y.me.val t b) (y.me.val t c) none (y.me.dst d))
                 (uniform [d, .k a, b, c])
             else kvNull y t ts (y.me.dst d) }
  | .pfxh h d a b =>
    let sa := srcA (.k a) .arith 2
    let sb := srcB (.k b) .arith 2
    some { x := { h := h, named := [(.k d, 2), (.k a, 2), (.k b, 2)], once := true }
           cause := fun y t _ => firstOf [checkSrcs y.me t [sa, sb], checkPlates y.me t [sb],
             y.checkRange y.myWg (y.me.kPair b) (capOff (y.me.kPair b)) { rights := 8, kinds := [0, 2, 3, 5, 6], size := 64 } 4]
           eff := fun y t ts =>
             (y.numbered.pendWide t (.k d) 2).addReq (once := true)
               { id := y.me.nextId, t := t, threads := ts, obj := capObj (y.me.kPair b), off := capOff (y.me.kPair b), size := 64
                 taint := y.me.anyTaint ts || sa.plated y.me t, op := .pfxh (y.me.kPair a) (.k d), pc := s.cur.pc, marked := s.marks h
                 group := y.me.nextId } }
  | .pfxm h d a b => some (prefixClaim h (some d) a b none fun y ts tab hash =>
      let t := ts.headD 0
      match y.pfxFind tab hash with
      | some i =>
        let v := y.pd (tab + 32 * i) 2
        ((y.setUse tab i).long ([{ t := t, dst := .k d, val := loWord v, plate := y.me.anyTaint ts },
          { t := t, dst := .k (d + 1), val := hiWord v, plate := y.me.anyTaint ts }] ++ y.me.cmWrites ts true) 0).count y.cur.cl .pfxmHits 1
      | none =>
        let same (n : Nat) : LWrite :=
          { t := t, dst := .k n, val := (y.me.getK n).data, tag := (y.me.getK n).tag, plate := (y.me.getK n).plate }
        (y.long ([same d, same (d + 1)] ++ y.me.cmWrites ts false) 0).count y.cur.cl .pfxmMisses 1)
  | .pfxpPin h a b => some (prefixClaim h none a b none (pinEff 1))
  | .pfxpUnpin h a b => some (prefixClaim h none a b none (pinEff 0))
  | .pfxpInsert h a b c => some (prefixClaim h none a b (some c) fun y ts tab hash =>
      let v := y.me.kPair c
      match y.pfxFind tab hash with
      | some i => ((y.setPd (tab + 32 * i) 2 v).setUse tab i).long (y.me.cmWrites ts true) 0
      | none =>
        match y.pfxPlace tab with
        | some i =>
          ((((y.setPd (tab + 32 * i) 1 hash).setPd (tab + 32 * i) 2 v).setUse tab i).setPd (tab + 32 * i) 0 (BitVec.ofNat 64 (2 ^ 63))).long
            (y.me.cmWrites ts true) 0
        | none => (y.long (y.me.cmWrites ts false) 0).count y.cur.cl .pfxpFails 1)
  | .wqpop h d => some (serviceClaim h [(.k d, 2)] (fun _ => none) (fun _ _ _ => none) fun y t ts =>
      y.sendBoth h t ts (.k d) 2 y.myWg.wobj (y.myWg.woff + 52) 4 (some .dev) (.wqpop (.k d)))
  | .larr h sc d a b c =>
    some (serviceClaim h [(.k d, 1), (.k a, 2), (.k b, 2), (.k c, 1)] (fun _ => none)
      (fun y t ts =>
        let kb := y.me.kPair b
        let n := (y.me.getK c).data.toNat
        firstOf [plainOf [srcA (.k a) .arith 2, srcB (.k b) .arith 2, srcC (.k c)] y t ts,
          firstCause [y.syncCause y.myWg (y.me.kPair a),
            y.checkRange y.myWg kb (capOff kb) { rights := 8, kinds := [0, 3, 5], size := n } 1,
            causeIf (n == 0) Cause.bounds (objAddr (capObj kb) (capOff kb))]])
      fun y t ts =>
        let ka := y.me.kPair a
        let kb := y.me.kPair b
        y.sendBoth h t ts (.k d) 1 (capObj ka) (capOff ka) 4 (some sc) (.larr (capObj kb) (capOff kb) (y.me.getK c).data.toNat (.k d)))
  | .rnext h d a b =>
    some (serviceClaim h [(.k d, 2), (.k a, 2), (.k b, 1)] (fun _ => none)
      (fun y t ts => firstOf [plainOf [srcA (.k a) .arith 2, srcB (.k b)] y t ts,
        y.checkRange y.myWg (y.me.kPair a) (capOff (y.me.kPair a)) { rights := 8, kinds := [0, 2, 3, 5, 6], size := 544 } 8])
      fun y t ts => y.sendBoth h t ts (.k d) 2 (capObj (y.me.kPair a)) (capOff (y.me.kPair a)) 4 (some .pod)
        (.rnext (y.me.getK b).data none 0 (.k d)))
  | _ => none

/-! ### Fabric reductions (R296 to R300) -/

def fabricClaim (s : State) : Instr → Option WordClaim
  | .xra h op tmo n1 d a b c =>
    let n := n1.toNat + 1
    some (serviceClaim h [(.k d, 1), (.k a, 1), (.k b, 2), (.k c, 2)] (xrHandle a)
      (fun y t ts => firstOf [plainOf [srcA (.k a), srcB (.k b) .arith 2, srcC (.k c) .arith 2] y t ts,
        y.checkRange y.myWg (y.me.kPair c) (capOff (y.me.kPair c)) { rights := 4, kinds := [0], size := 16 + 4 * n } 16])
      fun y t ts => y.xrSend h t ts (y.me.getK a).data (.xra op.toNat n tmo.toNat (y.me.kPair b)) (y.me.kPair c) (some (.k d)))
  | .xrc h a c =>
    let elems (y : State) : List Reg := match y.joinOf (y.me.getK a).data with
      | some j => (List.range j.n).map fun i => y.me.getV (i % 32) (c + i / 32)
      | none => []
    let tag (y : State) : BitVec 2 := match y.joinOf (y.me.getK a).data with
      | some j => if j.op = 1 then 0 else 1
      | none => 0
    some { x := { h := h, cm := true, once := true, handle := xrHandle a, more := xrcSwitch a c
                  named := [(.k a, 1), (.v c, 1)] ++ if xrcCount a s > 32 then [(.v (c + 1), 1)] else [] }
           cause := fun y t ts => firstOf [plainOf [srcA (.k a)] y t ts, causeIf ((elems y).any fun r => r.tag == 3) Cause.uninit 3,
             causeIf ((elems y).any fun r => r.tag != tag y) Cause.format 3,
             causeIf ((elems y).any (fun r => r.plate) || y.me.anyTaint ts) Cause.plateEscape 3]
           eff := fun y t ts => match y.joinOf (y.me.getK a).data with
             | none => y.long (y.me.cmWrites ts false) 0
             | some _ => y.xrSend h t ts (y.me.getK a).data (.xrc ((elems y).map fun r => r.data)) 0 none }
  | .xrw h d a =>
    some (serviceClaim h [(.k d, 1), (.k a, 1)] (xrHandle a) (plainOf [srcA (.k a)]) fun y t ts =>
      match y.joinOf (y.me.getK a).data with
      | none => y.long ((.k d :: ts.map fun _ => .cm).zip (t :: ts) |>.map fun p =>
          ({ t := p.2, dst := p.1, val := 0, plate := y.me.anyTaint ts } : LWrite)) 0
      | some j => (y.pendBoth t ts (.k d) 1).await ts (.xrw j (.k d)))
  | .xrf h a =>
    some (serviceClaim h [(.k a, 1)] (xrHandle a) (plainOf [srcA (.k a)]) fun y t ts =>
      let hd := (y.me.getK a).data
      match y.joinOf hd with
      | none => y.long (y.me.cmWrites ts false) 0
      | some _ =>
        let z : State := { y with xrJoins := y.xrJoins.filter (fun j => j.handle != hd), xrFreed := y.xrFreed ++ (y.joinOf hd).toList }
        z.xrSend h t ts hd .xrf 0 none)
  | _ => none

/-! ### LNCH and WCAN (R91, R92, R277) -/

/-- LNCH goes: its load and its release are done, and the launch is accepted or not. -/
def State.goes (s : State) (ts : List Nat) (cap : Dword) : Bool := match s.lnchGo ts cap with
  | .done _ _ => true
  | _ => false
def Place.isFound : Place → Bool
  | .found _ => true
  | _ => false

def launchClaim (s : State) : Instr → Option RunClaim
  | .lnch h ka =>
    let x : Shape := { h := h, named := [(.k ka, 2)], cm := true, once := true }
    some { x := x
           ok := fun y ts => ts.isEmpty || ((lnchCause s (ts.headD 0) ts ka).isNone && (lnchCause y (ts.headD 0) ts ka).isNone &&
             s.goes ts (s.me.kPair ka) && y.goes ts (y.me.kPair ka))
           eff := fun y ts =>
             if ts = [] then y
             else match y.lnchGo ts (y.me.kPair ka) with
               | .done z ok => ts.foldl (fun q t => q.writeCm t ok false) z
               | _ => y }
  | .wcan h _ ka =>
    let cap := s.me.kPair ka
    let r : WorkId := { ctx := s.myCtx, obj := capObj cap, off := capOff cap }
    let l := [srcA (.k ka) .arith 2]
    let clear (y : State) (ts : List Nat) : Bool := (checkSrcs y.me (ts.headD 0) l).isNone &&
      (y.checkRange y.myWg cap (capOff cap) { rights := 1, kinds := [0], size := 64 } 64).isNone && !resultPlate y.me (ts.headD 0) ts l
    some { x := { h := h, named := [(.k ka, 2)], once := true }
           ok := fun y ts => ts.isEmpty || (clear s ts && clear y ts && y.myCtx == s.myCtx &&
             (s.placeFrom s.cur.cl s.me s.myCtx (capObj cap) (capOff cap) 64).isFound && s.cancelHere r [])
           eff := fun y ts =>
             if ts = [] then y
             else
               let z := y.setWorkBit r 58
               if z.workStatus r < 2 ∧ z.runningUnder r = false then z.cancelDone r [] else z }
  | _ => none

end Sys2Proof.Machine
end

