-- ==== Sys2Proof/Safety/Lanes.lean ====
section
/-! DEFINITION. Terms of the claims about the cross-lane words (R126, R147 to R153) and the pair words (R47 to R49), their
arithmetic written anew in whole numbers and bits. -/

namespace Sys2Proof.Machine

/-! ### Lanes of other threads -/

/-- A long word of which each active thread writes its D, from the registers as they stood at issue. -/
def laneClaim (x : Shape) (cause : State → Nat → Option (Byte × Dword)) (write : Warp → Nat → LWrite) : RunClaim :=
  { x := x
    ok := fun y ts => ts.all fun t => (cause y t).isNone
    eff := fun y ts => ts.foldl (fun z t => z.long [write y.me t] 0) y }
/-- The register of thread `u`, as `f` makes it, with its tag; plated by it or by the reader's taint (R147). -/
def takeOf (w : Warp) (t u : Nat) (d a : Opd) (f : Word → Word) : LWrite :=
  { t := t, dst := w.dst d, val := f (w.read u a).data, tag := (w.read u a).tag, plate := (w.read u a).plate || (w.thread t).tt }
/-- SHFL: `sel n l b` is the source lane of lane `l` of a tile of `n` threads. -/
def shflClaim (h : Hdr) (d a b : Opd) (sel : Nat → Nat → Nat → Nat) : RunClaim :=
  let from_ (w : Warp) (t : Nat) : Nat := t / w.tileSize * w.tileSize + sel w.tileSize (t % w.tileSize) (w.val t b).toNat
  laneClaim { h := h, named := [(d, 1), (a, 1), (b, 1)], more := crossSwitch h false a }
    (fun y t => firstOf [checkSrcs y.me t [srcB b], causeIf (y.me.read t b).plate Cause.plateAddr 2,
      causeIf ((y.me.read (from_ y.me t) a).tag == 3) Cause.uninit 1])
    fun w t => takeOf w t (from_ w t) d a id

/-! ### Votes, reductions, scans -/

/-- The arithmetic of an op of R151 over its contributors, with flags; the identity over none. -/
def redValue (op : RedOp) (l : List Word) : Word × Word :=
  match op with
  | .addI32 => (BitVec.ofInt 32 ((l.map BitVec.toInt).sum), 0)
  | .min => (BitVec.ofInt 32 ((l.map BitVec.toInt).foldl min (2 ^ 31 - 1)), 0)
  | .max => (BitVec.ofInt 32 ((l.map BitVec.toInt).foldl max (-(2 ^ 31))), 0)
  | .minN => (BitVec.ofNat 32 ((l.map BitVec.toNat).foldl min (2 ^ 32 - 1)), 0)
  | .maxN => (BitVec.ofNat 32 ((l.map BitVec.toNat).foldl max 0), 0)
  | .and => (bitsWord fun i => l.all fun w => w.getLsbD i, 0)
  | .or => (bitsWord fun i => l.any fun w => w.getLsbD i, 0)
  | .xor => (bitsWord fun i => (l.filter fun w => w.getLsbD i).length % 2 == 1, 0)
  | .addF32 => sumF32 l
  | .fmin => foldMinmax false l
  | .fmax => foldMinmax true l
/-- What the source of an op must be, and the tag of its result. -/
def redDiscipline (op : RedOp) : Disc := match op with
  | .addF32 | .fmin | .fmax => .tagged 1
  | .and | .or | .xor => .bits
  | _ => .arith
def redResultTag (op : RedOp) : BitVec 2 := match op with
  | .addF32 | .fmin | .fmax => 1
  | _ => 0

/-- A word over the active threads of each tile, or, for a k destination, of the run: `value` over the contributors as
(thread, data); `counts t u` says that thread `u` contributes to thread `t`. -/
def groupClaim (h : Hdr) (d a : Opd) (disc : Disc) (tag : BitVec 2) (value : List (Nat × Word) → Word × Word)
    (counts : Nat → Nat → Bool) (cmw : Bool) : RunClaim :=
  let k := uniform [d]
  let res (w : Warp) (us ts : List Nat) : Word × Word × Bool :=
    let v := value (us.map fun u => (u, w.val u a))
    (v.1, v.2, (us.any fun u => (w.read u a).plate) || w.anyTaint ts)
  let put (w : Warp) (r : Word × Word × Bool) (t : Nat) (cms : List Nat) : List LWrite :=
    { t := t, dst := w.dst d, val := r.1, tag := tag, plate := r.2.2 } ::
      (if cmw then cms.map fun u => { t := u, dst := .cm, val := r.1, plate := r.2.2 } else [])
  { x := { h := h, named := [(d, 1), (a, 1)], cm := cmw, once := k, more := crossSwitch h k a }
    ok := fun y ts => ts.all fun t => (checkSrcs y.me t [srcA a disc]).isNone
    eff := fun y ts =>
      let w := y.me
      if k then
        if y.cur.run = [] then y
        else if ts = [] then y.long [{ t := 0, dst := w.dst d, val := (value []).1, tag := tag }] Flag.noLane
        else
          let r := res w ts ts
          y.long (put w r (ts.headD 0) ts) r.2.1
      else if ts = [] then y
      else
        let order := ((ts.map fun t => w.tile t).eraseDups).flatMap fun g => ts.filter fun t => g.contains t
        let of (t : Nat) : Word × Word × Bool := res w (ts.filter fun u => (w.tile t).contains u && counts t u) [t]
        y.long (order.flatMap fun t => put w (of t) t [t]) ((order.map fun t => (of t).2.1).foldl (· ||| ·) 0) }
def reduxClaim (h : Hdr) (d a : Opd) (op : RedOp) : RunClaim :=
  groupClaim h d a (redDiscipline op) (redResultTag op) (fun l => redValue op (l.map Prod.snd)) (fun _ _ => true) false
def voteClaim (h : Hdr) (cmw : Bool) (d a : Opd) (value : List (Nat × Word) → Word) : RunClaim :=
  groupClaim h d a .bits 0 (fun l => (value l, 0)) (fun _ _ => true) cmw

/-- The cross-lane words. -/
def crossClaim : Instr → Option RunClaim
  | .shflIdx h d a b => some (shflClaim h d a b fun n _ b => b % n)
  | .shflUp h d a b => some (shflClaim h d a b fun _ l b => if b ≤ l then l - b else l)
  | .shflDown h d a b => some (shflClaim h d a b fun n l b => if l + b < n then l + b else l)
  | .shflXor h d a b => some (shflClaim h d a b fun n l b => l ^^^ (b % n))
  | .pswp h n d a =>
    let other (t : Nat) : Nat := if t % 2 = 0 then t + 1 else t - 1
    let turns (t : Nat) : Bool := match n with
      | .plain => false
      | .lo => t % 2 == 0
      | .hi => t % 2 == 1
    some (laneClaim { h := h, named := [(d, 1), (a, 1)], more := crossSwitch h false a }
      (fun y t => firstOf [causeIf ((y.me.read (other t) a).tag == 0 && n != .plain) Cause.format 1,
        causeIf ((y.me.read (other t) a).tag == 3) Cause.uninit 1])
      fun w t => takeOf w t (other t) d a fun v =>
        if turns t then v ^^^ (if (w.read (other t) a).tag = 1 then 0x80000000 else 0x80008000) else v)
  | .voteAny h cmw d a => some (voteClaim h cmw d a fun l => if ∃ p ∈ l, p.2 ≠ 0 then 1 else 0)
  | .voteAll h cmw d a => some (voteClaim h cmw d a fun l => if ∀ p ∈ l, p.2 ≠ 0 then 1 else 0)
  | .voteBallot h d a => some (voteClaim h false d a fun l => bitsWord fun i => decide (∃ p ∈ l, p.1 = i ∧ p.2 ≠ 0))
  | .reduxAddI32 h d a => some (reduxClaim h d a .addI32)
  | .reduxAddF32 h d a => some (reduxClaim h d a .addF32)
  | .reduxMin h d a => some (reduxClaim h d a .min)
  | .reduxMax h d a => some (reduxClaim h d a .max)
  | .reduxMinN h d a => some (reduxClaim h d a .minN)
  | .reduxMaxN h d a => some (reduxClaim h d a .maxN)
  | .reduxFmin h d a => some (reduxClaim h d a .fmin)
  | .reduxFmax h d a => some (reduxClaim h d a .fmax)
  | .reduxAnd h d a => some (reduxClaim h d a .and)
  | .reduxOr h d a => some (reduxClaim h d a .or)
  | .reduxXor h d a => some (reduxClaim h d a .xor)
  | .scan h excl op d a => some (groupClaim h d a (redDiscipline op) (redResultTag op) (fun l => redValue op (l.map Prod.snd))
      (fun t u => decide (u < t) || (!excl && u == t)) false)
  | .rdln h tile d => some (laneClaim { h := h, named := [(d, 1)] } (fun _ _ => none) fun w t =>
      { t := t, dst := w.dst d, val := BitVec.ofNat 32 (if tile then t % w.tileSize else t), plate := (w.thread t).tt })
  | _ => none

/-! ### Pairs -/

/-- What a half gives of its D and its second source, with flags (R48). -/
def halfOut (op : HalfOp) (x y : Word) : Word × Word :=
  let two (v : Nat × Word) : Word × Word := (BitVec.ofNat 32 v.1, v.2)
  let both (f : Nat → Nat → Nat × Word) : Word × Word :=
    let lo := f (x.toNat % 2 ^ 16) (y.toNat % 2 ^ 16)
    let hi := f (x.toNat / 2 ^ 16) (y.toNat / 2 ^ 16)
    (halves lo.1 hi.1, lo.2 ||| hi.2)
  match op with
  | .nop => (x, 0)
  | .iadd => (BitVec.ofInt 32 (x.toInt + y.toInt), 0)
  | .isub => (BitVec.ofInt 32 (x.toInt - y.toInt), 0)
  | .imul => (BitVec.ofInt 32 (x.toInt * y.toInt), 0)
  | .imin => (BitVec.ofInt 32 (min x.toInt y.toInt), 0)
  | .imax => (BitVec.ofInt 32 (max x.toInt y.toInt), 0)
  | .iminN => (BitVec.ofNat 32 (min x.toNat y.toNat), 0)
  | .imaxN => (BitVec.ofNat 32 (max x.toNat y.toNat), 0)
  | .and => (bitsWord fun i => x.getLsbD i && y.getLsbD i, 0)
  | .or => (bitsWord fun i => x.getLsbD i || y.getLsbD i, 0)
  | .xor => (bitsWord fun i => x.getLsbD i != y.getLsbD i, 0)
  | .andn => (bitsWord fun i => x.getLsbD i && !y.getLsbD i, 0)
  | .shl => (bitsWord fun i => decide (y.toNat ≤ i) && x.getLsbD (i - y.toNat), 0)
  | .shr => (bitsWord fun i => x.getLsbD (i + y.toNat), 0)
  | .sar => (bitsWord fun i => x.getLsbD (min 31 (i + y.toNat)), 0)
  | .rot => (bitsWord fun i => x.getLsbD ((i + 32 - y.toNat % 32) % 32), 0)
  | .mov => (y, 0)
  | .fadd => two (fp32.finish .rn (addX .rn (f32 x) (f32 y)))
  | .fsub => two (fp32.finish .rn (addX .rn (f32 x) (f32 y).negate))
  | .fmul => two (fp32.finish .rn (mulX (f32 x) (f32 y)))
  | .fmin => two (minmaxCode fp32 false false x.toNat y.toNat)
  | .fmax => two (minmaxCode fp32 true false x.toNat y.toNat)
  | .badd2 => both fun a b => bf16.finish .rn (addX .rn (bf16.decode a) (bf16.decode b))
  | .bmul2 => both fun a b => bf16.finish .rn (mulX (bf16.decode a) (bf16.decode b))
  | .bmin2 => both (minmaxCode bf16 false false)
  | .bmax2 => both (minmaxCode bf16 true false)
/-- The class of a half: 0 integer, 1 FP32, 2 packed BF16. -/
def halfClass (op : HalfOp) : Nat := match op with
  | .fadd | .fsub | .fmul | .fmin | .fmax => 1
  | .badd2 | .bmul2 | .bmin2 | .bmax2 => 2
  | _ => 0
/-- The second source: imm7 as the class takes it (R48). -/
def halfSecond (op : HalfOp) (w : Warp) (t : Nat) (x : HalfArgs) : Word :=
  match x.src with
  | .imm i =>
    let f := (fp32.finish .rn (.fin (i.toInt < 0) i.toInt.natAbs 0)).1
    match halfClass op with
    | 0 => BitVec.ofInt 32 i.toInt
    | 1 => BitVec.ofNat 32 f
    | _ => halves (f / 2 ^ 16) (f / 2 ^ 16)
  | _ => w.val t (halfB x)
/-- What a half writes, from the registers before the word (R49). -/
def halfWrite (w : Warp) (t : Nat) (h : Half) : Option LWrite × Word :=
  if h.op = .nop then (none, 0)
  else
    let r := halfOut h.op (w.val t (halfD h.args)) (halfSecond h.op w t h.args)
    let tag := if h.op = .mov then (w.read t (halfB h.args)).tag else BitVec.ofNat 2 (halfClass h.op)
    (some { t := t, dst := w.dst (halfD h.args), val := r.1, tag := tag, plate := resultPlate w t [t] (halfSrcs h) }, r.2)
/-- Both halves write what they formed before either wrote; a cause in either keeps both from it, with TADDR 0. -/
def pairClaimOf (sw : Bool) (h0 h1 : Half) : WordClaim :=
  { x := { h := { sw := sw, g := .em }, named := halfNamed h0 ++ halfNamed h1 }
    cause := fun y t _ => (firstOf [checkSrcs y.me t (halfSrcs h0), checkSrcs y.me t (halfSrcs h1)]).map fun c => (c.1, 0)
    eff := fun y t _ =>
      let r0 := halfWrite y.me t h0
      let r1 := halfWrite y.me t h1
      let put (z : State) (o : Option LWrite) : State := match o with
        | some l => z.writeReg l.t l.dst l.val l.tag l.plate
        | none => z
      (put (put y r0.1) r1.1).orSt (r0.2 ||| r1.2) }

def pairClaim : Instr → Option WordClaim
  | .pairNop sw h1 => some (pairClaimOf sw { op := .nop, args := { core := false, d := 0, src := .imm 0 } } h1)
  | .pairIadd sw h0 h1 => some (pairClaimOf sw { op := .iadd, args := h0 } h1)
  | .pairIsub sw h0 h1 => some (pairClaimOf sw { op := .isub, args := h0 } h1)
  | .pairImul sw h0 h1 => some (pairClaimOf sw { op := .imul, args := h0 } h1)
  | .pairImin sw h0 h1 => some (pairClaimOf sw { op := .imin, args := h0 } h1)
  | .pairImax sw h0 h1 => some (pairClaimOf sw { op := .imax, args := h0 } h1)
  | .pairIminN sw h0 h1 => some (pairClaimOf sw { op := .iminN, args := h0 } h1)
  | .pairImaxN sw h0 h1 => some (pairClaimOf sw { op := .imaxN, args := h0 } h1)
  | .pairAnd sw h0 h1 => some (pairClaimOf sw { op := .and, args := h0 } h1)
  | .pairOr sw h0 h1 => some (pairClaimOf sw { op := .or, args := h0 } h1)
  | .pairXor sw h0 h1 => some (pairClaimOf sw { op := .xor, args := h0 } h1)
  | .pairAndn sw h0 h1 => some (pairClaimOf sw { op := .andn, args := h0 } h1)
  | .pairShl sw h0 h1 => some (pairClaimOf sw { op := .shl, args := h0 } h1)
  | .pairShr sw h0 h1 => some (pairClaimOf sw { op := .shr, args := h0 } h1)
  | .pairSar sw h0 h1 => some (pairClaimOf sw { op := .sar, args := h0 } h1)
  | .pairRot sw h0 h1 => some (pairClaimOf sw { op := .rot, args := h0 } h1)
  | .pairMov sw h0 h1 => some (pairClaimOf sw { op := .mov, args := h0 } h1)
  | .pairFadd sw h0 h1 => some (pairClaimOf sw { op := .fadd, args := h0 } h1)
  | .pairFsub sw h0 h1 => some (pairClaimOf sw { op := .fsub, args := h0 } h1)
  | .pairFmul sw h0 h1 => some (pairClaimOf sw { op := .fmul, args := h0 } h1)
  | .pairFmin sw h0 h1 => some (pairClaimOf sw { op := .fmin, args := h0 } h1)
  | .pairFmax sw h0 h1 => some (pairClaimOf sw { op := .fmax, args := h0 } h1)
  | .pairBadd2 sw h0 h1 => some (pairClaimOf sw { op := .badd2, args := h0 } h1)
  | .pairBmul2 sw h0 h1 => some (pairClaimOf sw { op := .bmul2, args := h0 } h1)
  | .pairBmin2 sw h0 h1 => some (pairClaimOf sw { op := .bmin2, args := h0 } h1)
  | .pairBmax2 sw h0 h1 => some (pairClaimOf sw { op := .bmax2, args := h0 } h1)
  | _ => none

end Sys2Proof.Machine
end

