-- ==== Sys2Proof/Safety/Faults.lean ====
section
/-! DEFINITION. Terms of the claims about causes: what a word comes to when some of its threads meet one (R24, R46, R57),
what taking causes leaves (R89, R289, R290), and the beginning of repeats (R54, R55). -/

namespace Sys2Proof.Machine

/-! ### Words whose threads meet causes -/

/-- No cause stops the whole run, or is due from before; guards may be guessed. -/
structure State.Opens (s : State) (x : Shape) : Prop where
  decode : decodeCause s x = none
  port : s.me.portThreads s.cur.run x = []
  due : ∀ t ∈ s.cur.run, s.me.due x t = none

/-- The threads whose guard would read a guessed condition (R46). -/
def State.guessers (s : State) (x : Shape) : List Nat := s.cur.run.filter fun t => s.me.guardPlated x.h t
/-- The hit of a cause at the word. -/
def State.hit (s : State) (t : Nat) (c : Byte × Dword) : Hit := { t := t, cause := c.1, addr := c.2, pc := s.cur.pc }
/-- Lane by lane: a lane with a cause has no effect, the others have theirs (R24, R57). -/
def WordClaim.turns (q : WordClaim) : State → List Nat → State × List Hit
  | s, [] => (s, [])
  | s, t :: r =>
    match q.cause s t [t] with
    | none => q.turns (q.eff s t [t]) r
    | some c =>
      let p := q.turns s r
      (p.1, s.hit t c :: p.2)
/-- What the active threads come to; a cause of the one performance is raised for every one of them (R25). -/
def WordClaim.outcome (q : WordClaim) (s : State) (ts : List Nat) : State × List Hit :=
  if q.x.once then
    match ts with
    | [] => (s, [])
    | t :: r =>
      match q.cause s t (t :: r) with
      | none => (q.eff s t (t :: r), [])
      | some c => (s, (t :: r).map fun u => s.hit u c)
  else q.turns s ts
/-- The state after the word: threads with a cause have taken it, the others have stepped past the word. -/
def WordClaim.result (q : WordClaim) (s : State) : State :=
  let bad := s.guessers q.x
  let p := q.outcome (s.begun q.x) ((s.acting q.x).filter fun t => !bad.contains t)
  let hits := ((if q.x.quiet then [] else bad).map fun t => s.hit t (Cause.plateControl, 0)) ++ p.2
  let y := (p.1.holdRepc (hits.map Hit.t)).take s.cur.cl s.cur.slot hits
  if q.x.h.sw && s.cur.last then y.mark (s.cur.run.filter fun t => !(hits.map Hit.t).contains t) else y

/-- The words with a register result, a branch, a special register, a test of plates or a capability. -/
def plainClaim (s : State) (i : Instr) : Option WordClaim :=
  integerClaim i <|> floatClaim i <|> moveClaim i <|> pairClaim i <|> controlClaim s i <|> specialClaim s i <|> plateClaim i
/-- The words that act lane by lane or once, but for the Anvil's; and those that act on their run together. -/
def wordClaimOf (s : State) (i : Instr) : Option WordClaim :=
  plainClaim s i <|> memoryClaim s i <|> stashClaim s i <|> atomicClaim s i <|> syncClaim s i <|> tarnishClaim s i <|>
    modelClaim s i <|> fabricClaim s i
def runClaimOf (s : State) (i : Instr) : Option RunClaim := runClaim s i <|> crossClaim i <|> coreClaim s i <|> launchClaim s i

/-- The state after a cause that is raised for the whole run (R24, R56). -/
def State.raised (s : State) (x : Shape) (c : Byte × Dword) : State :=
  ((s.issued.holdLane ((if x.once then 1 else s.cur.run.length) * x.cost)).holdRepc s.cur.run).take s.cur.cl s.cur.slot
    (s.cur.run.map fun t => s.hit t c)

/-! ### Repeats (R54, R55) -/

/-- The repeats that begin at a REP word: no thread has a cause, and none parks at the word's switch marker. -/
def repBegun (s : State) (sd sa sb sc : BitVec 2) (cnt : BitVec 6) : State :=
  let n := match s.cur.run with
    | [] => 0
    | t :: _ => if (s.me.thread t).repc = 0 then 0 else cnt.toNat + 1 - (s.me.thread t).repc.toNat
  let r : Rep := { threads := s.cur.run, pc := s.cur.pc, next := n, cnt := cnt.toNat, sd := sd, sa := sa, sb := sb, sc := sc
                   word := s.cur.word }
  (((s.issued.holdLane s.cur.run.length).modMe fun w => { w with rep := if s.cur.run = [] then w.rep else some r })).wake s.cur.cl s.cur.slot

/-! ### Frames of register words -/

/-- The destinations of a register word. -/
def destsOf (i : Instr) (x : Shape) : List (Opd × Nat) := match i with
  | .iset _ _ none _ _ => []
  | .fset _ _ none _ _ => []
  | _ => x.named.take 1
/-- Only D of active threads, their CM where `cm` says, and ST where `st` says, differ among the registers of the warp. -/
structure Warp.OnlyD (w v : Warp) (l : List (Opd × Nat)) (ts : List Nat) (cm st : Bool) : Prop where
  lanes : ∀ n t, t < 32 → ¬ ((false, n) ∈ w.allNamed l ∧ t ∈ ts) → v.getV t n = w.getV t n
  scalars : ∀ n, ¬ ((true, n) ∈ w.allNamed l ∧ ts ≠ []) → Tab.get {} v.k n = Tab.get {} w.k n
  masks : ∀ t, t < 32 → ¬ (cm = true ∧ t ∈ ts) → bitOf v.cm t = bitOf w.cm t ∧ bitOf v.cpm t = bitOf w.cpm t
  flags : st = false → v.sr = w.sr

/-- The words that write CM beside D, and those that write ST (R71, R77, R137, R146). -/
def writesCm : Instr → Bool
  | .iaddc .. => true
  | .isubb .. => true
  | .iset .. => true
  | .fset .. => true
  | _ => false
def writesSt (i : Instr) : Bool := (floatClaim i).isSome || (match i with
  | .fset .. => true
  | _ => false)
/-- The D of both halves of a pair. -/
def pairDests (u : Core) (i : Instr) : List (Opd × Nat) := match unPair u i with
  | some (_, h0, h1) => ([h0, h1].filter fun h => h.op != .nop).map fun h => (halfD h.args, 1)
  | none => []
/-- Control words that write no register. -/
def isBranch : Instr → Bool
  | .nop .. => true
  | .yield .. => true
  | .bra .. => true
  | .brc .. => true
  | .jmpi .. => true
  | .ret .. => true
  | .tretReplay .. => true
  | .tretResume .. => true
  | _ => false
/-- What a store word is, as its claim has it. -/
def storeOf : Instr → Option StoreWord
  | .st h scl acc ns conv a b c => some
      { h := h, m := ⟨a, b, scl⟩, c := c, conv := conv.toNat, ns := ns, acc := acc, once := uniform [a, b, c] }
  | .stStrong h scl sc acc ns conv a b c => some
      { h := h, m := ⟨a, b, scl⟩, c := c, conv := conv.toNat, ns := ns, acc := acc, strong := some sc, once := uniform [a, b, c] }
  | .stk h scl mode acc ns conv a b c => some
      { h := h, m := ⟨a, b, scl⟩, c := c, conv := conv.toNat, ns := ns, acc := acc, strong := mode, once := true }
  | _ => none

/-! ### Terms of whole steps -/

/-- A run of issue ends: `finishRun` after the instruction. -/
def finished (o : Host.Outcome State Fault Refusal) : Host.Outcome State Fault Refusal := match o with
  | .next y => .next y.finishRun
  | .fault r => .fault r
  | .refused r => .refused r
/-- The state in which a warp has its turn: the lane's seat has gone, and the warp's wait of R36 starts anew (R21, R36). -/
def State.turning (s : State) (c k : Nat) : State :=
  (s.modCluster c fun x =>
    { x with lanes := Tab.put x.lanes (laneOf k) { (Tab.get {} x.lanes (laneOf k)) with seat := k % 64 / 32 } }).modWarp c k
      fun w => { w with waited := 0 }
/-- The word at `pc` has been read, a tier's through its cache (R185); no record of the warp's fetch stands any more, and `u` is being
issued. -/
def State.atWord (s : State) (pc : BitVec 40) (u : Cur) : State :=
  ({ s.served (s.wg u.cl (s.warp u.cl u.slot).entry).ctx (s.wg u.cl (s.warp u.cl u.slot).entry).cobj pc.toNat 8 with cur := u } : State).modWarp
    u.cl u.slot fun w => { w with fetchRec := 0 }
/-- The state in which the run of word `n` issues. -/
def State.issuing (s : State) (c k : Nat) (run : List Nat) (pc : BitVec 40) (n : Nat) : State :=
  (s.turning c k).atWord pc { cl := c, slot := k, run := run, pc := pc, word := n }
/-- The state in which a repeat of word `n` issues, its fields stepped. -/
def State.repeating (s : State) (c k : Nat) (r : Rep) (n : Nat) : State :=
  (s.turning c k).atWord (r.pc + 8)
    { cl := c, slot := k, run := r.threads, pc := r.pc, rep := some (r.next, r.cnt)
      word := ((Fields.ofWord n).step r.sd r.sa r.sb r.sc r.next).pack }
/-- The threads of a withdrawn request that are to issue it again (R293). -/
def Warp.redoers (w : Warp) (r : Redo) : List Nat :=
  r.threads.filter fun t => if r.lanes then (w.thread t).st ≠ .exited else (w.thread t).st = .wait
/-- The state in which a withdrawn request issues again: its threads stand at its word, whose results no longer pend. -/
def State.reissuing (s : State) (c k : Nat) (r : Redo) (i : Instr) : State :=
  let b := s.turning c k
  let ts := (b.warp c k).redoers r
  (({ b with cur := { cl := c, slot := k, run := ts, pc := r.pc, word := r.word,
                      again := some (r, ts.map fun t => (t, (b.warp c k).thread t)) } } : State).modWarp c k fun w =>
    ts.foldl (fun z t => z.modThread t fun q => { q with st := .ready, pc := r.pc, marked := false }) w).modWarp c k fun w => w.clearPend i ts
/-- The threads of a warp that can issue. -/
def Warp.readies (w : Warp) : List Nat := (List.range 32).filter fun t => (w.thread t).st == .ready
/-- The state as a switch marker leaves it, where `y` is the state at the word's end without the marker (R52). -/
def State.marked (s : State) (x : Shape) (y : State) : State := if x.h.sw && s.cur.last then y.mark s.cur.run else y
/-- Bytes from address `a` on, where the access is placed; none where it is not. -/
def Place.bytes (p : Place) (off size : Nat) : Nat → Prop := match p with
  | .found a => fun b => a - off % 4 ≤ b ∧ b < a - off % 4 + 4 * wordCount size
  | _ => fun _ => False
/-- What a finite value is as a rational number. -/
def FVal.ratio : FVal → Option ℚ
  | .fin neg m e => some ((if neg then -1 else 1) * m * (2 : ℚ) ^ e)
  | _ => none

end Sys2Proof.Machine
end

