-- ==== Sys2Proof/Safety/System.lean ====
section
/-! DEFINITION. Terms of the claims about events of the module outside its instruction streams: retirement and dispatch, tables
and pages, layers, copy engines, ports, clocks, health, management and bring-up. -/

namespace Sys2Proof.Machine

/-! ### Warps and workgroups -/

/-- The restore of a saved workgroup (R293): its warps are in the slots of the record, their threads where they stood; its stash holds the
bytes of the image, and the Anvil the saved rows and slots under their numbers; its slice starts again. -/
def State.restoreClaim (s : State) (c e : Nat) (r : SlotEnt) : Option EventClaim := do
  let m ← s.imageBase c r
  let p ← s.readImage m
  let q := p.1
  let x ← s.setSplit c r.spart r.dctx
  let pos ← positions r.slots (wideAlloc m.wg.alloc)
  let up := m.wg.work :: s.ancestors m.wg.work
  let slot (n : Nat) : Nat := if n = 32 then Config.coreSlot else 64 * r.bench + (pos[n]?).getD 0
  let g := { q.wg with stb := r.stb, sliceAt := s.tick, bars := q.wg.bars.map fun b => (b.1, b.2.moved slot) }
  some
    { ready := r.v = true ∧ r.st = 0 ∧ s.dispatches (dieOf c) = true ∧ (s.cluster c).crossing = false ∧ p.2 = true ∧
        (up.all fun w => s.workHere w) = true ∧ (up.any fun w => s.workCx w || decide (s.workStatus w ≥ 2)) = false ∧
        (s.cluster c).recordOk r m.wg.need = true ∧
        (m.wg.ae = true → ∀ o ∈ (s.cluster c).ops, o.2.st = .free) ∧ (∀ d ∈ s.tarnishDies r.dctx, d = dieOf c) ∧
        (q.warps.map fun w => w.num).Nodup ∧
        (g.wdog = 0 ∨ g.late = true ∨ g.killed = true ∨ x.tick < g.bound + g.wdog)
      post := fun t => t.slotSt c e = 1 ∧ t.wg c e = g ∧ (t.cluster c).gated = false ∧ m ∉ t.images ∧
        (∀ w ∈ q.seated e r.bench pos, look (t.cluster c).warps w.1 = some w.2) ∧
        (∀ w ∈ q.core, look (t.cluster c).warps Config.coreSlot = some (w.back e)) ∧
        (g.ae = true → (t.cluster c).rows = q.rows ∧ (t.cluster c).ops = q.ops.map fun o => (o.1, { o.2 with entry := e })) ∧
        ∃ y : State, ({ t with clusters := y.clusters, images := y.images } : State) = y ∧ ∀ i, i < 512 * r.stn →
          (t.cluster c).stashBytes (g.stashAt (8 * i)) 8 =
            leBytes 8 ((y.dwRead m.wg.ctx m.obj (m.off + 4 * m.stashAt + 8 * i)).getD 0).toNat }

/-- The end of warps and workgroups, and their placing, parking and saving. -/
def workClaim (s : State) : Instr → Option EventClaim
  | .warpRetire c k => do
    let w ← look (s.cluster c).warps k
    some (.gives (w.retiring = true ∧ w.unfinished = false) (s.modCluster c fun x => { x with warps := Tab.del x.warps k }))
  | .trackerEntryFree c i => do
    let w ← look (s.cluster c).tracker i
    some { ready := w.unfinished = false
           post := fun t => t.mem = s.mem ∧ (t.cluster c).tracker = Tab.del (s.cluster c).tracker i ∧
             ∀ p ∈ (t.cluster c).warps, ∀ q ∈ p.2.threads, q.2.st ≠ .track }
  | .workgroupComplete c e => do
    let g ← look (s.cluster c).wgs e
    match s.flushWg c e with
    | .ok x [] =>
      let y := if (x.wg c e).failed then x.setFl g.ctx g.wobj g.woff else x
      some (.gives ((s.cluster c).drained e = true ∧ s.recordOpen g.flushRec = false ∧ ((g.work :: s.ancestors g.work).all fun p => s.workHere p) = true)
        (((y.modCluster c fun q => q.freeWg e).countWg g.work).idleMark c))
    | _ => none
  | .deviceQueueTake die ctx idx place =>
    match idx, place with
    | some i, some p =>
      match s.launches[i]? with
      | some l => do
        let d ← s.readDesc l.ctx l.dobj l.doff
        let w := l.work d
        let x := (s.askWork (l.die * Config.dieClusters) (w :: s.ancestors w)).startAbove w
        some (.gives (s.dispatches die = true ∧ l.die = die ∧ l.ctx = ctx ∧ x.eligible w = true ∧
          x.outranked l (x.workPrio w) = false ∧ x.placeOk p die d.need = true) (x.writeRecord p l d))
      | none => do
        let m ← s.images[i - s.launches.length]?
        let g := m.wg
        some { ready := s.dispatches die = true ∧ g.ctx = ctx ∧ m.die = die ∧ s.placeOk p die g.need = true ∧
                 ((g.work :: s.ancestors g.work).all fun q => s.workHere q && !s.workCx q) = true
               post := fun t => t.mem = s.mem ∧ t.images = s.images ∧ Tab.get {} (t.cluster p.cl).slots p.entry =
                 { v := true, rst := true, bench := p.bench, lobj := g.wobj, wgid := g.wgid, slots := p.slots, stb := p.stb
                   stn := g.stn, spart := p.spart, iobj := m.obj, ioff := m.off, dctx := g.ctx, dobj := g.dobj, doff := g.doff } }
    | _, _ =>
      match (s.ctx ctx).queue die with
      | (obj, off, n) :: r => do
        let d ← s.readDesc ctx obj off
        let y := s.setCtx ctx ((s.ctx ctx).setQueue die r)
        let w : WorkId := { ctx := ctx, obj := d.wobj, off := d.woff }
        let new := (y.ancestors w).foldl (fun (x : State) p => if x.workCount p = 0 then x.dropSkips p else x) y
        let z := ((w :: y.ancestors w).foldl State.workHeld new).startAbove w
        some { ready := s.dispatches die = true ∧ y.refusesDesc ctx d = false ∧ y.workStatus w < 2 ∧
                 ((w :: s.ancestors w).all fun p => s.workHere p) = true
               post := fun t => t.mem = z.mem ∧
                 ∃ l : Launch, t.launches = z.launches ++ [l] ∧ l.die = die ∧ l.ctx = ctx ∧ l.dobj = obj ∧
                   l.doff = off ∧ l.enq = n ∧ l.next = 0 ∧ l.reserved = false }
      | [] => none
  | .placementReservation die i => do
    let l ← s.launches[i]?
    let d ← s.readDesc l.ctx l.dobj l.doff
    some { ready := s.dispatches die = true ∧ l.die = die ∧ s.eligible (l.work d) = true ∧ s.hasPlace die d.need = false ∧
             l.since + 3000000 ≤ s.tick
           post := fun t => ({ t with launches := s.launches } : State) = s ∧ t.launches.length = s.launches.length ∧
             ∀ m ∈ t.launches, m.enq = l.enq → m.reserved = true }
  | .bindRecord c e =>
    let r := Tab.get {} (s.cluster c).slots e
    if r.rst then s.restoreClaim c e r
    else do
      let d ← s.readDesc r.dctx r.dobj r.doff
      let b ← s.blockWords r.dctx d.bobj d.boff
      let x ← s.setSplit c r.spart r.dctx
      let pos ← positions r.slots (wideAlloc d.alloc)
      let w : WorkId := { ctx := r.dctx, obj := d.wobj, off := d.woff }
      let up := w :: s.ancestors w
      some (.gives (r.v = true ∧ r.st = 0 ∧ s.dispatches (dieOf c) = true ∧ (s.cluster c).crossing = false ∧
          (up.all fun p => s.workHere p) = true ∧
          s.refusesDesc r.dctx d = false ∧ (s.cluster c).recordOk r d.need = true ∧ d.wobj = r.lobj ∧ r.wgid ≤ d.wgm1 ∧
          (up.any fun p => s.workCx p || decide (s.workStatus p ≥ 2)) = false)
        (((((x.served r.dctx r.dobj r.doff 128).served r.dctx d.bobj d.boff 72).acquireAll c r.dctx).modCluster c fun q =>
          q.bindIn e r d b pos (s.workPrio w) s.tick).bindCount w))
  | .clusterGate c => do
    let y ← s.drainL1 c
    if s.retiredIdle c = true ∧ (s.cluster c).erased ≠ s.cluster c then some (.gives True (y.modCluster c Cluster.erased))
    else
      some { ready := c < 128 ∧ s.boot ≥ 6 ∧ (s.cluster c).gated = false ∧ (s.cluster c).idle = true ∧ (s.cluster c).idleAt + 30000 ≤ s.tick
             post := fun t => t.mem = y.mem ∧ (t.cluster c).gated = true ∧ (t.cluster c).lvt = [] ∧ (t.cluster c).l1 = [] }
  | .sliceExpiry c e =>
    let g := s.wg c e
    some { ready := g.slice ≠ 0 ∧ s.slotSt c e = 1 ∧ g.sliceAt + g.slice ≤ s.tick ∧ (s.cluster c).allExited e = false
           post := fun t => t.mem = s.mem ∧
             if s.waitedFor (dieOf c) g.prio then s.slotSt c e = 1 ∧ t.slotSt c e = 3
             else t.slotSt c e = 1 ∧ (t.wg c e).sliceAt = s.tick }
  | .watchdog c e =>
    if c ≥ 128 then do
      let m ← s.images[e]?
      some (.gives (s.dispatches m.die = true ∧ s.savedLate m = true) (s.cancelSaved m.wg.work))
    else do
    let g ← look (s.cluster c).wgs e
    some { ready := g.wdog ≠ 0 ∧ g.late = false ∧ g.killed = false ∧ g.bound + g.wdog ≤ s.tick
           post := fun t => (t.wg c e).parked = true ∧ (t.wg c e).late = true ∧ t.slotSt c e = 2 ∧ (1, c * 16 + e) ∈ t.told }
  | .preemptRequest c e =>
    some { ready := s.dispatches (dieOf c) = true ∧ s.slotSt c e = 1 ∧ (look (s.cluster c).wgs e).isSome = true
           post := fun t => t.mem = s.mem ∧ t.slotSt c e = 3 ∧ (t.cluster c).wgs = (s.cluster c).wgs ∧
             (t.cluster c).warps = (s.cluster c).warps }
  | .preemptSaveComplete c e iobj ioff => do
    let _ ← look (s.cluster c).wgs e
    if (s.cluster c).allExited e then
      some { ready := s.slotSt c e = 3
             post := fun t => t.mem = s.mem ∧ t.slotSt c e = 4 }
    else match s.flushWg c e with
      | .ok y [] => do
        let m := (y.cluster c).image e iobj ioff (dieOf c)
        let q ← y.writeImage (s.wg c e).ctx m (y.cluster c)
        some { ready := s.slotSt c e = 3 ∧ (s.cluster c).quiet e = true ∧ ioff % 256 = 0 ∧ s.recordOpen (s.wg c e).flushRec = false
               post := fun t => t.mem = q.mem ∧ m ∈ t.images ∧ (3, c * 16 + e) ∈ t.told ∧
                 (Tab.get {} (t.cluster c).slots e).v = false ∧ look (t.cluster c).wgs e = none }
      | _ => none
  | .faultRecordResolve ctx die i act =>
    let a := s.recordAt ctx die i
    let d0 := s.pd a 0
    let x := (s.setPd a 0 (setField (setField d0 63 1 0) 56 2 act.toNat)).postHeld ctx die
    if field (s.pd a 3) 0 2 = 1 ∨ field (s.pd a 3) 0 2 = 2 then do
      let p ← x.recordWg ctx d0 (s.pd a 2)
      let g := x.wg p.1 p.2
      if act = 1 then
        some { ready := d0.getLsbD 63 = true ∧ s.health ≠ 2 ∧ g.records ≤ 1
               post := fun t => t.mem = x.mem ∧ (t.wg p.1 p.2).parked = false ∧ t.slotSt p.1 p.2 = 1 ∧
                 ∀ w ∈ (t.cluster p.1).warps, w.2.entry = p.2 → ∀ u ∈ w.2.threads, u.2.st = .fault →
                   u.2.marked = true ∨ u.2.atPort.isEmpty = false }
      else
        some { ready := d0.getLsbD 63 = true ∧ s.health ≠ 2
               post := fun t => ∃ y : State, t = y.setFl g.ctx g.wobj g.woff ∧ y.mem = x.mem ∧ y.slotSt p.1 p.2 = 4 ∧
                 (y.wg p.1 p.2).killed = true ∧ (y.wg p.1 p.2).failed = true ∧ (y.wg p.1 p.2).parked = false ∧
                 ∀ k ∈ (x.cluster p.1).slotsOf p.2, (y.warp p.1 k).members = [] ∧ (y.warp p.1 k).retiring = true }
    else some (.gives (d0.getLsbD 63 = true ∧ s.health ≠ 2) x)
  | _ => none

/-! ### Tables, pages, slices, the memory-side cache, and accesses from outside -/

/-- An access from outside that finds its place is performed there; one that meets a cause has no effect here; one whose page is
not present posts a record and waits. None where it waits for another reason. -/
def State.outsideClaim (s : State) (free : Prop) (peer : Option Nat) (ctx obj off : Nat) (acc : OutAcc) : Option EventClaim :=
  let x : State := { s with outNext := s.outNext + 1 }
  let o : Outside := { id := s.outNext, peer := peer, ctx := ctx, obj := obj, off := off, acc := acc }
  let first := free ∧ s.outs = []
  match x.placeFrom Config.clusters {} ctx obj off (outSize acc) with
  | .found a => some (.gives first { x.outDo o a with outs := [] })
  | .fails _ => some (.gives first x)
  | .waits cause => if cause = Cause.translation then
      some { ready := first
             post := fun t => t.outs = [{ o with recAt := x.nextRecord ctx 0 }] ∧ t.clusters = s.clusters }
    else none

/-- Events of the memory system. -/
def tableClaim (s : State) : Instr → Option EventClaim
  | .tlbSnoop pa v =>
    let m := (s.namedBy pa).foldl (fun y p => y.mapPage (s.pd pa 0) v p) s
    let x := (m.descsAt pa).foldl (fun z p => z.writeDesc p.1 p.2.1 p.2.2 v) (m.newModel pa (s.pd pa 0) v)
    some { ready := pa % 8 = 0 ∧ pa + 8 ≤ Config.hbmBytes
           post := fun t => pa ∉ t.tlb ∧ t.clusters = x.clusters ∧
             ∃ z : State, t = z.wash ∧ z.mem = memPutBytes x.mem pa (leBytes 8 v.toNat) }
  | .descriptorSnoop ctx obj i v =>
    let d := s.desc ctx obj
    let x := s.keepOld ctx obj d
    let y := x.setPd (x.descAt ctx obj) i v
    let was := x.tilesOf ctx obj
    let now := y.tilesOf ctx obj
    let z := ((was.filter fun p => !now.contains p) ++ now.filter fun p => !was.contains p).foldl (fun q p => q.clearTile p.1 p.2) y
    let e := y.desc ctx obj
    let paged (o : Desc) : Bool := o.valid && o.kind != 1 && o.kind != 5
    let kept := if paged d then z.keepPages ctx obj d else z.dropFrames ctx obj
    let q := if paged e then kept.mapPages ctx obj e else kept
    some (.gives ((look s.ctxs ctx).isSome = true ∧ 0 < obj ∧ obj < stashObj ∧ i < 4)
      { q with bare := if i = 1 then q.bare.filter fun p => p != (ctx, obj) else q.bare })
  | .migrationRequest ctx obj page to_ =>
    let d := s.desc ctx obj
    let e := s.pageEntry ctx obj page
    let home := homeCode to_
    let peer := homePeer to_
    some { ready := d.valid = true ∧ d.kind ≠ 5 ∧ d.kind ≠ 1 ∧ page < d.pages ∧ e.getLsbD 63 = true ∧ field e 59 2 = 0 ∧
             (field e 61 2 ≠ home ∨ (home = 3 ∧ field e 53 6 ≠ peer)) ∧ peer ≤ 36 ∧ (home = 3 → peer ≠ s.dev) ∧
             (d.migp = 1 ∨ (d.migp = 2 ∧ home < 2))
           post := fun t => t.mem = (s.setPd (d.xlist + 8 * page) 0 (setField e 59 2 1)).mem ∧
             ({ ctx := ctx, obj := obj, page := page, granted := s.tick, home := home, peer := peer } : Page) ∈ t.pages ∧
             t.clusters = s.clusters }
  | .migrationComplete ctx obj page pa => do
    let p ← s.pages.find? fun p => p.is ctx obj page
    let d := s.desc ctx obj
    let e := s.pageEntry ctx obj page
    let n := pageSize d.pg
    match s.extent (setField e 59 2 0) 0 d.pg, s.extent (p.entry e 0 pa) 0 d.pg with
    | .found a, .found b =>
      let x := s.putPhysBytes b (s.physBytes a n)
      let z := if a < 2 ^ 65 ∧ a ≠ b then x.zeroAt a n else x
      let pst := if s.tick < p.granted + 192000 then 2 else 0
      let y := z.setPd (s.pageEntryAt ctx obj page) 0 (p.entry e pst pa)
      let d3 := y.pd (y.descAt ctx obj) 3
      some (.gives (field e 59 2 = 1 ∧ pa % n = 0 ∧ ¬(p.home = 0 ∧ pa + n > s.mscBase 0) ∧ pa < 2 ^ 52)
        (y.setPd (y.descAt ctx obj) 3 (dword (loWord d3 + 1) (hiWord d3))).wash)
    | _, _ => none
  | .pinWindowExpiry ctx obj page => do
    let p ← s.pages.find? fun p => p.is ctx obj page
    let e := s.pageEntry ctx obj page
    some { ready := p.granted + 192000 ≤ s.tick ∧ field e 59 2 ≠ 1
           post := fun t => (∀ q ∈ t.pages, q.is ctx obj page = false) ∧
             t.mem = if field e 59 2 = 2 then (s.setPd (s.pageEntryAt ctx obj page) 0 (setField e 59 2 0)).mem else s.mem }
  | .homeSliceRequest ctx obj off =>
    some (.gives True ((List.range 64).foldl (fun x i => x.mergeWord ctx obj (off / 256 * 64 + i))
      (s.telling ctx obj (off / 256 * 256) 256)))
  | .ownershipRecall c ctx obj i =>
    match (s.cluster c).owned ctx obj i, s.pageFound ctx obj (4 * i) with
    | some v, some a =>
      some { ready := (s.cluster c).crossing = false
             post := fun t => t.mem = (s.putPhysBytes a (leBytes 4 v.toNat)).mem ∧ (t.cluster c).owned ctx obj i = none }
    | none, _ => some (.gives True s)
    | _, _ => none
  | .peerProbe c p ctx obj sector =>
    let asks := ((s.cluster c).l1Nat ctx obj (64 * sector) 64).isSome = false ∧ p ≠ c ∧ dieOf p = dieOf c ∧
      (s.cluster c).crossing = false ∧ (s.cluster p).crossing = false ∧ p < Config.clusters ∧
      (s.cluster c).takes (wordKey ctx obj (16 * sector)) = true
    if s.peerSupplies c p ctx obj (64 * sector) then
      some { ready := asks
             post := fun t => t.mem = s.mem ∧ ∀ j, j < 16 → (Tab.get {} (s.cluster c).l1 (wordKey ctx obj (16 * sector + j))).own = false →
               (Tab.get {} (t.cluster c).l1 (wordKey ctx obj (16 * sector + j))).data =
                 (Tab.get {} (s.cluster p).l1 (wordKey ctx obj (16 * sector + j))).data }
    else some (.gives asks (((s.count c .peerProbes 1).count p .forwardsDeclined 1).modCluster c fun y =>
      { y with probed := insertNat (wordKey ctx obj (16 * sector)) y.probed }))
  | .tierRead a =>
    some (.gives (a % 64 = 0 ∧ a < Config.tierBytes) (s.mscServe (spaceAddr 1 a)))
  | .tierWriteback a data =>
    some (.gives (a % 64 = 0 ∧ a < Config.tierBytes ∧ data = s.physBytes (spaceAddr 1 a) 64)
      (s.putPhysBytes (spaceAddr 1 a) data))
  | .remoteRequest peer space obj off acc => do
    let p ← s.portNo peer
    let open_ := (s.port p).reach = .open_
    if s.boot < 8 ∨ s.health = 2 then some (.gives open_ (s.count (160 + p) .fabricRefusals 1))
    else match space with
      | .paired ctx =>
        if (look s.ctxs ctx).isSome = true ∧ s.outOk true ctx obj off acc = true then
          s.outsideClaim open_ (some peer) ctx obj off acc
        else some (.gives open_ (s.count (160 + p) .fabricRefusals 1))
      | .pages =>
        some (.gives (open_ ∧ off + outSize acc ≤ s.hbmUse ∧ s.poisoned (spaceAddr 0 off) (outSize acc) = false)
          (s.placeDo peer (spaceAddr 0 off) acc))
      | .ownObjects =>
        some (.gives (open_ ∧ obj < 2 ^ 24 ∧ off + outSize acc ≤ 2 ^ 36)
          (s.placeDo peer (spaceAddr (64 + peer) (obj * 2 ^ 36 + off)) acc))
      | .ownPages => some (.gives (open_ ∧ off + outSize acc ≤ 2 ^ 52) (s.placeDo peer (spaceAddr (3 + peer) off) acc))
  | .hostAccess ctx obj off acc =>
    s.outsideClaim (s.boot ≥ 8 ∧ s.health ≠ 2 ∧ s.hostReach = .open_ ∧ (look s.ctxs ctx).isSome = true ∧
      s.outOk false ctx obj off acc = true) none ctx obj off acc
  | _ => none

/-! ### Sprue -/

/-- Events of layers (R258 to R260). -/
def layerClaim (s : State) : Instr → Option EventClaim
  | .sprueFetchStart die =>
    match s.wanted die with
    | [] => none
    | (x, _) :: _ =>
      let obj := s.layerObj x.ctx x.m x.l
      match s.createShadow x.ctx obj 0 (s.desc x.ctx obj).len false 0 with
      | .ok y =>
        let z := (y.setHeld x.ctx x.m (y.modelHeld x.ctx x.m + y.layerBytes x.ctx x.m x.l)).setLayerState x.ctx x.m x.l 1
        some { ready := s.health ≠ 2 ∧ s.layerState x.ctx x.m x.l = 0 ∧ s.layerFail x.ctx x.m x.l = false ∧ s.fetchable x = true ∧
                 s.shadowOf x.ctx obj = none ∧ (s.lack x).fits = true
               post := fun t => t.mem = z.mem ∧ t.shadows = y.shadows ∧ (x.ctx, x.m, x.l) ∉ t.lwaits }
      | _ => none
  | .sprueFetchComplete ctx m l => do
    let d1 := s.layerDw ctx m l 1
    let src := field d1 40 24
    let n := s.layerBytes ctx m l
    let y := (s.served ctx src (field d1 0 36) n).shadowPut ctx (s.layerObj ctx m l) 0
      ((List.range n).map fun i => s.objByte ctx src (field d1 0 36 + i))
    let z ← y.publish ctx (s.layerObj ctx m l)
    let f := z.layerDw ctx m l 3
    let u := (z.setPd (z.layerAt ctx m l) 3 (setField f 32 32 (field f 32 32 + 1))).setLayerState ctx m l 2
    some { ready := s.modelValid ctx m = true ∧ l < s.layerCount ctx m ∧ s.layerState ctx m l = 1 ∧
             (s.shadowOf ctx (s.layerObj ctx m l)).isSome = true ∧ s.health ≠ 2 ∧ ∃ a, s.rangePlace {} ctx src (field d1 0 36) n = .found a
           post := fun t => t.mem = u.mem ∧ t.shadows = u.shadows ∧ t.clusters = u.clusters }
  | .layerLeaveComplete ctx m l =>
    let obj := s.layerObj ctx m l
    let x := (((s.freeExtents ctx obj).purge ctx obj).setHeld ctx m (s.modelHeld ctx m - s.layerBytes ctx m l)).setLayerState ctx m l 0
    some (.gives (s.modelValid ctx m = true ∧ l < s.layerCount ctx m ∧ s.layerState ctx m l = 3)
      { x with bare := (ctx, obj) :: x.bare.filter fun p => p != (ctx, obj) })
  | _ => none

/-! ### Copy engines -/

/-- A command in progress, with what it has to be. -/
def State.doing (s : State) (die eng src op : Nat) : Option Cmd :=
  (s.cmd (16 * die + eng) src).filter fun m => m.op == op && !m.performed && s.health != 2
/-- The bytes of a command's source that follow what it has moved. -/
def State.nextBytes (s : State) (m : Cmd) (n : Nat) : List Byte :=
  (List.range n).map fun i => s.objByte m.ctx (capObj m.src) (capOff m.src + m.moved + i)
/-- The next bytes of a command have their place in the shadow of its destination. -/
def State.lands (s : State) (m : Cmd) (n : Nat) : Bool :=
  ((s.desc m.ctx (capObj m.dst)).pieces (capOff m.dst + m.moved) n).all fun q =>
    match s.shadowHw m.ctx (capObj m.dst) q.1 q.2 with
    | .found _ => true
    | _ => false

/-- Events of the copy engines (R309 to R314). -/
def engineClaim (s : State) : Instr → Option EventClaim
  | .chainAttach die eng ctx obj off =>
    let e := 16 * die + eng
    some { ready := die < 2 ∧ eng < 16 ∧ off % 64 = 0 ∧ s.boot ≥ 8 ∧ s.health ≠ 2 ∧ ∃ i, i < 16 ∧ look (s.engine e).chains i = none
           post := fun t => t.mem = (s.holdGlobal ctx obj (off + 32)).mem ∧ ∃ i, i < 16 ∧ look (s.engine e).chains i = none ∧
             look (t.engine e).chains i = some { ctx := ctx, obj := obj, off := off } }
  | .chainEntryTake die eng n => do
    let e := 16 * die + eng
    let c ← look (s.engine e).chains n
    let obj := field (s.ccb c 1) 40 24
    let off := field (s.ccb c 1) 0 36
    let d (i : Nat) : Dword := (s.dwRead c.ctx obj (off + 8 * i)).getD 0
    let m := chainCmd c n ((s.ccb c 0).getLsbD 62) d
    some { ready := s.boot ≥ 8 ∧ s.health ≠ 2 ∧ c.cur = none ∧ s.chainReady c = true ∧ s.entryCause c.ctx obj off = none ∧
             (∃ a, s.hwPlace {} c.ctx obj off 64 = .found a) ∧ badEntry d = false ∧ s.chainCause m = none
           post := fun t => t.cmd e (n + 1) = some m }
  | .engineNop die eng src => do
    let m ← s.doing die eng src 0
    some { ready := True
           post := fun t => t.mem = s.mem ∧ t.cmd (16 * die + eng) src = some { m with performed := true } }
  | .engineCopy die eng src => do
    let m ← s.doing die eng src 1
    let n := min (64 - (capOff m.src + m.moved) % 64) (m.len - m.moved)
    some { ready := m.began = true ∧ s.lands m n = true ∧ ∃ a, s.srcPlace m (capOff m.src + m.moved) n = .found a
           post := fun t => t.mem = (s.shadowBytes m (s.nextBytes m n)).mem ∧ t.cmd (16 * die + eng) src =
             some { m with moved := m.moved + n, performed := decide (m.len ≤ m.moved + n) } }
  | .engineFill die eng src => do
    let m ← s.doing die eng src 2
    let n := min 64 (m.len - m.moved) / 4 * 4
    some { ready := m.began = true ∧ s.lands m n = true
           post := fun t => t.mem = (s.shadowBytes m ((List.range (n / 4)).flatMap fun _ => leBytes 4 m.aux.toNat)).mem ∧
             t.cmd (16 * die + eng) src = some { m with moved := m.moved + n, performed := decide (m.len ≤ m.moved + n) } }
  | .engineStash die eng src => do
    let m ← s.doing die eng src 3
    match s.stashWrite m.cluster { entry := m.entry } (capOff m.dst + m.moved) 16 (leNat (s.nextBytes m 16)) none with
    | .ok x _ =>
      some { ready := m.len ≠ 0 ∧ ∃ a, s.srcPlace m (capOff m.src + m.moved) 16 = .found a
             post := fun t => t.mem = x.mem ∧ (t.cluster m.cluster).stash = (x.cluster m.cluster).stash ∧
               (t.cluster m.cluster).isFull ((x.wg m.cluster m.entry).granule (capOff m.dst + m.moved)) = true }
    | _ => none
  | .engineSlot die eng src => do
    let m ← s.doing die eng src 4
    let n := if m.sb then 132 else 128
    let row := m.row0 + m.moved
    let l := (List.range n).map fun i => s.objByte m.ctx (capObj m.src) (capOff m.src + n * m.moved + i)
    let o := (s.cluster m.cluster).op (handleSlot m.aux)
    some { ready := (s.cluster m.cluster).validHandle m.entry m.aux = true ∧ handleSlot m.aux ∉ (s.cluster m.cluster).orels ∧
             ∃ a, s.srcPlace m (capOff m.src + n * m.moved) n = .found a
           post := fun t => t.mem = s.mem ∧ t.cmd (16 * die + eng) src =
               some { m with moved := m.moved + 1, performed := decide (m.rows ≤ m.moved + 1) } ∧
             (let p := (t.cluster m.cluster).op (handleSlot m.aux)
              p.gen = o.gen ∧ (∀ i, i < 128 → Tab.get 0 p.data (128 * row + i) = l.getD i 0) ∧
              (∀ i, i < 128 * row ∨ 128 * row + 128 ≤ i → Tab.get 0 p.data i = Tab.get 0 o.data i) ∧
              (if m.sb then ∀ i, i < 4 → Tab.get 0 p.side (4 * row + i) = l.getD (128 + i) 0 else p.side = o.side) ∧
              (o.st = .claimed → p.rows = o.rows ||| (1#128 <<< row) ∧ (p.st = .full ↔ p.rows = BitVec.allOnes 128))) }
  | .engineLaunch die eng src => do
    let m ← s.doing die eng src 5
    let d ← s.readDesc m.ctx (capObj m.src) (capOff m.src)
    let x ← s.enqueueLaunch m.ctx die (capObj m.src) (capOff m.src)
    some { ready := s.boot ≥ 8 ∧ s.refusesDesc m.ctx d = false ∧ ∃ a, s.srcPlace m (capOff m.src) 64 = .found a
           post := fun t => t.mem = x.mem ∧ t.ctxs = x.ctxs ∧
             t.cmd (16 * die + eng) src = some { m with performed := true } }
  | .engineWait die eng src => do
    let m ← s.doing die eng src 6
    let v ← s.objRead m.ctx (capObj m.src) (capOff m.src) 4
    some { ready := m.began = false ∧ ∃ a, s.srcPlace m (capOff m.src) 4 = .found a
           post := fun t => t.mem = s.mem ∧ t.cmd (16 * die + eng) src =
             some (if reached (BitVec.ofNat 32 v) m.aux then { m with performed := true } else { m with began := true }) }
  | .engineWaitWake die eng src => do
    let m ← s.doing die eng src 6
    let v ← s.objRead m.ctx (capObj m.src) (capOff m.src) 4
    some { ready := m.began = true ∧ ∃ a, s.srcPlace m (capOff m.src) 4 = .found a
           post := fun t => t.mem = s.mem ∧ t.cmd (16 * die + eng) src =
             some (if reached (BitVec.ofNat 32 v) m.aux then { m with performed := true } else m) }
  | .engineCommandComplete die eng src => do
    let m ← s.cmd (16 * die + eng) src
    let x ← s.endShadow m
    let y ← x.bumpSeq m
    some { ready := m.performed = true ∧ m.failed = false ∧ s.health ≠ 2
           post := fun t => t.mem = y.mem ∧ t.shadows = y.shadows }
  | _ => none

/-! ### Ports, clocks and power -/

/-- Events of ports (R303, R305), clocks (R319 to R321) and throttling (R285). -/
def portClaim (s : State) : Instr → Option EventClaim
  | .portTrain p dev pod =>
    some (.gives (s.boot ≥ 6 ∧ p < 36 ∧ (s.port p).lanes ≠ 0 ∧ s.hostPort ≠ some p ∧ p ∉ s.retiredPorts)
      (if dev ≠ s.dev ∧ pod = s.pod ∧ dev ≤ 36 then
        { s.setPort p { (s.port p) with trained := true, dev := dev, pod := pod, down := false, retrain := none } with
          podDevs := if s.podDevs.contains dev then s.podDevs else s.podDevs ++ [dev] }
      else s.retirePort p))
  | .flitReplay p => some (.gives ((s.port p).trained = true) (s.count (160 + p) .flitReplays 1))
  | .portRetrain p =>
    some { ready := (s.port p).trained = true ∧ (s.port p).down = false ∧ (s.port p).retrain = none
           post := fun t => t.mem = s.mem ∧ t.clusters = s.clusters ∧ t.port p = { (s.port p) with retrain := some s.tick } ∧
             (t.port p).reach = .waits ∧ Tab.get 0 t.lifetime (12288 + p) = Tab.get 0 s.lifetime (12288 + p) + 1 }
  | .retrainComplete p failed =>
    some (.gives (∃ t, (s.port p).retrain = some t ∧ s.tick ≤ t + 30000)
      (failed.foldl (fun x i => x.retireLane p i 3) (s.setPort p { (s.port p) with retrain := none })))
  | .portDown p =>
    let y := (s.loseAll (if s.hostPort = some p then none else some (s.port p).dev)).setPort p
      { (s.port p) with down := true, retrain := none }
    some (.gives ((s.port p).trained = true ∧ (s.port p).down = false ∧
        ((s.port p).lanes = 0 ∨ ∃ t, (s.port p).retrain = some t ∧ t + 300000 ≤ s.tick))
      (if s.hostPort = some p then y else y.xrPortDown (s.port p).dev))
  | .clockRatioChange c m boost =>
    match boost with
    | none => some (.gives (4 ≤ m ∧ m ≤ 16 ∧ c < 128)
        (s.modCluster c fun x => { x with shakes := x.shakes ++ [(m, x.nextClock.2, s.tick)] }))
    | some b =>
      some { ready := c < 128
             post := fun t => t.mem = s.mem ∧ ∀ c', (dieOf c' = dieOf c →
               (t.cluster c').shakes = (s.cluster c').shakes ++ [((s.cluster c').nextClock.1, b, s.tick)]) ∧
               (dieOf c' ≠ dieOf c → t.cluster c' = s.cluster c') }
  | .handshakeEnd c =>
    match (s.cluster c).shakes with
    | [] => none
    | h :: r =>
      some { ready := (s.cluster c).station = []
             post := fun t => t.mem = s.mem ∧ (t.cluster c).m = h.1 ∧ (t.cluster c).boost = h.2.1 ∧
               (t.cluster c).shakes.length = r.length ∧ ∀ g ∈ (t.cluster c).shakes.head?, g.2.2 = s.tick }
  | .droopDetect c =>
    some { ready := c < 128
           post := fun t => t.mem = s.mem ∧ (t.cluster c).stretch ≥ 16 ∧
             Tab.get 0 t.lifetime (4096 + c) = Tab.get 0 s.lifetime (4096 + c) + 1 }
  | .droopRelease c => some (.gives (c < 128) (s.changeClock c fun x => { x with stretch := 16 }))
  | .throttleSet die thr tw =>
    some (.gives (die < 2 ∧ thr ≤ 8 ∧ tw ∈ [16, 32, 64, 128, 256, 512, 1024, 2048, 4096])
      (if die = 0 then { s with thr0 := thr, tw0 := tw } else { s with thr1 := thr, tw1 := tw }))
  | _ => none

/-! ### Health, management, contexts, bring-up -/

/-- A counter whose value is the one that State holds. -/
def Ctr.plain : Ctr → Bool
  | .l2Pairs => false
  | .tilesExpired => false
  | .health => false
  | .record _ => false
  | _ => true

/-- Events of health and management (R322 to R330), contexts (R160) and counters (R294). -/
def healthClaim (s : State) : Instr → Option EventClaim
  | .partRetire p =>
    match p with
    | .cluster c =>
      some { ready := c < 128 ∧ c ∉ s.retiredClusters ∧ s.boot ≥ 3 ∧ s.record.droops < Tab.get 0 s.lifetime (4096 + c)
             post := fun t => t.mem = s.mem ∧ t.retiredClusters = s.retiredClusters ++ [c] ∧ t.clr = s.clr + 1 ∧ t.health ≠ 0 ∧
               t.retirements = s.retirements ++ [(.cluster c, s.tick, 1)] ∧
               (s.retiredClusters.length ≥ 32 → t.health = 2) }
    | .pseudoChannel k c =>
      some { ready := k < 8 ∧ c < 32 ∧ (k, c) ∉ s.retiredChannels ∧ (s.boot = 3 ∨
               (s.boot ≥ 3 ∧ s.record.ecc < Tab.get 0 s.lifetime k + Tab.get 0 s.lifetime (8192 + k)))
             post := fun t => t.mem = s.mem ∧ t.retiredChannels = s.retiredChannels ++ [(k, c)] ∧ t.pcr = s.pcr + 1 ∧ t.health ≠ 0 }
    | .linkLane q l =>
      some { ready := l < 4 ∧ q < 36 ∧ (q, l) ∉ s.retiredLanes ∧ (s.port q).lanes > 1 ∧ (s.boot = 6 ∨
               (s.boot ≥ 3 ∧ s.record.retrains < Tab.get 0 s.lifetime (12288 + q)))
             post := fun t => t.mem = s.mem ∧ t.retiredLanes = s.retiredLanes ++ [(q, l)] ∧ t.lnr = s.lnr + 1 ∧ t.health ≠ 0 ∧
               (t.port q).lanes = (s.port q).lanes - 1 }
    | .port _ => some (.gives True s)
  | .schedulingCoreFailure die =>
    some { ready := s.health ≠ 2
           post := fun t => t.mem = s.mem ∧ t.health = 2 ∧ t.why = 3 ∧ die ∈ t.deadDies ∧
             ∀ c ∈ t.clusters, ∀ g ∈ c.2.wgs, g.2.parked = true }
  | .lifetimeRecordWrite =>
    some { ready := s.lifetimeAt + 180000000000 ≤ s.tick
           post := fun t => t.mem = s.mem ∧ t.lifetimeAt = s.tick ∧ t.flash.lifetime = t.lifeNow ∧
             t.flash.health = s.health ∧ t.flash.retirements = s.retirements ∧
             t.flash.clusters = s.retiredClusters ∧ t.flash.channels = s.retiredChannels ∧ t.flash.lanes = s.retiredLanes }
  | .tarnishRetentionMeasure p n =>
    let c := p.cl
    some { ready := look s.lifetime (20480 + c) = none ∧ (s.cluster c).idle = true ∧ s.tileHeld c p.tile = false ∧ c < 128 ∧
             p.tile < 1024
           post := fun t => Tab.get 0 t.lifetime (20480 + c) = n ∧ t.mem = s.mem ∧
             if n < 150000 then c ∈ t.retiredClusters else ({ t with lifetime := s.lifetime } : State) = s }
  | .attestationRequest nonce =>
    let r := s.record
    let report := Config.firmwareDigest r.core ++ Config.firmwareDigest r.umailo ++ Config.firmwareDigest r.link ++
      Config.recordDigest r ++ leBytes 4 s.healthReg.toNat ++ Config.lifetimeDigest s.lifeNow s.retirements ++ nonce
    some (.gives (nonce.length = 32 ∧ (s.boot ≥ 3 ∨ s.health = 2)) { s with mgmtOut := s.mgmtOut ++ [report ++ Config.signature report] })
  | .counterRead u c =>
    some { ready := s.managed = true ∧ Ctr.plain c = true
           post := fun t => ({ t with mgmtOut := s.mgmtOut } : State) = s ∧
             t.mgmtOut = s.mgmtOut ++ [leBytes 8 (counterGet s.counters u c).toNat] }
  | .counterReadClear u c =>
    some { ready := s.managed = true ∧ Ctr.plain c = true
           post := fun t => t.mem = s.mem ∧ counterGet t.counters u c = 0 ∧
             t.mgmtOut = s.mgmtOut ++ [leBytes 8 (counterGet s.counters u c).toNat] ∧
             ∀ v d, (v, d) ≠ (u, c) → counterGet t.counters v d = counterGet s.counters v d }
  | .poolCapacitySet p n => some (.gives (s.managed = true ∧ p < 16 ∧ n < 2 ^ 64) { s with pools := Tab.put s.pools p n })
  | .contextCreate num table models binds kv fault0 fault1 =>
    some { ready := 1 ≤ num ∧ num ≤ 4095 ∧ look s.ctxs num = none ∧ s.dispatches 0 = true
           post := fun t => t.ctx num =
               { table := table, models := models, binds := binds, kv := kv, fault0 := fault0, fault1 := fault1 } ∧
             t.clusters = s.clusters ∧ ∀ o, 0 < o → o < stashObj → (t.desc num o).valid = false }
  | .contextEnd num => do
    let x := (s.drainCtx num).1
    let y := (x.scats.filter fun p => p.ctx == num).foldl (fun y p => y.mergeWord num p.obj p.word) x
    let z := (y.objectsOf num).foldl (fun z o => z.freeTiles num o) y
    some { ready := (look s.ctxs num).isSome = true ∧ s.ctxBusy num = false ∧ (s.drainCtx num).2 = []
           post := fun t => t.mem = z.mem ∧ look t.ctxs num = none ∧ (∀ p ∈ t.pages, p.ctx ≠ num) ∧
             (∀ m ∈ t.images, m.wg.ctx ≠ num) ∧ ∀ c ∈ t.clusters, ∀ e ∈ c.2.l1, keyCtx e.1 ≠ num }
  | .reset =>
    if s.boot ≥ 8 ∨ s.halted = true then
      some { ready := True
             post := fun t => t.boot = 0 ∧ t.health = s.health ∧ t.why = 0 ∧ t.record = s.record ∧ t.deadDies = s.deadDies ∧ t.clusters = [] ∧ t.ctxs = [] ∧ t.tick = 0 ∧ t.mem = s.mem ∧
               t.retiredClusters = s.retiredClusters }
    else if s.boot ≥ 3 ∧ s.health = 2 then some (.gives True { s with halted := true })
    else
      let fails (t : State) (why : Nat) : Prop := t.health = 2 ∧ t.halted = true ∧ t.boot = s.boot ∧ (s.health ≠ 2 → t.why = why)
      match s.boot with
      | 4 => some (.gives True
          { s with boot := 5, mem := s.mem.filter (fun x => decide (2 ^ 65 ≤ x.1)), poison := [], msc := [], fresh := 0, frames := [] })
      | 5 => some
          { ready := True
            post := fun t => t.mem = s.mem ∧ if s.record.cores = true then t = { s with boot := 6 } else fails t 3 }
      | 6 => some (.gives (∀ p ∈ s.record.linked, some p = s.hostPort ∨ (s.port p).trained = true ∨ (s.port p).lanes = 0 ∨ p ∈ s.retiredPorts)
          { s with boot := 7 })
      | 7 => some (.gives True { s with boot := 8 })
      | 0 => some
          { ready := True
            post := fun t => t.mem = s.mem ∧ t.record = Config.freeBoot s.frees ∧
               if (Config.freeBoot s.frees).rom = true then t.boot = 1 ∧ t.health = s.health else fails t 3 }
      | 1 =>
        let r := s.record
        some { ready := True
               post := fun t => t.mem = s.mem ∧ if BootRecord.usable r s.version s.firmware then
                   t.boot = 2 ∧ t.version = r.version ∧ t.record = r ∧
                     t.firmware = (r.core.version, r.umailo.version, r.link.version)
                 else fails t 4 }
      | 2 => some (.gives True s.applyRecord)
      | 3 => some
          { ready := True
            post := fun t => t.mem = s.mem ∧ if s.record.memory = true then
                t = { s with boot := 4, mscGiB := s.record.mscGiB, channelsOut := s.retiredChannels.length }
              else fails t 2 }
      | _ => none
  | .lossOfPower =>
    some { ready := True
           post := fun t => t.boot = 0 ∧ t.mem = s.mem.filter (fun x => decide (2 ^ 65 ≤ x.1)) ∧ t.clusters = [] ∧ t.ctxs = [] ∧
             t.tick = 0 ∧ t.health = s.health ∧ t.why = 0 ∧ t.retiredClusters = s.retiredClusters ∧ t.retirements = s.retirements ∧
             t.lifetime = s.flash.lifetime }
  | _ => none

end Sys2Proof.Machine
end

