-- ==== Sys2Proof/Certificates/Slice0/Obligations.lean ====
section
/-! DEFINITION. The statements for the provers. The claim tables that they name (Sys2Proof/Safety/) give, for each
instruction, its frame, the causes that its lanes can meet and its effect, written anew from the manual's rules. -/

section
open Sys2Proof Sys2Proof.Machine

/-! ### Encoding (R39 to R49, R58 to R60) -/

/-- Decoding an encoded well-formed instruction gives it back, on either unit, full words and pairs alike. -/
def Obligations.EncodeThenDecode : Prop :=
  ∀ (u : Core) (i : Instr), encodable u i = true → decode u (encode u i) = .ok i

/-- A 64-bit word that decodes is the word of what it decodes to: two words never mean one instruction. -/
def Obligations.DecodeThenEncode : Prop :=
  ∀ (u : Core) (w : Nat) (i : Instr), w < 2 ^ 64 → decode u w = .ok i → encodable u i = true ∧ encode u i = w

/-- Words that the manual writes out (R49 and the chapters' worked encodings) decode to the instructions it gives them for. -/
def Obligations.DecodesWrittenWords : Prop :=
  decode .bench 0x880109090C002000 = .ok (.iadd ⟨true, .cm⟩ (.v 9) (.v 9) (.k 12)) ∧
  decode .bench 0x41040040980A0C00 =
    .ok (.pairIadd false { core := false, d := 4, src := .imm 1 } ⟨.shl, { core := false, d := 5, src := .v 6 }⟩) ∧
  decode .bench 0x1809040109002000 = .ok (.shflDown ⟨false, .cm⟩ (.v 4) (.v 1) (.k 9)) ∧
  decode .bench 0x00C00000FFFFFFFC = .ok (.brc ⟨false, .em⟩ false false (-4)) ∧
  decode .bench 0x18C4140400008000 = .ok (.reduxAddF32 ⟨false, .em⟩ (.k 20) (.v 4)) ∧
  decode .bench 0xA840000202044001 = .ok (.tst ⟨true, .em⟩ 0 false 1 (.k 2) (.v 2) (.v 4)) ∧
  decode .bench 0xB040000813006000 = .ok (.ldone ⟨true, .em⟩ (.k 8) (.k 19)) ∧
  decode .bench 0xB4C0000600000000 = .ok (.xrf ⟨true, .em⟩ 6) ∧
  decode .acc 0xBC00120000000012 = .ok (.oclm ⟨true, .em⟩ 18 18) ∧
  decode .bench 0xBC00120000000012 = .error .noInstruction

/-! ### Steps (R18, R23, R39, R55; logs 1, 2, 7, 9, 10) -/

/-- When it is a warp's turn, and its word decodes, the step is that instruction's meaning for the chosen run. -/
def Obligations.StepRunsDecodedWord : Prop :=
  ∀ (s : State) (c k : Nat) (r : List Turn) (pc : BitVec 40) (run : List Nat) (o : Option Nat) (n : Nat) (i : Instr),
    s.agenda = .issue c k :: r →
    let a : State := { s with agenda := r }
    let b := a.turning c k
    a.mayIssue c k = true → (b.warp c k).rep = none → (b.warp c k).redo = [] → b.recordOpen (b.warp c k).fetchRec = false →
    (b.warp c k).choose = some (pc, run, o) → b.fetch c (b.warp c k) pc = .word n → decode (b.warp c k).unit n = .ok i →
    let chosen := match repOf (b.warp c k).unit n with
      | some (_, _, _, _, cnt) => (b.warp c k).sameRepeat run o cnt
      | none => run
    step s = finished (exec i (a.issuing c k chosen pc n))

/-- In a repeat, the step is the repeated word with its register fields stepped. -/
def Obligations.StepRunsRepeat : Prop :=
  ∀ (s : State) (c k : Nat) (r : List Turn) (p : Rep) (n : Nat) (i : Instr),
    s.agenda = .issue c k :: r →
    let a : State := { s with agenda := r }
    let b := a.turning c k
    a.mayIssue c k = true → (b.warp c k).rep = some p → b.recordOpen (b.warp c k).fetchRec = false →
    b.fetch c (b.warp c k) (p.pc + 8) = .word n → n / 2 ^ 62 % 2 = 0 → decodeFields (b.warp c k).unit ((Fields.ofWord n).step p.sd p.sa p.sb p.sc p.next) = .ok i →
    step s = finished (exec i (a.repeating c k p n))

/-- The other turns: an event is its meaning; time passes; a word that does not decode, or lies beyond the code, is ILLEGAL
for the run; a word that cannot be fetched yet is waited for; a warp that may not issue does nothing; a request that a pre-emption
withdrew is issued again, before any run is chosen (R293); and where the agenda is empty, the turn is the next one of the free
schedule (the model's choice, log 1). -/
def Obligations.StepTakesOtherTurns : Prop :=
  (∀ (s : State) (r : List Turn) (i : Instr), s.agenda = .event i :: r → isEvent i = true → step s = exec i { s with agenda := r }) ∧
  (∀ (s : State) (r : List Turn) (n : Nat), s.agenda = .pass n :: r → step s = .next (State.passTicks { s with agenda := r } n)) ∧
  (∀ (s : State) (r : List Turn) (c k : Nat), s.agenda = .issue c k :: r → State.mayIssue { s with agenda := r } c k = false →
    step s = .next { s with agenda := r }) ∧
  (∀ (s : State), s.agenda = [] → step s = step { s with agenda := [Config.freeTurn s.turns], turns := s.turns + 1 }) ∧
  (∀ (s : State) (c k : Nat) (r : List Turn) (p : Redo) (l : List Redo) (i : Instr), s.agenda = .issue c k :: r →
    let a : State := { s with agenda := r }
    let b := a.turning c k
    a.mayIssue c k = true → (b.warp c k).rep = none → (b.warp c k).redo = p :: l → (b.warp c k).redoers p ≠ [] →
    decode (b.warp c k).unit p.word = .ok i → step s = finished (exec i (a.reissuing c k p i))) ∧
  ∀ (s : State) (c k : Nat) (r : List Turn) (pc : BitVec 40) (run : List Nat) (o : Option Nat),
    s.agenda = .issue c k :: r →
    let a : State := { s with agenda := r }
    let b := a.turning c k
    a.mayIssue c k = true → (b.warp c k).rep = none → (b.warp c k).redo = [] → (b.warp c k).choose = some (pc, run, o) →
    (b.recordOpen (b.warp c k).fetchRec = true → step s = .next b) ∧
    (b.recordOpen (b.warp c k).fetchRec = false →
      (b.fetch c (b.warp c k) pc = .waits → step s = .next (b.fetchHeld c k pc run)) ∧
      (b.fetch c (b.warp c k) pc = .beyond → step s = .next ((a.issuing c k run pc 0).noWord pc.toNat)) ∧
      ∀ n e, b.fetch c (b.warp c k) pc = .word n → decode (b.warp c k).unit n = .error e → repOf (b.warp c k).unit n = none →
        step s = .next ((a.issuing c k run pc n).noWord 0))

/-- The run that the bench chooses: the ready threads at one PC, the smallest while no age has reached 64, else the PC of the
first thread among those of largest age. -/
def Obligations.RunIsChosen : Prop :=
  ∀ (w : Warp), w.readies ≠ [] → ∃ (pc : BitVec 40) (run : List Nat) (o : Option Nat), w.choose = some (pc, run, o) ∧
    run = w.readies.filter (fun t => (w.thread t).pc == pc) ∧ run ≠ [] ∧
    ((∀ t ∈ w.readies, (w.thread t).age < 64) → o = none ∧ ∀ t ∈ w.readies, pc.toNat ≤ (w.thread t).pc.toNat) ∧
    ((∃ t ∈ w.readies, 64 ≤ (w.thread t).age) → ∃ z ∈ w.readies, o = some z ∧ pc = (w.thread z).pc ∧
      (∀ t ∈ w.readies, (w.thread t).age ≤ (w.thread z).age) ∧ ∀ t ∈ w.readies, (w.thread t).age = (w.thread z).age → z ≤ t)

/-- Ticks pass, as many as asked but not beyond one at which something is due, in the module or in a cycle of a cluster; none
while something is due now, or a cycle that has run out has not ended; and nothing in memory changes with them (the model's
choice, log 2). -/
def Obligations.TimePasses : Prop :=
  ∀ (s : State) (n : Nat), s.tick ≤ (s.passTicks n).tick ∧ (s.passTicks n).tick ≤ s.tick + n ∧ (s.passTicks n).mem = s.mem ∧
    (∀ d ∈ s.dues, s.tick ≤ d → (s.passTicks n).tick ≤ d) ∧ (s.dueNow = true → s.passTicks n = s) ∧
    (s.dueNow = false → (∀ d ∈ s.dues, d < s.tick ∨ s.tick + n ≤ d) →
      (∀ e ∈ s.clusters, e.2.phase < e.2.cycleLen ∧ e.2.reach n = n) → (s.passTicks n).tick = s.tick + n)

/-- A word that is placed for the next step is the word that its stream fetches (log 7): the bytes lie in memory as a code
object's, little-endian. -/
def Obligations.PlacedWordIsFetched : Prop :=
  ∀ (s : State) (w : Nat), w < 2 ^ 64 →
    let t := s.withFetchWord 64 w
    let k := progSlot (progUnit w)
    t.mayIssue 0 k = true ∧ (t.warp 0 k).choose = some (0, [0], none) ∧ t.fetch 0 (t.warp 0 k) 0 = .word w

/-! ### Whole-machine rules -/

/-- Every step goes on, and keeps the memory canonical: addresses strictly rising, no entry that reads as an unlisted one. -/
def Obligations.StepKeepsMemory : Prop := ∀ (s : State), Memory.wf s.mem = true → SafeStep s

/-- The machine right after reset: its memory is canonical and reads 0, bring-up has done none of its steps, nothing is bound
and no warp can issue; the time base is 0 (log 3); and a warp's and a thread's special registers have the reset values of R66, its v registers are void
and unplated. -/
def Obligations.ResetState : Prop :=
  Memory.wf State.reset.mem = true ∧ (∀ a, memGet State.reset.mem a = 0) ∧ State.reset.boot = 0 ∧ State.reset.tick = 0 ∧
    State.reset.clusters = [] ∧ State.reset.ctxs = [] ∧ (∀ c k, State.reset.mayIssue c k = false) ∧
    ∀ t, ({} : Warp).cm = 0 ∧ ({} : Warp).cpm = 0 ∧ ({} : Warp).pt = 5 ∧ ({} : Warp).xi = 0 ∧ ({} : Warp).sr = 0 ∧
      ({} : Warp).awb = 0 ∧ ({} : Warp).awl = 0 ∧
      (({} : Warp).thread t).repc = 0 ∧ (({} : Warp).thread t).tt = false ∧ (({} : Warp).thread t).tpc = 0 ∧
      (({} : Warp).thread t).tcause = 0 ∧ (({} : Warp).thread t).taddr = 0 ∧ (({} : Warp).thread t).tlanes = 0 ∧
      ∀ n, (({} : Warp).getV t n).tag = 3 ∧ (({} : Warp).getV t n).plate = false

/-- Only the passing of time moves the time base: no instruction and no event does, but that a module which starts again, by
RESET or after LOSS_OF_POWER, starts it at 0. -/
def Obligations.OnlyTimeMovesTheTimeBase : Prop :=
  ∀ (i : Instr) (s t : State), exec i s = .next t →
    if i = .lossOfPower ∨ (i = .reset ∧ (s.boot ≥ 8 ∨ s.halted = true)) then t.tick = 0 else t.tick = s.tick

/-- k0 and g0 read as an unplated raw 0 whatever the table holds; an integer word whose destination is one of them completes,
steps past itself, and changes no register of the warp. -/
def Obligations.RegisterZero : Prop :=
  (∀ (w : Warp) (t : Nat), w.read t (.k 0) = { data := 0, tag := 0, plate := false } ∧
    w.read t (.g 0) = { data := 0, tag := 0, plate := false }) ∧
  ∀ (i : Instr) (s : State) (q : WordClaim) (l : List (Opd × Nat)), integerClaim i = some q →
    (q.x.named = (.k 0, 1) :: l ∨ q.x.named = (.g 0, 1) :: l) → q.Runs s → ∃ y : State, exec i s = .next (s.marked q.x y) ∧
      y.me.k = s.me.k ∧ y.me.v = s.me.v ∧ y.mem = s.mem ∧ ∀ t ∈ s.cur.run, (y.me.thread t).pc = s.cur.nextPc

/-! ### Completion of the words -/

/-- Integer words (R69 to R76, R79): the value of each rule, in whole numbers and bits, to D of each active lane. -/
def Obligations.IntegerWords : Prop :=
  ∀ (i : Instr) (s : State) (q : WordClaim), integerClaim i = some q → q.Runs s → exec i s = .next (q.after s)
/-- Floating words (R133 to R145): exact values rounded once, flags to ST; SFU and FDIV results come later. What SFU and FDIV answer, of the
values that R145 allows, is a free value (the model's choice, log 6), and their flags and bounds are read as log 58 says. -/
def Obligations.FloatWords : Prop :=
  ∀ (i : Instr) (s : State) (q : WordClaim), floatClaim i = some q → q.Runs s → exec i s = .next (q.after s)
/-- Words that write CM beside D, selections, MOV, and capability arithmetic (R71, R77 to R81, R137). Whose carry and whose CM bit a uniform
IADDC, ISUBB or SEL takes is the model's choice (log 87). -/
def Obligations.ConditionAndMoveWords : Prop :=
  ∀ (i : Instr) (s : State) (q : WordClaim), moveClaim i = some q → q.Runs s → exec i s = .next (q.after s)
/-- Pair words (R47 to R49). -/
def Obligations.PairWords : Prop :=
  ∀ (i : Instr) (s : State) (q : WordClaim), pairClaim i = some q → q.Runs s → exec i s = .next (q.after s)
/-- Cross-lane words (R126, R147 to R153). -/
def Obligations.CrossLaneWords : Prop :=
  ∀ (i : Instr) (s : State) (q : RunClaim), crossClaim i = some q → q.Runs s → exec i s = .next (q.after s)
/-- Branches, calls, returns from a handler, PART, XISET and MOVW (R27, R44, R55, R84 to R86, R90, R93). (TRET.resume waits in issue
while the word that a thread goes back to cannot be fetched: FullQueueHoldsTheWord. What it leaves in REPC at a REP word, and the bits of
TPC that it drops, are log 69.) -/
def Obligations.ControlWords : Prop :=
  ∀ (i : Instr) (s : State) (q : WordClaim), controlClaim s i = some q → q.Runs s → exec i s = .next (q.after s)
/-- RDSR and WRSR of every special register; tests of plates, ACPT, TCLR, CMK and CLEN (R66 to R68, R81, R116, R117, R120). -/
def Obligations.SpecialAndPlateWords : Prop :=
  ∀ (i : Instr) (s : State) (q : WordClaim), (specialClaim s i <|> plateClaim i) = some q → q.Runs s → exec i s = .next (q.after s)
/-- Mask words, JOIN, BAR, EXIT and TAIL (R28 to R32, R82). -/
def Obligations.RunWords : Prop :=
  ∀ (i : Instr) (s : State) (q : RunClaim), runClaim s i = some q → q.Runs s → exec i s = .next (q.after s)
/-- REP (R54, R55): where it is not ILLEGAL and no thread has a cause or parks, the run's repeats begin. That REP is a step of its own,
which performs no repeat, is log 9. -/
def Obligations.RepWord : Prop :=
  ∀ (s : State) (sw : Bool) (sd sa sb sc : BitVec 2) (cnt : BitVec 6), repCheck s sd sa sb sc = .ok →
    (∀ t ∈ s.cur.run, (s.me.thread t).repc.toNat ≤ cnt.toNat + 1 ∧ s.me.due { h := { sw := sw, g := .em } } t = none ∧
      (sw = true → s.me.pending t = false ∧ s.me.heldAtPort t = false ∧ s.me.owed t = false)) →
    exec (.rep sw sd sa sb sc cnt) s = .next (repBegun s sd sa sb sc cnt)
/-- TRAP (R90): each active thread takes TRAP, with the code in TADDR. -/
def Obligations.TrapWord : Prop :=
  ∀ (s : State) (h : Hdr) (code : BitVec 16), s.Clear { h := h } →
    let hits := (s.acting { h := h }).map fun t => s.hit t (0x30, code.setWidth 64)
    let y := ((s.begun { h := h }).holdRepc (hits.map Hit.t)).take s.cur.cl s.cur.slot hits
    exec (.trap h code) s =
      .next (if h.sw && s.cur.last then y.mark (s.cur.run.filter fun t => !(hits.map Hit.t).contains t) else y)
/-- Loads and stores (R94 to R104, R114, R315 to R317). -/
def Obligations.MemoryWords : Prop :=
  ∀ (i : Instr) (s : State) (q : WordClaim), memoryClaim s i = some q → q.Runs s → exec i s = .next (q.after s)
/-- The stash, gathers, scatters, prefetches and REDEM (R118, R119, R121, R174 to R183), where their threads' earlier stores to the stash
that they read are performed (R122). That stores to the stash are requests, performed at their own events, is log 49; the causes of a
prefetch are log 72, a ticket's CONV is log 73. -/
def Obligations.StashWords : Prop :=
  ∀ (i : Instr) (s : State) (q : WordClaim), s.turnOf q.x i = some s → stashClaim s i = some q → q.Runs s → exec i s = .next (q.after s)
/-- AT and RED (R202 to R204). -/
def Obligations.AtomicWords : Prop :=
  ∀ (i : Instr) (s : State) (q : WordClaim), atomicClaim s i = some q → q.Runs s → exec i s = .next (q.after s)
/-- WAITW and the synchronisation words (R87, R193 to R199, R209); BIND where no handshake is under way (R321). -/
def Obligations.SyncWords : Prop :=
  ∀ (i : Instr) (s : State) (q : WordClaim), s.turnOf q.x i = some s → syncClaim s i = some q → q.Runs s →
    exec i s = .next (q.after s)
/-- Tarnish words (R247 to R253). -/
def Obligations.TarnishWords : Prop :=
  ∀ (i : Instr) (s : State) (q : WordClaim), tarnishClaim s i = some q → q.Runs s → exec i s = .next (q.after s)
/-- AWSET, the accumulator words and OFILL of a bench in a workgroup with the Anvil (R220, R221, R229 to R236), where their place in
the order of the cycle has not gone by (R219, R232; that the word waits for the next cycle where it has is log 45). A lane whose cycle is
to come acts in it, and no lane whose cycle has come is left (R20; log 84). -/
def Obligations.BenchAnvilWords : Prop :=
  (∀ (i : Instr) (s b : State) (q : WordClaim), s.myWg.ae = true → s.turnOf q.x i = some b → anvilBenchClaim b i = some q →
    q.Runs b → exec i s = .next (q.after b)) ∧
  (∀ (i : Instr) (s b : State) (q : RunClaim), s.myWg.ae = true → s.turnOf q.x i = some b → anvilFillClaim b i = some q →
    q.Runs b → exec i s = .next (q.after b)) ∧
  (∀ (s : State) (c : Nat) (a : LaneAct), s.laneLeaves (s.actLane c a) c a) ∧
  ∀ (s : State) (c : Nat), ∀ a ∈ ((s.lanesDue c fun _ => true).cluster c).acts, (s.cluster c).cyc < a.cyc
/-- The control core's words: slots, the Anvil's operations while its queue has room and their place in the cycle has not gone by,
and hallmarks (R211 to R229, R232; the queue's eight with the running one is log 90). -/
def Obligations.ControlCoreWords : Prop :=
  ∀ (i : Instr) (s : State) (q : RunClaim), s.turnOf q.x i = some s → coreClaim s i = some q → q.Runs s → exec i s = .next (q.after s)
/-- A word that waits in issue changes nothing: one that would queue an operation of the array, with eight in the queue or its place
in the cycle gone by (R212, R232), and a row access whose place has gone by (R232), which is the model's reading (log 45); an OFILL in
the cycle in which an OREL of its slot acted (R219); TRET.resume and REP where a word that they read cannot be fetched yet (logs 68,
69). A word that reads its model's tables as it issues waits for its threads' earlier strong accesses (R190) and for the end of a
handshake, and so does BIND (R321); a word that reads the stash as it issues waits for its threads' earlier stores there (R122; log 49).
That the queue's eight include the running operation is the model's reading (log 90). -/
def Obligations.FullQueueHoldsTheWord : Prop :=
  (∀ (i : Instr) (s : State) (q : RunClaim), isQueued i = true → coreClaim s i = some q → q.Runs s → s.cur.run = [0] →
    s.turnOf q.x i = none → exec i s = .next s) ∧
  (∀ (i : Instr) (s : State) (q : WordClaim), s.myWg.ae = true → anvilBenchClaim s i = some q → s.turnOf q.x i = none →
    exec i s = .next s) ∧
  (∀ (i : Instr) (s : State) (q : RunClaim), s.myWg.ae = true → anvilFillClaim s i = some q → s.turnOf q.x i = none →
    exec i s = .next s) ∧
  (∀ (h : Hdr) (s : State), s.tretWaits h = true → exec (.tretResume h) s = .next s) ∧
  (∀ (s : State) (sw : Bool) (sd sa sb sc : BitVec 2) (cnt : BitVec 6), repCheck s sd sa sb sc = .waits →
    exec (.rep sw sd sa sb sc cnt) s = .next s) ∧
  (∀ (i : Instr) (s : State) (q : WordClaim), isBind i = true → syncClaim s i = some q → s.Clear q.x → s.turnOf q.x i = none →
    exec i s = .next s) ∧
  (∀ (i : Instr) (s : State) (q : WordClaim), stashClaim s i = some q → s.Clear q.x → s.turnOf q.x i = none → exec i s = .next s) ∧
  ∀ (i : Instr) (s : State) (q : WordClaim), isStrongService i = true → modelClaim s i = some q → s.Clear q.x →
    s.turnOf q.x i = none → exec i s = .next s
/-- Models, KV caches, prefixes, queues, merging and rings; fabric reductions (R241, R242, R262 to R272, R296 to R300), where the
strong accesses that their threads made before are performed (R190). -/
def Obligations.ServiceWords : Prop :=
  ∀ (i : Instr) (s b : State) (q : WordClaim), s.Clear q.x → s.turnOf q.x i = some b → (modelClaim b i <|> fabricClaim b i) = some q →
    q.Runs b → exec i s = .next (q.after b)
/-- LNCH and WCAN (R91, R92, R277). LNCH waits as log 36 says; WCAN's LEVEL selects nothing: the object that is named is cancelled (log
37). -/
def Obligations.LaunchWords : Prop :=
  ∀ (i : Instr) (s : State) (q : RunClaim), launchClaim s i = some q → q.Runs s → exec i s = .next (q.after s)

/-! ### Completion of the events -/

/-- Replies, limits, deferred causes of stores, writes of long results, the memory port, and command windows (R13, R50, R99, R102 to
R110, R165, R178, R181, R203, R315 to R317). That the port performs a load in value is log 15, that GATH's element is written as a store
is log 74. -/
def Obligations.ReplyEvents : Prop :=
  ∀ (i : Instr) (s : State) (q : EventClaim), replyClaim s i = some q → q.ready → NextWith (exec i s) q.post
/-- The ends of waits (R87, R195 to R199, R209, R217 to R219, R236, R241, R299). That LWAIT moves the cursor of the waiting threads' context
under the model's sign is the model's choice (log 54). -/
def Obligations.WaitEvents : Prop :=
  ∀ (i : Instr) (s : State) (q : EventClaim), waitClaim s i = some q → q.ready → NextWith (exec i s) q.post
/-- Tarnish tiles and the array of the Anvil (R212, R226, R231, R232, R239, R246, R248; the array's cycles and the hallmark bits are counted
as log 46 says). -/
def Obligations.ArrayEvents : Prop :=
  ∀ (i : Instr) (s : State) (q : EventClaim), arrayClaim s i = some q → q.ready → NextWith (exec i s) q.post
/-- The hub of fabric reductions: messages of peers and of the module itself, in every state of their slot (R297 to R300, R307). That a
whole result record leaves in one step is log 56. -/
def Obligations.HubEvents : Prop :=
  ∀ (i : Instr) (s : State) (q : EventClaim), hubClaim s i = some q → q.ready → NextWith (exec i s) q.post
/-- Retirement, dispatch, placement, pre-emption, restore and fault records (R31 to R33, R281 to R293). The model's choices in it: the edges
and the order of a graph (log 20), what an image holds beyond R292 (log 21), records of one workgroup (log 23), from when a launch waits
(log 38), what a save waits for (log 39), one watchdog record for each workgroup (log 40), and what a restore drops (log 94). -/
def Obligations.WorkEvents : Prop :=
  ∀ (i : Instr) (s : State) (q : EventClaim), workClaim s i = some q → q.ready → NextWith (exec i s) q.post
/-- Snoops, migration, home slices, the tier, and accesses of peers and of the host (R161, R164 to R166, R169, R170, R183 to R185, R304,
R306). The model's choices in them: logs 60, 61, 78 and 79. -/
def Obligations.TableEvents : Prop :=
  ∀ (i : Instr) (s : State) (q : EventClaim), tableClaim s i = some q → q.ready → NextWith (exec i s) q.post
/-- Layers: fetches and evictions (R257 to R261). That a fetch copies its source in one step, at its completion, is log 53. -/
def Obligations.LayerEvents : Prop :=
  ∀ (i : Instr) (s : State) (q : EventClaim), layerClaim s i = some q → q.ready → NextWith (exec i s) q.post
/-- Chains and the commands of the copy engines (R309 to R314, R318). The grains in which a command moves its bytes are log 41, entries
that are no command log 24; that GLOBAL is held from the attach is log 75. -/
def Obligations.EngineEvents : Prop :=
  ∀ (i : Instr) (s : State) (q : EventClaim), engineClaim s i = some q → q.ready → NextWith (exec i s) q.post
/-- Ports (R303, R305, R307), clocks, droop and handshakes (R319 to R321), and throttling (R285). -/
def Obligations.PortEvents : Prop :=
  ∀ (i : Instr) (s : State) (q : EventClaim), portClaim s i = some q → q.ready → NextWith (exec i s) q.post
/-- Health, counters, contexts, management and bring-up (R160, R294, R322 to R330). That one RESET takes one step of bring-up is log 42,
that a module which starts again has TB 0 is log 3; the thresholds of PART_RETIRE are log 77; how a report lays its parts out is log 34,
what a boot finds log 27, and that a loss of power keeps the health log 83. -/
def Obligations.HealthEvents : Prop :=
  ∀ (i : Instr) (s : State) (q : EventClaim), healthClaim s i = some q → q.ready → NextWith (exec i s) q.post

/-! ### Frames -/

/-- An integer, floating or move word changes nothing outside its warp, and within it only D of active lanes, CM and CPM of
active threads where it is IADDC, ISUBB, ISET or FSET, and ST where it is a floating word or FSET. -/
def Obligations.RegisterWordFrame : Prop :=
  ∀ (i : Instr) (s : State) (q : WordClaim), (integerClaim i <|> floatClaim i <|> moveClaim i) = some q → wf s.me.unit i = true →
    q.Runs s → ∃ y : State, exec i s = .next (s.marked q.x y) ∧ s.Frame y ∧
      s.me.OnlyD y.me (destsOf i q.x) (s.acting q.x) (writesCm i) (writesSt i)

/-- The two halves of a pair change only their own D in active lanes, and ST; every byte of memory, every other register
and CM stay. -/
def Obligations.PairWordFrame : Prop :=
  ∀ (i : Instr) (s : State) (q : WordClaim), pairClaim i = some q → wf s.me.unit i = true → q.Runs s →
    ∃ y : State, exec i s = .next (s.marked q.x y) ∧ s.Frame y ∧ s.me.OnlyD y.me (pairDests s.me.unit i) (s.acting q.x) false true

/-- Branches and returns change no v or k register, no byte of memory, no flag, and no other warp. -/
def Obligations.BranchFrame : Prop :=
  ∀ (i : Instr) (s : State) (q : WordClaim), controlClaim s i = some q → isBranch i = true → q.Runs s →
    ∃ y : State, exec i s = .next (s.marked q.x y) ∧ y.me.v = s.me.v ∧ y.me.k = s.me.k ∧ y.me.cm = s.me.cm ∧ y.me.em = s.me.em ∧
      y.me.sr = s.me.sr ∧ y.mem = s.mem ∧ (∀ c, c ≠ s.cur.cl → y.cluster c = s.cluster c) ∧
      ∀ k, k ≠ s.cur.slot → y.myCluster.warp k = s.myCluster.warp k

/-- A load, at its issue, changes no byte of memory and no register's data: its destinations only become pending. -/
def Obligations.LoadFrame : Prop :=
  ∀ (i : Instr) (s : State) (q : WordClaim), memoryClaim s i = some q → storeOf i = none → q.Runs s →
    ∃ y : State, exec i s = .next (s.marked q.x y) ∧ y.mem = s.mem ∧ y.me.cm = s.me.cm ∧ y.me.cpm = s.me.cpm ∧ y.me.sr = s.me.sr ∧
      (∀ n t, t < 32 → (y.me.getV t n).data = (s.me.getV t n).data) ∧ ∀ n, (y.me.getK n).data = (s.me.getK n).data

/-- A store, at its issue, changes no byte of memory, no L1, no stash and no register: it stands as a request at the address that its
operands give (log 15). Where its event
performs it, in memory that the tier's cache does not hold, it changes no byte outside the words at its address; a weak one, where the
L1 has room for its line, changes no byte of memory at all, and one to the stash where no mapping is only the bytes that it names. -/
def Obligations.StoreFrame : Prop :=
  (∀ (i : Instr) (s : State) (q : WordClaim) (l : StoreWord), memoryClaim s i = some q → storeOf i = some l → q.Runs s →
    ∃ y : State, exec i s = .next (s.marked q.x y) ∧ y.mem = s.mem ∧ y.myCluster.l1 = s.myCluster.l1 ∧
      y.myCluster.stash = s.myCluster.stash ∧ y.me.v = s.me.v ∧ y.me.k = s.me.k ∧ y.me.cm = s.me.cm ∧ y.me.cpm = s.me.cpm ∧
      ∀ r ∈ y.me.reqs, r ∈ s.me.reqs ∨ ∃ t ∈ s.acting q.x, r.obj = capObj (l.m.cap s.me t) ∧ r.off = l.m.addr s.me t ∧
        r.size = convSize l.conv ∧ r.strong = l.strong) ∧
  ∀ (s : State) (c k : Nat) (r : Req) (l : List Byte), (s.warp c k).reqOf r.id = some r → r.op = .store l → c < 128 →
    (s.warp c k).loadOf r.id = none → s.canGo c k r →
    let w : Warp := { s.warp c k with under := r.old, wants := r.right }
    let g := s.wg c w.entry
    let keeps (y : State) : Prop := (y.warp c k).v = w.v ∧ (y.warp c k).k = w.k ∧ (y.warp c k).cm = w.cm ∧ (y.warp c k).cpm = w.cpm
    (∀ a, r.obj ≠ stashObj → s.placeFrom c w g.ctx r.obj r.off r.size = .found a → a / 2 ^ 64 ≠ 1 →
      ((s.cluster c).takes (wordKey g.ctx r.obj (r.off / 4)) = true ∨ ∃ sc, r.strong = some sc ∧ nearScope sc = false) →
      NextWith (exec (.memoryPortTranslate c k r.id) s) fun t => ∃ y : State, t = y.stir c k ∧ keeps y ∧
        (∀ b, ¬ (Place.found a).bytes r.off r.size b → memGet y.mem b = memGet s.mem b) ∧ (r.strong = none → y.mem = s.mem)) ∧
    (r.obj = stashObj → g.mapAt r.off = none → (∀ j ∈ wordList (g.stashAt r.off) r.size, (s.cluster c).globalOf j = none) →
      NextWith (exec (.memoryPortTranslate c k r.id) s) fun t => ∃ y : State, t = y.stir c k ∧ keeps y ∧ y.mem = s.mem ∧
        (y.cluster c).l1 = (s.cluster c).l1 ∧
        ∀ b, b < g.stashAt r.off ∨ g.stashAt r.off + r.size ≤ b → (y.cluster c).stashByte b = (s.cluster c).stashByte b)

/-! ### Causes (R24, R46, R57, R89, R289, R290) -/

/-- A decode-class cause stops the word for every thread of the run, active or not, and no thread has an effect: in the order of the claim
tables, the words of the Anvil on a bench, which wait for their place first (R219, R232, log 45) and are ILLEGAL without AE (log 47),
REP's own ILLEGAL (R54) and TRAP. -/
def Obligations.DecodeCauseStopsTheRun : Prop :=
  (∀ (i : Instr) (s : State) (q : WordClaim) (c : Byte × Dword), wordClaimOf s i = some q → decodeCause s q.x = some c →
    exec i s = .next (s.raised q.x c)) ∧
  (∀ (i : Instr) (s : State) (q : RunClaim) (c : Byte × Dword), runClaimOf s i = some q → decodeCause s q.x = some c →
    exec i s = .next (s.raised q.x c)) ∧
  (∀ (i : Instr) (s b : State) (q : WordClaim) (c : Byte × Dword), s.myWg.ae = true → s.turnOf q.x i = some b →
    anvilBenchClaim b i = some q → decodeCause b q.x = some c → exec i s = .next (b.raised q.x c)) ∧
  (∀ (i : Instr) (s b : State) (q : RunClaim) (c : Byte × Dword), s.myWg.ae = true → s.turnOf q.x i = some b →
    anvilFillClaim b i = some q → decodeCause b q.x = some c → exec i s = .next (b.raised q.x c)) ∧
  (∀ (i : Instr) (s : State), s.myWg.ae = false → (anvilBenchClaim s i).isSome = true ∨ (anvilFillClaim s i).isSome = true →
    exec i s = .next (s.noWord 0)) ∧
  (∀ (s : State) (sw : Bool) (sd sa sb sc : BitVec 2) (cnt : BitVec 6) (a : Dword), repCheck s sd sa sb sc = .illegal a →
    exec (.rep sw sd sa sb sc cnt) s = .next ((s.issued.holdLane s.cur.run.length).take s.cur.cl s.cur.slot
      (s.cur.run.map fun t => s.hit t (Cause.illegal, a)))) ∧
  ∀ (s : State) (h : Hdr) (code : BitVec 16) (c : Byte × Dword), decodeCause s { h := h } = some c →
    exec (.trap h code) s = .next (s.raised { h := h } c)

/-- Threads of one run that meet lane-class causes take them, the first in the order of R57; a guessed guard gives
PLATE_CONTROL; every other active thread has its full effect, and an inactive one only steps past the word. That TADDR is 0 for
PLATE_ESCAPE at BURN and TINIT is log 50. -/
def Obligations.FaultingLanesStandAside : Prop :=
  ∀ (i : Instr) (s : State) (q : WordClaim), storeOf i = none →
    (plainClaim s i <|> memoryClaim s i <|> atomicClaim s i <|> tarnishClaim s i) = some q → s.Opens q.x →
    exec i s = .next (q.result s)

/-- A cause enters the user handler in each thread that has one, and parks the workgroup for the others (R89). -/
def Obligations.HandlerEntry : Prop :=
  ∀ (s : State) (c k : Nat) (cause : Byte) (hits : List Hit), (hits.map Hit.t).Nodup →
    (∀ h ∈ hits, h.t < 32 ∧ h.cause = cause) →
    let w := s.warp c k
    let t := s.takeOne c k cause hits
    let u := t.warp c k
    (∀ h ∈ hits, w.tvec.getLsbD 0 = true → (w.thread h.t).tcause.getLsbD 31 = false →
      (u.thread h.t).tpc = h.pc.setWidth 64 ∧ (u.thread h.t).tcause = 0x80000000#32 ||| h.cause.setWidth 32 ∧
      (u.thread h.t).taddr = h.addr ∧ (∀ i, i < 32 → (bitOf (u.thread h.t).tlanes i = true ↔ ∃ g ∈ hits, g.t = i)) ∧
      (u.thread h.t).pc.toNat = w.tvec.toNat / 8 * 8 ∧ (u.thread h.t).st = .ready) ∧
    (∀ h ∈ hits, w.tvec.getLsbD 0 = false ∨ (w.thread h.t).tcause.getLsbD 31 = true →
      (t.wg c w.entry).parked = true ∧ (1, c * 16 + w.entry) ∈ t.told ∧ (u.thread h.t).pc = h.pc ∧
      (u.thread h.t).tcause = (w.thread h.t).tcause) ∧
    u.em = w.em ∧ u.cm = w.cm ∧ u.cpm = w.cpm ∧ u.v = w.v ∧ u.k = w.k ∧ ∀ i, (u.thread i).tt = (w.thread i).tt

/-- A parked program fault leaves its slot-table entry parked and one record in the die's fault ring, V set, where the
ring's next place is free (R289, R290). That its one ADDR is the first hit's is log 33. -/
def Obligations.ParkingPostsARecord : Prop :=
  ∀ (s : State) (c k : Nat) (cause : Byte) (h : Hit) (r : List Hit),
    let w := s.warp c k
    let g := s.wg c w.entry
    let x := s.ctx g.ctx
    let a := if dieOf c = 0 then x.fault0 + 32 * (x.next0 % 256) else x.fault1 + 32 * (x.next1 % 256)
    c < 128 → k < 128 → (s.pd a 0).getLsbD 63 = false → (∀ i ∈ h :: r, w.handles i.t = false) →
    let t := s.takeOne c k cause (h :: r)
    (Tab.get {} (t.cluster c).slots w.entry).st = 2 ∧ (t.wg c w.entry).records = g.records + 1 ∧
    field (t.pd a 0) 63 1 = 1 ∧ field (t.pd a 0) 48 8 = cause.toNat ∧ field (t.pd a 0) 47 1 = c / 64 ∧
    field (t.pd a 0) 40 6 = c % 64 ∧ field (t.pd a 0) 32 8 = k % 64 ∧ field (t.pd a 0) 0 32 = g.wgid % 2 ^ 32 ∧
    t.pd a 1 = h.addr ∧ field (t.pd a 2) 40 24 = g.wobj % 2 ^ 24 ∧ field (t.pd a 2) 0 40 = h.pc.toNat ∧
    hiWord (t.pd a 3) = maskOf ((h :: r).map Hit.t) ∧ loWord (t.pd a 3) = 1

/-- The switch marker (R52): of the threads it parks, those with a pending bit stay in SWITCH, and those with none are ready
again at once. -/
def Obligations.SwitchMarkerParks : Prop :=
  ∀ (s : State) (ts : List Nat) (t : Nat), t ∈ ts → t < 32 → (s.me.thread t).st = .ready → s.me.heldAtPort t = false →
    (∀ d ∈ (s.me.thread t).deferred, d.reg = none) →
    ((s.mark ts).me.thread t).st = if s.me.pending t then .switch else .ready

/-- Plated data does not leave by a store without `.acc`: the one lane takes PLATE_ESCAPE with operand C in TADDR, and no
byte of memory and no cluster but for the thread is another after it (R100, R114). -/
def Obligations.PlatedDataDoesNotLeave : Prop :=
  ∀ (s : State) (h : Hdr) (scl : BitVec 2) (ns : Bool) (conv : BitVec 5) (a b c : Opd) (t : Nat) (q : WordClaim),
    h.sw = false → memoryClaim s (.st h scl false ns conv a b c) = some q → s.Clear q.x → s.acting q.x = [t] → t < 32 →
    s.me.handles t = true → memCause (s.begun q.x) t ⟨a, b, scl⟩ [] { rights := 4, kinds := [0, 3, 5, 8], size := convSize conv.toNat } = none →
    checkSrcs s.me t [dataSrc c conv.toNat] = none → ((dataSrc c conv.toNat).plated s.me t || (s.me.thread t).tt) = true →
    NextWith (exec (.st h scl false ns conv a b c) s) fun u => u.mem = s.mem ∧ (u.myCluster).l1 = s.myCluster.l1 ∧
      u.myCluster.stash = s.myCluster.stash ∧ u.me.reqs = s.me.reqs ∧
      (u.me.thread t).tcause = 0x80000011#32 ∧ (u.me.thread t).taddr = 3 ∧ (u.me.thread t).tpc = s.cur.pc.setWidth 64

/-! ### Rules of single instructions, word for word -/

/-- POPC, CLZ and BREV (R76). -/
def Obligations.PopcClzBrevValues : Prop :=
  (∀ (w : Nat) (i : Instr), w < 2 ^ 64 → w / 2 ^ 62 % 2 = 0 → w / 2 ^ 54 % 256 = 0x2C → decode .bench w = .ok i →
    w / 2 ^ 16 % 2 ^ 16 = 0 ∧ w / 2 ^ 11 % 2 = 0 ∧ ∃ h d a,
      (w / 2 ^ 50 % 16 = 0 ∧ i = .popc h d a) ∨ (w / 2 ^ 50 % 16 = 1 ∧ i = .clz h d a) ∨ (w / 2 ^ 50 % 16 = 2 ∧ i = .brev h d a)) ∧
  ∀ (s : State) (h : Hdr) (d a : Opd),
    (let q := claim1 h .bits d a fun x => BitVec.ofNat 32 ((List.range 32).filter fun i => x.getLsbD i).length
     q.Runs s → exec (.popc h d a) s = .next (q.after s)) ∧
    (let q := claim1 h .bits d a fun x => BitVec.ofNat 32 ((List.range 32).takeWhile fun i => !x.getLsbD (31 - i)).length
     q.Runs s → exec (.clz h d a) s = .next (q.after s)) ∧
    (let q := claim1 h .bits d a fun x => bitsWord fun i => x.getLsbD (31 - i)
     q.Runs s → exec (.brev h d a) s = .next (q.after s))

/-- TCLR (R120). -/
def Obligations.TclrClearsTaint : Prop :=
  (∀ (w : Nat) (i : Instr), w < 2 ^ 64 → w / 2 ^ 62 % 2 = 0 → w / 2 ^ 54 % 256 = 0x7E → decode .bench w = .ok i →
    w % 2 ^ 48 = 0 ∧ w / 2 ^ 50 % 16 = 0 ∧ ∃ h, i = .tclr h) ∧
  ∀ (s : State) (h : Hdr), s.Clear { h := h } → ∃ y : State, exec (.tclr h) s = .next (s.marked { h := h } y) ∧
    (∀ t, (y.me.thread t).tt = ((s.me.thread t).tt && !(s.acting { h := h }).contains t)) ∧
    y.me.v = s.me.v ∧ y.me.k = s.me.k ∧ y.me.cm = s.me.cm ∧ y.me.cpm = s.me.cpm ∧ y.mem = s.mem

/-- TPL and TPL.t (R116): CM takes the plate or the taint, CPM clears; nothing is raised, and nothing pends. -/
def Obligations.TplReadsPlates : Prop :=
  (∀ (w : Nat) (i : Instr), w < 2 ^ 64 → w / 2 ^ 62 % 2 = 0 → w / 2 ^ 54 % 256 = 0x78 → decode .bench w = .ok i →
    ∃ h, (w / 2 ^ 50 % 16 = 0 ∧ i = .tpl h (if w / 2 ^ 14 % 2 = 1 then .k (w / 2 ^ 32 % 256) else .v (w / 2 ^ 32 % 256))) ∨
      (w / 2 ^ 50 % 16 = 1 ∧ w / 2 ^ 32 % 256 = 0 ∧ i = .tplT h)) ∧
  (∀ (s : State) (h : Hdr) (a : Opd), let x : Shape := { h := h, named := [(a, 1)], cm := true, once := uniform [a] }
    s.Clear x → ∃ y : State, exec (.tpl h a) s = .next (s.marked x y) ∧
      (∀ t ∈ s.acting x, t < 32 →
        bitOf y.me.cm t = (s.me.read (if uniform [a] then (s.acting x).headD 0 else t) a).plate ∧ bitOf y.me.cpm t = false) ∧
      y.me.cmPend = s.me.cmPend ∧ y.me.v = s.me.v ∧ y.me.k = s.me.k) ∧
  ∀ (s : State) (h : Hdr), let x : Shape := { h := h, cm := true }
    s.Clear x → ∃ y : State, exec (.tplT h) s = .next (s.marked x y) ∧
      (∀ t ∈ s.acting x, t < 32 → bitOf y.me.cm t = (s.me.thread t).tt ∧ bitOf y.me.cpm t = false) ∧
      y.me.cmPend = s.me.cmPend ∧ y.me.v = s.me.v ∧ y.me.k = s.me.k

/-- FCLASS (R138): exactly one bit, by the class of the FP32 code; no flag. -/
def Obligations.FclassWritesOneBit : Prop :=
  (∀ (w : Nat) (i : Instr), w < 2 ^ 64 → w / 2 ^ 62 % 2 = 0 → w / 2 ^ 54 % 256 = 0x46 → decode .bench w = .ok i →
    w / 2 ^ 50 % 16 = 0 ∧ w / 2 ^ 16 % 2 ^ 16 = 0 ∧ ∃ h d a, i = .fclass h d a) ∧
  ∀ (s : State) (h : Hdr) (d a : Opd),
    let cls (x : Word) : Nat :=
      if x.toNat / 2 ^ 23 % 256 = 255 then
        if x.toNat % 2 ^ 23 = 0 then (if x.getLsbD 31 then 0 else 7) else if x.getLsbD 22 then 9 else 8
      else if x.toNat / 2 ^ 23 % 256 = 0 then
        if x.toNat % 2 ^ 23 = 0 then (if x.getLsbD 31 then 3 else 4) else if x.getLsbD 31 then 2 else 5
      else if x.getLsbD 31 then 1 else 6
    let q := regClaim h d [srcA a (.tagged 1)] 0 fun w t => BitVec.ofNat 32 (2 ^ cls (w.val t a))
    q.Runs s → exec (.fclass h d a) s = .next (q.after s)

/-- RDLN and RDLN.tile (R153). The decode clause leaves M[9:8] free: XIS may index the destination, by log 28. -/
def Obligations.RdlnGivesThreadNumber : Prop :=
  (∀ (w : Nat) (i : Instr), w < 2 ^ 64 → w / 2 ^ 62 % 2 = 0 → w / 2 ^ 54 % 256 = 0x65 → decode .bench w = .ok i →
    w / 2 ^ 50 % 16 = 0 ∧ w / 2 ^ 16 % 2 ^ 24 = 0 ∧ w / 2 % 2 ^ 7 = 0 ∧ w / 2 ^ 10 % 2 ^ 6 = 0 ∧
    ∃ h d, i = .rdln h (w % 2 == 1) d ∧ d.isK = false) ∧
  ∀ (s : State) (h : Hdr) (tile : Bool) (d : Opd), let x : Shape := { h := h, named := [(d, 1)] }
    s.Clear x → d.isK = false → ∃ y : State, exec (.rdln h tile d) s = .next (s.marked x y) ∧
      ∀ t ∈ s.acting x, ∃ l ∈ y.me.longs, l.writes =
        [{ t := t, dst := s.me.dst d, val := BitVec.ofNat 32 (if tile then t % s.me.tileSize else t), tag := 0
           plate := (s.me.thread t).tt }]

/-- FP32 results are rounded to nearest (R130, R134): no finite code lies nearer to the exact value than the result's. -/
def Obligations.RoundsToNearest : Prop :=
  ∀ (neg : Bool) (m : Nat) (e : Int) (v r : ℚ), (FVal.fin neg m e).ratio = some v →
    (fp32.decode (fp32.finish .rn (.fin neg m e)).1).ratio = some r →
    ∀ (c : Nat) (z : ℚ), c < 2 ^ 32 → (fp32.decode c).ratio = some z → |v - r| ≤ |v - z|

end
end

