-- ==== Sys2Proof/Laws/Tab.lean ====
section
/-! SUPPORT. What a table and the sparse memory read after a write, and that every memory operation keeps the canonical
form. -/

namespace Sys2Proof

variable {α : Type}

@[simp] theorem Tab.get_nil (d : α) (k : Nat) : Tab.get d [] k = d := rfl

@[simp] theorem Tab.get_put_same (d : α) (m : Tab α) (k : Nat) (x : α) : Tab.get d (Tab.put m k x) k = x := by
  induction m with
  | nil => simp [Tab.put, Tab.get]
  | cons p r ih =>
    obtain ⟨j, y⟩ := p
    unfold Tab.put
    split
    · simp [Tab.get]
    · split
      · simp [Tab.get]
      · rw [Tab.get, if_neg (by omega)]; exact ih

@[simp] theorem Tab.get_put_other (d : α) (m : Tab α) (k i : Nat) (x : α) (h : i ≠ k) :
    Tab.get d (Tab.put m k x) i = Tab.get d m i := by
  induction m with
  | nil => simp [Tab.put, Tab.get, Ne.symm h]
  | cons p r ih =>
    obtain ⟨j, y⟩ := p
    unfold Tab.put
    split
    · rw [Tab.get, if_neg (by omega)]
    · split
      · rename_i hj
        rw [Tab.get, if_neg (by omega), Tab.get, if_neg (by omega)]
      · simp only [Tab.get, ih]

@[simp] theorem Tab.put_put (m : Tab α) (k : Nat) (x y : α) : Tab.put (Tab.put m k x) k y = Tab.put m k y := by
  induction m with
  | nil => simp [Tab.put]
  | cons p r ih =>
    obtain ⟨j, z⟩ := p
    by_cases h1 : k < j
    · simp [Tab.put, h1]
    · by_cases h2 : j = k
      · simp [Tab.put, h2]
      · simp [Tab.put, h1, h2, ih]

theorem Tab.get_del_same (d : α) (m : Tab α) (k : Nat) : Tab.get d (Tab.del m k) k = d := by
  induction m with
  | nil => rfl
  | cons p r ih =>
    obtain ⟨j, y⟩ := p
    unfold Tab.del
    split
    · exact ih
    · rw [Tab.get, if_neg (by omega)]; exact ih

theorem Tab.get_del_other (d : α) (m : Tab α) (k i : Nat) (h : i ≠ k) : Tab.get d (Tab.del m k) i = Tab.get d m i := by
  induction m with
  | nil => rfl
  | cons p r ih =>
    obtain ⟨j, y⟩ := p
    unfold Tab.del
    split
    · rw [ih, Tab.get, if_neg (by omega)]
    · simp only [Tab.get, ih]

/-! ### The canonical form -/

/-- Every key of the table lies above `b`. -/
def Tab.above (b : Nat) (m : Tab α) : Prop := ∀ p ∈ m, b < p.1

theorem Tab.wf_cons (p : Nat × α) (m : Tab α) : Tab.wf (p :: m) = true ↔ Tab.wf m = true ∧ Tab.above p.1 m := by
  induction m generalizing p with
  | nil => simp [Tab.wf, Tab.above]
  | cons q r ih =>
    obtain ⟨i, x⟩ := p
    obtain ⟨j, y⟩ := q
    simp only [Tab.wf, Bool.and_eq_true, decide_eq_true_eq]
    constructor
    · rintro ⟨hij, hw⟩
      refine ⟨hw, fun p hp => ?_⟩
      rcases List.mem_cons.mp hp with rfl | hp
      · exact hij
      · exact Nat.lt_trans hij (((ih (j, y)).mp hw).2 p hp)
    · rintro ⟨hw, ha⟩
      exact ⟨ha (j, y) List.mem_cons_self, hw⟩

theorem Tab.mem_put {m : Tab α} {k : Nat} {x : α} {p : Nat × α} (h : p ∈ Tab.put m k x) : p = (k, x) ∨ p ∈ m := by
  induction m with
  | nil => simpa [Tab.put] using h
  | cons q r ih =>
    obtain ⟨j, y⟩ := q
    unfold Tab.put at h
    split at h
    · simpa using h
    · split at h
      · simp at h ⊢
        rcases h with h | h
        · exact .inl h
        · exact .inr (.inr h)
      · rcases List.mem_cons.mp h with h | h
        · exact .inr (by simp [h])
        · rcases ih h with h | h
          · exact .inl h
          · exact .inr (by simp [h])

theorem Tab.put_wf {m : Tab α} (k : Nat) (x : α) (h : Tab.wf m = true) : Tab.wf (Tab.put m k x) = true := by
  induction m with
  | nil => rfl
  | cons q r ih =>
    obtain ⟨j, y⟩ := q
    obtain ⟨hr, ha⟩ := (Tab.wf_cons _ _).mp h
    unfold Tab.put
    split
    · refine (Tab.wf_cons _ _).mpr ⟨h, fun p hp => ?_⟩
      rcases List.mem_cons.mp hp with rfl | hp
      · assumption
      · exact Nat.lt_trans ‹k < j› (ha p hp)
    · split
      · subst ‹j = k›
        exact (Tab.wf_cons _ _).mpr ⟨hr, ha⟩
      · refine (Tab.wf_cons _ _).mpr ⟨ih hr, fun p hp => ?_⟩
        rcases Tab.mem_put hp with rfl | hp
        · show j < k; omega
        · exact ha p hp

theorem Tab.mem_del {m : Tab α} {k : Nat} {p : Nat × α} (h : p ∈ Tab.del m k) : p ∈ m := by
  induction m with
  | nil => exact h
  | cons q r ih =>
    obtain ⟨j, y⟩ := q
    unfold Tab.del at h
    split at h
    · exact List.mem_cons_of_mem _ (ih h)
    · rcases List.mem_cons.mp h with h | h
      · simp [h]
      · exact List.mem_cons_of_mem _ (ih h)

theorem Tab.del_wf {m : Tab α} (k : Nat) (h : Tab.wf m = true) : Tab.wf (Tab.del m k) = true := by
  induction m with
  | nil => rfl
  | cons q r ih =>
    obtain ⟨j, y⟩ := q
    obtain ⟨hr, ha⟩ := (Tab.wf_cons _ _).mp h
    unfold Tab.del
    split
    · exact ih hr
    · exact (Tab.wf_cons _ _).mpr ⟨ih hr, fun p hp => ha p (Tab.mem_del hp)⟩

namespace Machine

/-! ### Memory -/

/-- A write of a byte is read back, and every other byte reads as before. -/
@[simp] theorem memGet_memPut_same (m : List Host.Cell) (a : Nat) (b : Byte) : memGet (memPut m a b) a = b := by
  unfold memPut
  split
  · rename_i h; rw [h]; exact Tab.get_del_same _ _ _
  · exact Tab.get_put_same _ _ _ _
theorem memGet_memPut_other (m : List Host.Cell) (a i : Nat) (b : Byte) (h : i ≠ a) :
    memGet (memPut m a b) i = memGet m i := by
  unfold memPut
  split
  · exact Tab.get_del_other _ _ _ _ h
  · exact Tab.get_put_other _ _ _ _ _ h

theorem memPut_wf {m : List Host.Cell} (a : Nat) (b : Byte) (h : Memory.wf m = true) : Memory.wf (memPut m a b) = true := by
  simp only [Memory.wf, Bool.and_eq_true, List.all_eq_true] at h ⊢
  unfold memPut
  split
  · exact ⟨Tab.del_wf a h.1, fun p hp => h.2 p (Tab.mem_del hp)⟩
  · refine ⟨Tab.put_wf a b h.1, fun p hp => ?_⟩
    rcases Tab.mem_put hp with rfl | hp
    · simpa using ‹¬b = 0›
    · exact h.2 p hp
theorem memPutBytes_wf {m : List Host.Cell} (a : Nat) (l : List Byte) (h : Memory.wf m = true) :
    Memory.wf (memPutBytes m a l) = true := by
  induction l generalizing m a with
  | nil => exact h
  | cons b r ih => exact ih (a + 1) (memPut_wf a b h)
theorem setPd_wf {s : State} (a i : Nat) (d : Dword) (h : Memory.wf s.mem = true) : Memory.wf (s.setPd a i d).mem = true :=
  memPutBytes_wf _ _ h

/-- Bytes outside a range that is written read as before. -/
theorem memGet_memPutBytes_out (m : List Host.Cell) (a i : Nat) (l : List Byte) (h : i < a ∨ a + l.length ≤ i) :
    memGet (memPutBytes m a l) i = memGet m i := by
  induction l generalizing m a with
  | nil => rfl
  | cons b r ih =>
    simp only [List.length_cons] at h
    show memGet (memPutBytes (memPut m a b) (a + 1) r) i = _
    rw [ih (memPut m a b) (a + 1) (by omega), memGet_memPut_other _ _ _ _ (by omega)]

@[simp] theorem memBytes_length (m : List Host.Cell) (a n : Nat) : (memBytes m a n).length = n := by
  induction n generalizing a with
  | zero => rfl
  | succ n ih => simp [memBytes, ih]
@[simp] theorem leBytes_length (n v : Nat) : (leBytes n v).length = n := by
  induction n generalizing v with
  | zero => rfl
  | succ n ih => simp [leBytes, ih]

/-- What is written is read back. -/
theorem memBytes_memPutBytes (m : List Host.Cell) (a : Nat) (l : List Byte) : memBytes (memPutBytes m a l) a l.length = l := by
  induction l generalizing m a with
  | nil => rfl
  | cons b r ih =>
    show memGet (memPutBytes (memPut m a b) (a + 1) r) a :: memBytes (memPutBytes (memPut m a b) (a + 1) r) (a + 1) r.length = _
    rw [ih, memGet_memPutBytes_out _ _ _ _ (by omega), memGet_memPut_same]

end Machine
end Sys2Proof
end

