-- ==== Sys2Proof/Laws/State.lean ====
section
/-! SUPPORT. What each update of the state leaves of each field, and what the accessors read after it. -/

namespace Sys2Proof.Machine

@[simp] theorem State.setCluster_tick (s : State) (c : Nat) (x : Cluster) : (s.setCluster c x).tick = s.tick := rfl
@[simp] theorem State.setCluster_boot (s : State) (c : Nat) (x : Cluster) : (s.setCluster c x).boot = s.boot := rfl
@[simp] theorem State.setCluster_mem (s : State) (c : Nat) (x : Cluster) : (s.setCluster c x).mem = s.mem := rfl
@[simp] theorem State.setCluster_poison (s : State) (c : Nat) (x : Cluster) : (s.setCluster c x).poison = s.poison := rfl
@[simp] theorem State.setCluster_ctxs (s : State) (c : Nat) (x : Cluster) : (s.setCluster c x).ctxs = s.ctxs := rfl
@[simp] theorem State.setCluster_launches (s : State) (c : Nat) (x : Cluster) : (s.setCluster c x).launches = s.launches := rfl
@[simp] theorem State.setCluster_enqueued (s : State) (c : Nat) (x : Cluster) : (s.setCluster c x).enqueued = s.enqueued := rfl
@[simp] theorem State.setCluster_images (s : State) (c : Nat) (x : Cluster) : (s.setCluster c x).images = s.images := rfl
@[simp] theorem State.setCluster_shadows (s : State) (c : Nat) (x : Cluster) : (s.setCluster c x).shadows = s.shadows := rfl
@[simp] theorem State.setCluster_pages (s : State) (c : Nat) (x : Cluster) : (s.setCluster c x).pages = s.pages := rfl
@[simp] theorem State.setCluster_scats (s : State) (c : Nat) (x : Cluster) : (s.setCluster c x).scats = s.scats := rfl
@[simp] theorem State.setCluster_tlb (s : State) (c : Nat) (x : Cluster) : (s.setCluster c x).tlb = s.tlb := rfl
@[simp] theorem State.setCluster_l2Dirty (s : State) (c : Nat) (x : Cluster) : (s.setCluster c x).l2Dirty = s.l2Dirty := rfl
@[simp] theorem State.setCluster_frames (s : State) (c : Nat) (x : Cluster) : (s.setCluster c x).frames = s.frames := rfl
@[simp] theorem State.setCluster_msc (s : State) (c : Nat) (x : Cluster) : (s.setCluster c x).msc = s.msc := rfl
@[simp] theorem State.setCluster_globals (s : State) (c : Nat) (x : Cluster) : (s.setCluster c x).globals = s.globals := rfl
@[simp] theorem State.setCluster_fresh (s : State) (c : Nat) (x : Cluster) : (s.setCluster c x).fresh = s.fresh := rfl
@[simp] theorem State.setCluster_freshTier (s : State) (c : Nat) (x : Cluster) : (s.setCluster c x).freshTier = s.freshTier := rfl
@[simp] theorem State.setCluster_freeFrames (s : State) (c : Nat) (x : Cluster) : (s.setCluster c x).freeFrames = s.freeFrames := rfl
@[simp] theorem State.setCluster_blocks (s : State) (c : Nat) (x : Cluster) : (s.setCluster c x).blocks = s.blocks := rfl
@[simp] theorem State.setCluster_bare (s : State) (c : Nat) (x : Cluster) : (s.setCluster c x).bare = s.bare := rfl
@[simp] theorem State.setCluster_pools (s : State) (c : Nat) (x : Cluster) : (s.setCluster c x).pools = s.pools := rfl
@[simp] theorem State.setCluster_lwaits (s : State) (c : Nat) (x : Cluster) : (s.setCluster c x).lwaits = s.lwaits := rfl
@[simp] theorem State.setCluster_cursors (s : State) (c : Nat) (x : Cluster) : (s.setCluster c x).cursors = s.cursors := rfl
@[simp] theorem State.setCluster_l2 (s : State) (c : Nat) (x : Cluster) : (s.setCluster c x).l2 = s.l2 := rfl
@[simp] theorem State.setCluster_podDevs (s : State) (c : Nat) (x : Cluster) : (s.setCluster c x).podDevs = s.podDevs := rfl
@[simp] theorem State.setCluster_portRecs (s : State) (c : Nat) (x : Cluster) : (s.setCluster c x).portRecs = s.portRecs := rfl
@[simp] theorem State.setCluster_skips (s : State) (c : Nat) (x : Cluster) : (s.setCluster c x).skips = s.skips := rfl
@[simp] theorem State.setCluster_xrFreed (s : State) (c : Nat) (x : Cluster) : (s.setCluster c x).xrFreed = s.xrFreed := rfl
@[simp] theorem State.setCluster_engines (s : State) (c : Nat) (x : Cluster) : (s.setCluster c x).engines = s.engines := rfl
@[simp] theorem State.setCluster_xrSlots (s : State) (c : Nat) (x : Cluster) : (s.setCluster c x).xrSlots = s.xrSlots := rfl
@[simp] theorem State.setCluster_xrJoins (s : State) (c : Nat) (x : Cluster) : (s.setCluster c x).xrJoins = s.xrJoins := rfl
@[simp] theorem State.setCluster_xrFlights (s : State) (c : Nat) (x : Cluster) : (s.setCluster c x).xrFlights = s.xrFlights := rfl
@[simp] theorem State.setCluster_xrNext (s : State) (c : Nat) (x : Cluster) : (s.setCluster c x).xrNext = s.xrNext := rfl
@[simp] theorem State.setCluster_ports (s : State) (c : Nat) (x : Cluster) : (s.setCluster c x).ports = s.ports := rfl
@[simp] theorem State.setCluster_thr0 (s : State) (c : Nat) (x : Cluster) : (s.setCluster c x).thr0 = s.thr0 := rfl
@[simp] theorem State.setCluster_thr1 (s : State) (c : Nat) (x : Cluster) : (s.setCluster c x).thr1 = s.thr1 := rfl
@[simp] theorem State.setCluster_tw0 (s : State) (c : Nat) (x : Cluster) : (s.setCluster c x).tw0 = s.tw0 := rfl
@[simp] theorem State.setCluster_tw1 (s : State) (c : Nat) (x : Cluster) : (s.setCluster c x).tw1 = s.tw1 := rfl
@[simp] theorem State.setCluster_dev (s : State) (c : Nat) (x : Cluster) : (s.setCluster c x).dev = s.dev := rfl
@[simp] theorem State.setCluster_pod (s : State) (c : Nat) (x : Cluster) : (s.setCluster c x).pod = s.pod := rfl
@[simp] theorem State.setCluster_hostPort (s : State) (c : Nat) (x : Cluster) : (s.setCluster c x).hostPort = s.hostPort := rfl
@[simp] theorem State.setCluster_mscGiB (s : State) (c : Nat) (x : Cluster) : (s.setCluster c x).mscGiB = s.mscGiB := rfl
@[simp] theorem State.setCluster_health (s : State) (c : Nat) (x : Cluster) : (s.setCluster c x).health = s.health := rfl
@[simp] theorem State.setCluster_why (s : State) (c : Nat) (x : Cluster) : (s.setCluster c x).why = s.why := rfl
@[simp] theorem State.setCluster_clr (s : State) (c : Nat) (x : Cluster) : (s.setCluster c x).clr = s.clr := rfl
@[simp] theorem State.setCluster_pcr (s : State) (c : Nat) (x : Cluster) : (s.setCluster c x).pcr = s.pcr := rfl
@[simp] theorem State.setCluster_lnr (s : State) (c : Nat) (x : Cluster) : (s.setCluster c x).lnr = s.lnr := rfl
@[simp] theorem State.setCluster_retiredClusters (s : State) (c : Nat) (x : Cluster) : (s.setCluster c x).retiredClusters = s.retiredClusters := rfl
@[simp] theorem State.setCluster_retiredChannels (s : State) (c : Nat) (x : Cluster) : (s.setCluster c x).retiredChannels = s.retiredChannels := rfl
@[simp] theorem State.setCluster_retiredLanes (s : State) (c : Nat) (x : Cluster) : (s.setCluster c x).retiredLanes = s.retiredLanes := rfl
@[simp] theorem State.setCluster_retiredPorts (s : State) (c : Nat) (x : Cluster) : (s.setCluster c x).retiredPorts = s.retiredPorts := rfl
@[simp] theorem State.setCluster_retirements (s : State) (c : Nat) (x : Cluster) : (s.setCluster c x).retirements = s.retirements := rfl
@[simp] theorem State.setCluster_channelsOut (s : State) (c : Nat) (x : Cluster) : (s.setCluster c x).channelsOut = s.channelsOut := rfl
@[simp] theorem State.setCluster_lifetime (s : State) (c : Nat) (x : Cluster) : (s.setCluster c x).lifetime = s.lifetime := rfl
@[simp] theorem State.setCluster_lifetimeAt (s : State) (c : Nat) (x : Cluster) : (s.setCluster c x).lifetimeAt = s.lifetimeAt := rfl
@[simp] theorem State.setCluster_flash (s : State) (c : Nat) (x : Cluster) : (s.setCluster c x).flash = s.flash := rfl
@[simp] theorem State.setCluster_version (s : State) (c : Nat) (x : Cluster) : (s.setCluster c x).version = s.version := rfl
@[simp] theorem State.setCluster_firmware (s : State) (c : Nat) (x : Cluster) : (s.setCluster c x).firmware = s.firmware := rfl
@[simp] theorem State.setCluster_verified (s : State) (c : Nat) (x : Cluster) : (s.setCluster c x).verified = s.verified := rfl
@[simp] theorem State.setCluster_halted (s : State) (c : Nat) (x : Cluster) : (s.setCluster c x).halted = s.halted := rfl
@[simp] theorem State.setCluster_record (s : State) (c : Nat) (x : Cluster) : (s.setCluster c x).record = s.record := rfl
@[simp] theorem State.setCluster_counters (s : State) (c : Nat) (x : Cluster) : (s.setCluster c x).counters = s.counters := rfl
@[simp] theorem State.setCluster_told (s : State) (c : Nat) (x : Cluster) : (s.setCluster c x).told = s.told := rfl
@[simp] theorem State.setCluster_outs (s : State) (c : Nat) (x : Cluster) : (s.setCluster c x).outs = s.outs := rfl
@[simp] theorem State.setCluster_outNext (s : State) (c : Nat) (x : Cluster) : (s.setCluster c x).outNext = s.outNext := rfl
@[simp] theorem State.setCluster_answers (s : State) (c : Nat) (x : Cluster) : (s.setCluster c x).answers = s.answers := rfl
@[simp] theorem State.setCluster_mgmtOut (s : State) (c : Nat) (x : Cluster) : (s.setCluster c x).mgmtOut = s.mgmtOut := rfl
@[simp] theorem State.setCluster_heldRecords (s : State) (c : Nat) (x : Cluster) : (s.setCluster c x).heldRecords = s.heldRecords := rfl
@[simp] theorem State.setCluster_deadDies (s : State) (c : Nat) (x : Cluster) : (s.setCluster c x).deadDies = s.deadDies := rfl
@[simp] theorem State.setCluster_agenda (s : State) (c : Nat) (x : Cluster) : (s.setCluster c x).agenda = s.agenda := rfl
@[simp] theorem State.setCluster_turns (s : State) (c : Nat) (x : Cluster) : (s.setCluster c x).turns = s.turns := rfl
@[simp] theorem State.setCluster_frees (s : State) (c : Nat) (x : Cluster) : (s.setCluster c x).frees = s.frees := rfl
@[simp] theorem State.setCluster_cur (s : State) (c : Nat) (x : Cluster) : (s.setCluster c x).cur = s.cur := rfl

@[simp] theorem State.setCtx_tick (s : State) (n : Nat) (x : Ctx) : (s.setCtx n x).tick = s.tick := rfl
@[simp] theorem State.setCtx_boot (s : State) (n : Nat) (x : Ctx) : (s.setCtx n x).boot = s.boot := rfl
@[simp] theorem State.setCtx_mem (s : State) (n : Nat) (x : Ctx) : (s.setCtx n x).mem = s.mem := rfl
@[simp] theorem State.setCtx_poison (s : State) (n : Nat) (x : Ctx) : (s.setCtx n x).poison = s.poison := rfl
@[simp] theorem State.setCtx_clusters (s : State) (n : Nat) (x : Ctx) : (s.setCtx n x).clusters = s.clusters := rfl
@[simp] theorem State.setCtx_launches (s : State) (n : Nat) (x : Ctx) : (s.setCtx n x).launches = s.launches := rfl
@[simp] theorem State.setCtx_enqueued (s : State) (n : Nat) (x : Ctx) : (s.setCtx n x).enqueued = s.enqueued := rfl
@[simp] theorem State.setCtx_images (s : State) (n : Nat) (x : Ctx) : (s.setCtx n x).images = s.images := rfl
@[simp] theorem State.setCtx_shadows (s : State) (n : Nat) (x : Ctx) : (s.setCtx n x).shadows = s.shadows := rfl
@[simp] theorem State.setCtx_pages (s : State) (n : Nat) (x : Ctx) : (s.setCtx n x).pages = s.pages := rfl
@[simp] theorem State.setCtx_scats (s : State) (n : Nat) (x : Ctx) : (s.setCtx n x).scats = s.scats := rfl
@[simp] theorem State.setCtx_tlb (s : State) (n : Nat) (x : Ctx) : (s.setCtx n x).tlb = s.tlb := rfl
@[simp] theorem State.setCtx_l2Dirty (s : State) (n : Nat) (x : Ctx) : (s.setCtx n x).l2Dirty = s.l2Dirty := rfl
@[simp] theorem State.setCtx_frames (s : State) (n : Nat) (x : Ctx) : (s.setCtx n x).frames = s.frames := rfl
@[simp] theorem State.setCtx_msc (s : State) (n : Nat) (x : Ctx) : (s.setCtx n x).msc = s.msc := rfl
@[simp] theorem State.setCtx_globals (s : State) (n : Nat) (x : Ctx) : (s.setCtx n x).globals = s.globals := rfl
@[simp] theorem State.setCtx_fresh (s : State) (n : Nat) (x : Ctx) : (s.setCtx n x).fresh = s.fresh := rfl
@[simp] theorem State.setCtx_freshTier (s : State) (n : Nat) (x : Ctx) : (s.setCtx n x).freshTier = s.freshTier := rfl
@[simp] theorem State.setCtx_freeFrames (s : State) (n : Nat) (x : Ctx) : (s.setCtx n x).freeFrames = s.freeFrames := rfl
@[simp] theorem State.setCtx_blocks (s : State) (n : Nat) (x : Ctx) : (s.setCtx n x).blocks = s.blocks := rfl
@[simp] theorem State.setCtx_bare (s : State) (n : Nat) (x : Ctx) : (s.setCtx n x).bare = s.bare := rfl
@[simp] theorem State.setCtx_pools (s : State) (n : Nat) (x : Ctx) : (s.setCtx n x).pools = s.pools := rfl
@[simp] theorem State.setCtx_lwaits (s : State) (n : Nat) (x : Ctx) : (s.setCtx n x).lwaits = s.lwaits := rfl
@[simp] theorem State.setCtx_cursors (s : State) (n : Nat) (x : Ctx) : (s.setCtx n x).cursors = s.cursors := rfl
@[simp] theorem State.setCtx_l2 (s : State) (n : Nat) (x : Ctx) : (s.setCtx n x).l2 = s.l2 := rfl
@[simp] theorem State.setCtx_podDevs (s : State) (n : Nat) (x : Ctx) : (s.setCtx n x).podDevs = s.podDevs := rfl
@[simp] theorem State.setCtx_portRecs (s : State) (n : Nat) (x : Ctx) : (s.setCtx n x).portRecs = s.portRecs := rfl
@[simp] theorem State.setCtx_skips (s : State) (n : Nat) (x : Ctx) : (s.setCtx n x).skips = s.skips := rfl
@[simp] theorem State.setCtx_xrFreed (s : State) (n : Nat) (x : Ctx) : (s.setCtx n x).xrFreed = s.xrFreed := rfl
@[simp] theorem State.setCtx_engines (s : State) (n : Nat) (x : Ctx) : (s.setCtx n x).engines = s.engines := rfl
@[simp] theorem State.setCtx_xrSlots (s : State) (n : Nat) (x : Ctx) : (s.setCtx n x).xrSlots = s.xrSlots := rfl
@[simp] theorem State.setCtx_xrJoins (s : State) (n : Nat) (x : Ctx) : (s.setCtx n x).xrJoins = s.xrJoins := rfl
@[simp] theorem State.setCtx_xrFlights (s : State) (n : Nat) (x : Ctx) : (s.setCtx n x).xrFlights = s.xrFlights := rfl
@[simp] theorem State.setCtx_xrNext (s : State) (n : Nat) (x : Ctx) : (s.setCtx n x).xrNext = s.xrNext := rfl
@[simp] theorem State.setCtx_ports (s : State) (n : Nat) (x : Ctx) : (s.setCtx n x).ports = s.ports := rfl
@[simp] theorem State.setCtx_thr0 (s : State) (n : Nat) (x : Ctx) : (s.setCtx n x).thr0 = s.thr0 := rfl
@[simp] theorem State.setCtx_thr1 (s : State) (n : Nat) (x : Ctx) : (s.setCtx n x).thr1 = s.thr1 := rfl
@[simp] theorem State.setCtx_tw0 (s : State) (n : Nat) (x : Ctx) : (s.setCtx n x).tw0 = s.tw0 := rfl
@[simp] theorem State.setCtx_tw1 (s : State) (n : Nat) (x : Ctx) : (s.setCtx n x).tw1 = s.tw1 := rfl
@[simp] theorem State.setCtx_dev (s : State) (n : Nat) (x : Ctx) : (s.setCtx n x).dev = s.dev := rfl
@[simp] theorem State.setCtx_pod (s : State) (n : Nat) (x : Ctx) : (s.setCtx n x).pod = s.pod := rfl
@[simp] theorem State.setCtx_hostPort (s : State) (n : Nat) (x : Ctx) : (s.setCtx n x).hostPort = s.hostPort := rfl
@[simp] theorem State.setCtx_mscGiB (s : State) (n : Nat) (x : Ctx) : (s.setCtx n x).mscGiB = s.mscGiB := rfl
@[simp] theorem State.setCtx_health (s : State) (n : Nat) (x : Ctx) : (s.setCtx n x).health = s.health := rfl
@[simp] theorem State.setCtx_why (s : State) (n : Nat) (x : Ctx) : (s.setCtx n x).why = s.why := rfl
@[simp] theorem State.setCtx_clr (s : State) (n : Nat) (x : Ctx) : (s.setCtx n x).clr = s.clr := rfl
@[simp] theorem State.setCtx_pcr (s : State) (n : Nat) (x : Ctx) : (s.setCtx n x).pcr = s.pcr := rfl
@[simp] theorem State.setCtx_lnr (s : State) (n : Nat) (x : Ctx) : (s.setCtx n x).lnr = s.lnr := rfl
@[simp] theorem State.setCtx_retiredClusters (s : State) (n : Nat) (x : Ctx) : (s.setCtx n x).retiredClusters = s.retiredClusters := rfl
@[simp] theorem State.setCtx_retiredChannels (s : State) (n : Nat) (x : Ctx) : (s.setCtx n x).retiredChannels = s.retiredChannels := rfl
@[simp] theorem State.setCtx_retiredLanes (s : State) (n : Nat) (x : Ctx) : (s.setCtx n x).retiredLanes = s.retiredLanes := rfl
@[simp] theorem State.setCtx_retiredPorts (s : State) (n : Nat) (x : Ctx) : (s.setCtx n x).retiredPorts = s.retiredPorts := rfl
@[simp] theorem State.setCtx_retirements (s : State) (n : Nat) (x : Ctx) : (s.setCtx n x).retirements = s.retirements := rfl
@[simp] theorem State.setCtx_channelsOut (s : State) (n : Nat) (x : Ctx) : (s.setCtx n x).channelsOut = s.channelsOut := rfl
@[simp] theorem State.setCtx_lifetime (s : State) (n : Nat) (x : Ctx) : (s.setCtx n x).lifetime = s.lifetime := rfl
@[simp] theorem State.setCtx_lifetimeAt (s : State) (n : Nat) (x : Ctx) : (s.setCtx n x).lifetimeAt = s.lifetimeAt := rfl
@[simp] theorem State.setCtx_flash (s : State) (n : Nat) (x : Ctx) : (s.setCtx n x).flash = s.flash := rfl
@[simp] theorem State.setCtx_version (s : State) (n : Nat) (x : Ctx) : (s.setCtx n x).version = s.version := rfl
@[simp] theorem State.setCtx_firmware (s : State) (n : Nat) (x : Ctx) : (s.setCtx n x).firmware = s.firmware := rfl
@[simp] theorem State.setCtx_verified (s : State) (n : Nat) (x : Ctx) : (s.setCtx n x).verified = s.verified := rfl
@[simp] theorem State.setCtx_halted (s : State) (n : Nat) (x : Ctx) : (s.setCtx n x).halted = s.halted := rfl
@[simp] theorem State.setCtx_record (s : State) (n : Nat) (x : Ctx) : (s.setCtx n x).record = s.record := rfl
@[simp] theorem State.setCtx_counters (s : State) (n : Nat) (x : Ctx) : (s.setCtx n x).counters = s.counters := rfl
@[simp] theorem State.setCtx_told (s : State) (n : Nat) (x : Ctx) : (s.setCtx n x).told = s.told := rfl
@[simp] theorem State.setCtx_outs (s : State) (n : Nat) (x : Ctx) : (s.setCtx n x).outs = s.outs := rfl
@[simp] theorem State.setCtx_outNext (s : State) (n : Nat) (x : Ctx) : (s.setCtx n x).outNext = s.outNext := rfl
@[simp] theorem State.setCtx_answers (s : State) (n : Nat) (x : Ctx) : (s.setCtx n x).answers = s.answers := rfl
@[simp] theorem State.setCtx_mgmtOut (s : State) (n : Nat) (x : Ctx) : (s.setCtx n x).mgmtOut = s.mgmtOut := rfl
@[simp] theorem State.setCtx_heldRecords (s : State) (n : Nat) (x : Ctx) : (s.setCtx n x).heldRecords = s.heldRecords := rfl
@[simp] theorem State.setCtx_deadDies (s : State) (n : Nat) (x : Ctx) : (s.setCtx n x).deadDies = s.deadDies := rfl
@[simp] theorem State.setCtx_agenda (s : State) (n : Nat) (x : Ctx) : (s.setCtx n x).agenda = s.agenda := rfl
@[simp] theorem State.setCtx_turns (s : State) (n : Nat) (x : Ctx) : (s.setCtx n x).turns = s.turns := rfl
@[simp] theorem State.setCtx_frees (s : State) (n : Nat) (x : Ctx) : (s.setCtx n x).frees = s.frees := rfl
@[simp] theorem State.setCtx_cur (s : State) (n : Nat) (x : Ctx) : (s.setCtx n x).cur = s.cur := rfl

@[simp] theorem State.setPd_tick (s : State) (a i : Nat) (d : Dword) : (s.setPd a i d).tick = s.tick := rfl
@[simp] theorem State.setPd_boot (s : State) (a i : Nat) (d : Dword) : (s.setPd a i d).boot = s.boot := rfl
@[simp] theorem State.setPd_poison (s : State) (a i : Nat) (d : Dword) : (s.setPd a i d).poison = s.poison := rfl
@[simp] theorem State.setPd_clusters (s : State) (a i : Nat) (d : Dword) : (s.setPd a i d).clusters = s.clusters := rfl
@[simp] theorem State.setPd_ctxs (s : State) (a i : Nat) (d : Dword) : (s.setPd a i d).ctxs = s.ctxs := rfl
@[simp] theorem State.setPd_launches (s : State) (a i : Nat) (d : Dword) : (s.setPd a i d).launches = s.launches := rfl
@[simp] theorem State.setPd_enqueued (s : State) (a i : Nat) (d : Dword) : (s.setPd a i d).enqueued = s.enqueued := rfl
@[simp] theorem State.setPd_images (s : State) (a i : Nat) (d : Dword) : (s.setPd a i d).images = s.images := rfl
@[simp] theorem State.setPd_shadows (s : State) (a i : Nat) (d : Dword) : (s.setPd a i d).shadows = s.shadows := rfl
@[simp] theorem State.setPd_pages (s : State) (a i : Nat) (d : Dword) : (s.setPd a i d).pages = s.pages := rfl
@[simp] theorem State.setPd_scats (s : State) (a i : Nat) (d : Dword) : (s.setPd a i d).scats = s.scats := rfl
@[simp] theorem State.setPd_tlb (s : State) (a i : Nat) (d : Dword) : (s.setPd a i d).tlb = s.tlb := rfl
@[simp] theorem State.setPd_l2Dirty (s : State) (a i : Nat) (d : Dword) : (s.setPd a i d).l2Dirty = s.l2Dirty := rfl
@[simp] theorem State.setPd_frames (s : State) (a i : Nat) (d : Dword) : (s.setPd a i d).frames = s.frames := rfl
@[simp] theorem State.setPd_msc (s : State) (a i : Nat) (d : Dword) : (s.setPd a i d).msc = s.msc := rfl
@[simp] theorem State.setPd_globals (s : State) (a i : Nat) (d : Dword) : (s.setPd a i d).globals = s.globals := rfl
@[simp] theorem State.setPd_fresh (s : State) (a i : Nat) (d : Dword) : (s.setPd a i d).fresh = s.fresh := rfl
@[simp] theorem State.setPd_freshTier (s : State) (a i : Nat) (d : Dword) : (s.setPd a i d).freshTier = s.freshTier := rfl
@[simp] theorem State.setPd_freeFrames (s : State) (a i : Nat) (d : Dword) : (s.setPd a i d).freeFrames = s.freeFrames := rfl
@[simp] theorem State.setPd_blocks (s : State) (a i : Nat) (d : Dword) : (s.setPd a i d).blocks = s.blocks := rfl
@[simp] theorem State.setPd_bare (s : State) (a i : Nat) (d : Dword) : (s.setPd a i d).bare = s.bare := rfl
@[simp] theorem State.setPd_pools (s : State) (a i : Nat) (d : Dword) : (s.setPd a i d).pools = s.pools := rfl
@[simp] theorem State.setPd_lwaits (s : State) (a i : Nat) (d : Dword) : (s.setPd a i d).lwaits = s.lwaits := rfl
@[simp] theorem State.setPd_cursors (s : State) (a i : Nat) (d : Dword) : (s.setPd a i d).cursors = s.cursors := rfl
@[simp] theorem State.setPd_l2 (s : State) (a i : Nat) (d : Dword) : (s.setPd a i d).l2 = s.l2 := rfl
@[simp] theorem State.setPd_podDevs (s : State) (a i : Nat) (d : Dword) : (s.setPd a i d).podDevs = s.podDevs := rfl
@[simp] theorem State.setPd_portRecs (s : State) (a i : Nat) (d : Dword) : (s.setPd a i d).portRecs = s.portRecs := rfl
@[simp] theorem State.setPd_skips (s : State) (a i : Nat) (d : Dword) : (s.setPd a i d).skips = s.skips := rfl
@[simp] theorem State.setPd_xrFreed (s : State) (a i : Nat) (d : Dword) : (s.setPd a i d).xrFreed = s.xrFreed := rfl
@[simp] theorem State.setPd_engines (s : State) (a i : Nat) (d : Dword) : (s.setPd a i d).engines = s.engines := rfl
@[simp] theorem State.setPd_xrSlots (s : State) (a i : Nat) (d : Dword) : (s.setPd a i d).xrSlots = s.xrSlots := rfl
@[simp] theorem State.setPd_xrJoins (s : State) (a i : Nat) (d : Dword) : (s.setPd a i d).xrJoins = s.xrJoins := rfl
@[simp] theorem State.setPd_xrFlights (s : State) (a i : Nat) (d : Dword) : (s.setPd a i d).xrFlights = s.xrFlights := rfl
@[simp] theorem State.setPd_xrNext (s : State) (a i : Nat) (d : Dword) : (s.setPd a i d).xrNext = s.xrNext := rfl
@[simp] theorem State.setPd_ports (s : State) (a i : Nat) (d : Dword) : (s.setPd a i d).ports = s.ports := rfl
@[simp] theorem State.setPd_thr0 (s : State) (a i : Nat) (d : Dword) : (s.setPd a i d).thr0 = s.thr0 := rfl
@[simp] theorem State.setPd_thr1 (s : State) (a i : Nat) (d : Dword) : (s.setPd a i d).thr1 = s.thr1 := rfl
@[simp] theorem State.setPd_tw0 (s : State) (a i : Nat) (d : Dword) : (s.setPd a i d).tw0 = s.tw0 := rfl
@[simp] theorem State.setPd_tw1 (s : State) (a i : Nat) (d : Dword) : (s.setPd a i d).tw1 = s.tw1 := rfl
@[simp] theorem State.setPd_dev (s : State) (a i : Nat) (d : Dword) : (s.setPd a i d).dev = s.dev := rfl
@[simp] theorem State.setPd_pod (s : State) (a i : Nat) (d : Dword) : (s.setPd a i d).pod = s.pod := rfl
@[simp] theorem State.setPd_hostPort (s : State) (a i : Nat) (d : Dword) : (s.setPd a i d).hostPort = s.hostPort := rfl
@[simp] theorem State.setPd_mscGiB (s : State) (a i : Nat) (d : Dword) : (s.setPd a i d).mscGiB = s.mscGiB := rfl
@[simp] theorem State.setPd_health (s : State) (a i : Nat) (d : Dword) : (s.setPd a i d).health = s.health := rfl
@[simp] theorem State.setPd_why (s : State) (a i : Nat) (d : Dword) : (s.setPd a i d).why = s.why := rfl
@[simp] theorem State.setPd_clr (s : State) (a i : Nat) (d : Dword) : (s.setPd a i d).clr = s.clr := rfl
@[simp] theorem State.setPd_pcr (s : State) (a i : Nat) (d : Dword) : (s.setPd a i d).pcr = s.pcr := rfl
@[simp] theorem State.setPd_lnr (s : State) (a i : Nat) (d : Dword) : (s.setPd a i d).lnr = s.lnr := rfl
@[simp] theorem State.setPd_retiredClusters (s : State) (a i : Nat) (d : Dword) : (s.setPd a i d).retiredClusters = s.retiredClusters := rfl
@[simp] theorem State.setPd_retiredChannels (s : State) (a i : Nat) (d : Dword) : (s.setPd a i d).retiredChannels = s.retiredChannels := rfl
@[simp] theorem State.setPd_retiredLanes (s : State) (a i : Nat) (d : Dword) : (s.setPd a i d).retiredLanes = s.retiredLanes := rfl
@[simp] theorem State.setPd_retiredPorts (s : State) (a i : Nat) (d : Dword) : (s.setPd a i d).retiredPorts = s.retiredPorts := rfl
@[simp] theorem State.setPd_retirements (s : State) (a i : Nat) (d : Dword) : (s.setPd a i d).retirements = s.retirements := rfl
@[simp] theorem State.setPd_channelsOut (s : State) (a i : Nat) (d : Dword) : (s.setPd a i d).channelsOut = s.channelsOut := rfl
@[simp] theorem State.setPd_lifetime (s : State) (a i : Nat) (d : Dword) : (s.setPd a i d).lifetime = s.lifetime := rfl
@[simp] theorem State.setPd_lifetimeAt (s : State) (a i : Nat) (d : Dword) : (s.setPd a i d).lifetimeAt = s.lifetimeAt := rfl
@[simp] theorem State.setPd_flash (s : State) (a i : Nat) (d : Dword) : (s.setPd a i d).flash = s.flash := rfl
@[simp] theorem State.setPd_version (s : State) (a i : Nat) (d : Dword) : (s.setPd a i d).version = s.version := rfl
@[simp] theorem State.setPd_firmware (s : State) (a i : Nat) (d : Dword) : (s.setPd a i d).firmware = s.firmware := rfl
@[simp] theorem State.setPd_verified (s : State) (a i : Nat) (d : Dword) : (s.setPd a i d).verified = s.verified := rfl
@[simp] theorem State.setPd_halted (s : State) (a i : Nat) (d : Dword) : (s.setPd a i d).halted = s.halted := rfl
@[simp] theorem State.setPd_record (s : State) (a i : Nat) (d : Dword) : (s.setPd a i d).record = s.record := rfl
@[simp] theorem State.setPd_counters (s : State) (a i : Nat) (d : Dword) : (s.setPd a i d).counters = s.counters := rfl
@[simp] theorem State.setPd_told (s : State) (a i : Nat) (d : Dword) : (s.setPd a i d).told = s.told := rfl
@[simp] theorem State.setPd_outs (s : State) (a i : Nat) (d : Dword) : (s.setPd a i d).outs = s.outs := rfl
@[simp] theorem State.setPd_outNext (s : State) (a i : Nat) (d : Dword) : (s.setPd a i d).outNext = s.outNext := rfl
@[simp] theorem State.setPd_answers (s : State) (a i : Nat) (d : Dword) : (s.setPd a i d).answers = s.answers := rfl
@[simp] theorem State.setPd_mgmtOut (s : State) (a i : Nat) (d : Dword) : (s.setPd a i d).mgmtOut = s.mgmtOut := rfl
@[simp] theorem State.setPd_heldRecords (s : State) (a i : Nat) (d : Dword) : (s.setPd a i d).heldRecords = s.heldRecords := rfl
@[simp] theorem State.setPd_deadDies (s : State) (a i : Nat) (d : Dword) : (s.setPd a i d).deadDies = s.deadDies := rfl
@[simp] theorem State.setPd_agenda (s : State) (a i : Nat) (d : Dword) : (s.setPd a i d).agenda = s.agenda := rfl
@[simp] theorem State.setPd_turns (s : State) (a i : Nat) (d : Dword) : (s.setPd a i d).turns = s.turns := rfl
@[simp] theorem State.setPd_frees (s : State) (a i : Nat) (d : Dword) : (s.setPd a i d).frees = s.frees := rfl
@[simp] theorem State.setPd_cur (s : State) (a i : Nat) (d : Dword) : (s.setPd a i d).cur = s.cur := rfl

@[simp] theorem State.tell_tick (s : State) (w n : Nat) : (s.tell w n).tick = s.tick := rfl
@[simp] theorem State.tell_boot (s : State) (w n : Nat) : (s.tell w n).boot = s.boot := rfl
@[simp] theorem State.tell_mem (s : State) (w n : Nat) : (s.tell w n).mem = s.mem := rfl
@[simp] theorem State.tell_poison (s : State) (w n : Nat) : (s.tell w n).poison = s.poison := rfl
@[simp] theorem State.tell_clusters (s : State) (w n : Nat) : (s.tell w n).clusters = s.clusters := rfl
@[simp] theorem State.tell_ctxs (s : State) (w n : Nat) : (s.tell w n).ctxs = s.ctxs := rfl
@[simp] theorem State.tell_launches (s : State) (w n : Nat) : (s.tell w n).launches = s.launches := rfl
@[simp] theorem State.tell_enqueued (s : State) (w n : Nat) : (s.tell w n).enqueued = s.enqueued := rfl
@[simp] theorem State.tell_images (s : State) (w n : Nat) : (s.tell w n).images = s.images := rfl
@[simp] theorem State.tell_shadows (s : State) (w n : Nat) : (s.tell w n).shadows = s.shadows := rfl
@[simp] theorem State.tell_pages (s : State) (w n : Nat) : (s.tell w n).pages = s.pages := rfl
@[simp] theorem State.tell_scats (s : State) (w n : Nat) : (s.tell w n).scats = s.scats := rfl
@[simp] theorem State.tell_tlb (s : State) (w n : Nat) : (s.tell w n).tlb = s.tlb := rfl
@[simp] theorem State.tell_l2Dirty (s : State) (w n : Nat) : (s.tell w n).l2Dirty = s.l2Dirty := rfl
@[simp] theorem State.tell_frames (s : State) (w n : Nat) : (s.tell w n).frames = s.frames := rfl
@[simp] theorem State.tell_msc (s : State) (w n : Nat) : (s.tell w n).msc = s.msc := rfl
@[simp] theorem State.tell_globals (s : State) (w n : Nat) : (s.tell w n).globals = s.globals := rfl
@[simp] theorem State.tell_fresh (s : State) (w n : Nat) : (s.tell w n).fresh = s.fresh := rfl
@[simp] theorem State.tell_freshTier (s : State) (w n : Nat) : (s.tell w n).freshTier = s.freshTier := rfl
@[simp] theorem State.tell_freeFrames (s : State) (w n : Nat) : (s.tell w n).freeFrames = s.freeFrames := rfl
@[simp] theorem State.tell_blocks (s : State) (w n : Nat) : (s.tell w n).blocks = s.blocks := rfl
@[simp] theorem State.tell_bare (s : State) (w n : Nat) : (s.tell w n).bare = s.bare := rfl
@[simp] theorem State.tell_pools (s : State) (w n : Nat) : (s.tell w n).pools = s.pools := rfl
@[simp] theorem State.tell_lwaits (s : State) (w n : Nat) : (s.tell w n).lwaits = s.lwaits := rfl
@[simp] theorem State.tell_cursors (s : State) (w n : Nat) : (s.tell w n).cursors = s.cursors := rfl
@[simp] theorem State.tell_l2 (s : State) (w n : Nat) : (s.tell w n).l2 = s.l2 := rfl
@[simp] theorem State.tell_podDevs (s : State) (w n : Nat) : (s.tell w n).podDevs = s.podDevs := rfl
@[simp] theorem State.tell_portRecs (s : State) (w n : Nat) : (s.tell w n).portRecs = s.portRecs := rfl
@[simp] theorem State.tell_skips (s : State) (w n : Nat) : (s.tell w n).skips = s.skips := rfl
@[simp] theorem State.tell_xrFreed (s : State) (w n : Nat) : (s.tell w n).xrFreed = s.xrFreed := rfl
@[simp] theorem State.tell_engines (s : State) (w n : Nat) : (s.tell w n).engines = s.engines := rfl
@[simp] theorem State.tell_xrSlots (s : State) (w n : Nat) : (s.tell w n).xrSlots = s.xrSlots := rfl
@[simp] theorem State.tell_xrJoins (s : State) (w n : Nat) : (s.tell w n).xrJoins = s.xrJoins := rfl
@[simp] theorem State.tell_xrFlights (s : State) (w n : Nat) : (s.tell w n).xrFlights = s.xrFlights := rfl
@[simp] theorem State.tell_xrNext (s : State) (w n : Nat) : (s.tell w n).xrNext = s.xrNext := rfl
@[simp] theorem State.tell_ports (s : State) (w n : Nat) : (s.tell w n).ports = s.ports := rfl
@[simp] theorem State.tell_thr0 (s : State) (w n : Nat) : (s.tell w n).thr0 = s.thr0 := rfl
@[simp] theorem State.tell_thr1 (s : State) (w n : Nat) : (s.tell w n).thr1 = s.thr1 := rfl
@[simp] theorem State.tell_tw0 (s : State) (w n : Nat) : (s.tell w n).tw0 = s.tw0 := rfl
@[simp] theorem State.tell_tw1 (s : State) (w n : Nat) : (s.tell w n).tw1 = s.tw1 := rfl
@[simp] theorem State.tell_dev (s : State) (w n : Nat) : (s.tell w n).dev = s.dev := rfl
@[simp] theorem State.tell_pod (s : State) (w n : Nat) : (s.tell w n).pod = s.pod := rfl
@[simp] theorem State.tell_hostPort (s : State) (w n : Nat) : (s.tell w n).hostPort = s.hostPort := rfl
@[simp] theorem State.tell_mscGiB (s : State) (w n : Nat) : (s.tell w n).mscGiB = s.mscGiB := rfl
@[simp] theorem State.tell_health (s : State) (w n : Nat) : (s.tell w n).health = s.health := rfl
@[simp] theorem State.tell_why (s : State) (w n : Nat) : (s.tell w n).why = s.why := rfl
@[simp] theorem State.tell_clr (s : State) (w n : Nat) : (s.tell w n).clr = s.clr := rfl
@[simp] theorem State.tell_pcr (s : State) (w n : Nat) : (s.tell w n).pcr = s.pcr := rfl
@[simp] theorem State.tell_lnr (s : State) (w n : Nat) : (s.tell w n).lnr = s.lnr := rfl
@[simp] theorem State.tell_retiredClusters (s : State) (w n : Nat) : (s.tell w n).retiredClusters = s.retiredClusters := rfl
@[simp] theorem State.tell_retiredChannels (s : State) (w n : Nat) : (s.tell w n).retiredChannels = s.retiredChannels := rfl
@[simp] theorem State.tell_retiredLanes (s : State) (w n : Nat) : (s.tell w n).retiredLanes = s.retiredLanes := rfl
@[simp] theorem State.tell_retiredPorts (s : State) (w n : Nat) : (s.tell w n).retiredPorts = s.retiredPorts := rfl
@[simp] theorem State.tell_retirements (s : State) (w n : Nat) : (s.tell w n).retirements = s.retirements := rfl
@[simp] theorem State.tell_channelsOut (s : State) (w n : Nat) : (s.tell w n).channelsOut = s.channelsOut := rfl
@[simp] theorem State.tell_lifetime (s : State) (w n : Nat) : (s.tell w n).lifetime = s.lifetime := rfl
@[simp] theorem State.tell_lifetimeAt (s : State) (w n : Nat) : (s.tell w n).lifetimeAt = s.lifetimeAt := rfl
@[simp] theorem State.tell_flash (s : State) (w n : Nat) : (s.tell w n).flash = s.flash := rfl
@[simp] theorem State.tell_version (s : State) (w n : Nat) : (s.tell w n).version = s.version := rfl
@[simp] theorem State.tell_firmware (s : State) (w n : Nat) : (s.tell w n).firmware = s.firmware := rfl
@[simp] theorem State.tell_verified (s : State) (w n : Nat) : (s.tell w n).verified = s.verified := rfl
@[simp] theorem State.tell_halted (s : State) (w n : Nat) : (s.tell w n).halted = s.halted := rfl
@[simp] theorem State.tell_record (s : State) (w n : Nat) : (s.tell w n).record = s.record := rfl
@[simp] theorem State.tell_counters (s : State) (w n : Nat) : (s.tell w n).counters = s.counters := rfl
@[simp] theorem State.tell_outs (s : State) (w n : Nat) : (s.tell w n).outs = s.outs := rfl
@[simp] theorem State.tell_outNext (s : State) (w n : Nat) : (s.tell w n).outNext = s.outNext := rfl
@[simp] theorem State.tell_answers (s : State) (w n : Nat) : (s.tell w n).answers = s.answers := rfl
@[simp] theorem State.tell_mgmtOut (s : State) (w n : Nat) : (s.tell w n).mgmtOut = s.mgmtOut := rfl
@[simp] theorem State.tell_heldRecords (s : State) (w n : Nat) : (s.tell w n).heldRecords = s.heldRecords := rfl
@[simp] theorem State.tell_deadDies (s : State) (w n : Nat) : (s.tell w n).deadDies = s.deadDies := rfl
@[simp] theorem State.tell_agenda (s : State) (w n : Nat) : (s.tell w n).agenda = s.agenda := rfl
@[simp] theorem State.tell_turns (s : State) (w n : Nat) : (s.tell w n).turns = s.turns := rfl
@[simp] theorem State.tell_frees (s : State) (w n : Nat) : (s.tell w n).frees = s.frees := rfl
@[simp] theorem State.tell_cur (s : State) (w n : Nat) : (s.tell w n).cur = s.cur := rfl

@[simp] theorem Cluster.setWg_slots (x : Cluster) (e : Nat) (y : Wg) : (x.setWg e y).slots = x.slots := rfl
@[simp] theorem Cluster.setWg_warps (x : Cluster) (e : Nat) (y : Wg) : (x.setWg e y).warps = x.warps := rfl
@[simp] theorem Cluster.setWg_ctx (x : Cluster) (e : Nat) (y : Wg) : (x.setWg e y).ctx = x.ctx := rfl
@[simp] theorem Cluster.setWg_spart (x : Cluster) (e : Nat) (y : Wg) : (x.setWg e y).spart = x.spart := rfl
@[simp] theorem Cluster.setWg_stash (x : Cluster) (e : Nat) (y : Wg) : (x.setWg e y).stash = x.stash := rfl
@[simp] theorem Cluster.setWg_full (x : Cluster) (e : Nat) (y : Wg) : (x.setWg e y).full = x.full := rfl
@[simp] theorem Cluster.setWg_l1 (x : Cluster) (e : Nat) (y : Wg) : (x.setWg e y).l1 = x.l1 := rfl
@[simp] theorem Cluster.setWg_homeOnly (x : Cluster) (e : Nat) (y : Wg) : (x.setWg e y).homeOnly = x.homeOnly := rfl
@[simp] theorem Cluster.setWg_mapped (x : Cluster) (e : Nat) (y : Wg) : (x.setWg e y).mapped = x.mapped := rfl
@[simp] theorem Cluster.setWg_lvt (x : Cluster) (e : Nat) (y : Wg) : (x.setWg e y).lvt = x.lvt := rfl
@[simp] theorem Cluster.setWg_pf (x : Cluster) (e : Nat) (y : Wg) : (x.setWg e y).pf = x.pf := rfl
@[simp] theorem Cluster.setWg_station (x : Cluster) (e : Nat) (y : Wg) : (x.setWg e y).station = x.station := rfl
@[simp] theorem Cluster.setWg_probed (x : Cluster) (e : Nat) (y : Wg) : (x.setWg e y).probed = x.probed := rfl
@[simp] theorem Cluster.setWg_tracker (x : Cluster) (e : Nat) (y : Wg) : (x.setWg e y).tracker = x.tracker := rfl
@[simp] theorem Cluster.setWg_lanes (x : Cluster) (e : Nat) (y : Wg) : (x.setWg e y).lanes = x.lanes := rfl
@[simp] theorem Cluster.setWg_m (x : Cluster) (e : Nat) (y : Wg) : (x.setWg e y).m = x.m := rfl
@[simp] theorem Cluster.setWg_boost (x : Cluster) (e : Nat) (y : Wg) : (x.setWg e y).boost = x.boost := rfl
@[simp] theorem Cluster.setWg_stretch (x : Cluster) (e : Nat) (y : Wg) : (x.setWg e y).stretch = x.stretch := rfl
@[simp] theorem Cluster.setWg_cyc (x : Cluster) (e : Nat) (y : Wg) : (x.setWg e y).cyc = x.cyc := rfl
@[simp] theorem Cluster.setWg_phase (x : Cluster) (e : Nat) (y : Wg) : (x.setWg e y).phase = x.phase := rfl
@[simp] theorem Cluster.setWg_stage (x : Cluster) (e : Nat) (y : Wg) : (x.setWg e y).stage = x.stage := rfl
@[simp] theorem Cluster.setWg_orels (x : Cluster) (e : Nat) (y : Wg) : (x.setWg e y).orels = x.orels := rfl
@[simp] theorem Cluster.setWg_shakes (x : Cluster) (e : Nat) (y : Wg) : (x.setWg e y).shakes = x.shakes := rfl
@[simp] theorem Cluster.setWg_gated (x : Cluster) (e : Nat) (y : Wg) : (x.setWg e y).gated = x.gated := rfl
@[simp] theorem Cluster.setWg_idleAt (x : Cluster) (e : Nat) (y : Wg) : (x.setWg e y).idleAt = x.idleAt := rfl
@[simp] theorem Cluster.setWg_tiles (x : Cluster) (e : Nat) (y : Wg) : (x.setWg e y).tiles = x.tiles := rfl
@[simp] theorem Cluster.setWg_ops (x : Cluster) (e : Nat) (y : Wg) : (x.setWg e y).ops = x.ops := rfl
@[simp] theorem Cluster.setWg_claimNo (x : Cluster) (e : Nat) (y : Wg) : (x.setWg e y).claimNo = x.claimNo := rfl
@[simp] theorem Cluster.setWg_rows (x : Cluster) (e : Nat) (y : Wg) : (x.setWg e y).rows = x.rows := rfl
@[simp] theorem Cluster.setWg_queue (x : Cluster) (e : Nat) (y : Wg) : (x.setWg e y).queue = x.queue := rfl
@[simp] theorem Cluster.setWg_arrayFree (x : Cluster) (e : Nat) (y : Wg) : (x.setWg e y).arrayFree = x.arrayFree := rfl
@[simp] theorem Cluster.setWg_claims (x : Cluster) (e : Nat) (y : Wg) : (x.setWg e y).claims = x.claims := rfl
@[simp] theorem Cluster.setWg_acts (x : Cluster) (e : Nat) (y : Wg) : (x.setWg e y).acts = x.acts := rfl
@[simp] theorem Cluster.setWg_torn (x : Cluster) (e : Nat) (y : Wg) : (x.setWg e y).torn = x.torn := rfl
@[simp] theorem Cluster.setWg_nextId (x : Cluster) (e : Nat) (y : Wg) : (x.setWg e y).nextId = x.nextId := rfl

@[simp] theorem Warp.setThread_unit (w : Warp) (t : Nat) (x : Thread) : (w.setThread t x).unit = w.unit := rfl
@[simp] theorem Warp.setThread_entry (w : Warp) (t : Nat) (x : Thread) : (w.setThread t x).entry = w.entry := rfl
@[simp] theorem Warp.setThread_num (w : Warp) (t : Nat) (x : Thread) : (w.setThread t x).num = w.num := rfl
@[simp] theorem Warp.setThread_alloc (w : Warp) (t : Nat) (x : Thread) : (w.setThread t x).alloc = w.alloc := rfl
@[simp] theorem Warp.setThread_v (w : Warp) (t : Nat) (x : Thread) : (w.setThread t x).v = w.v := rfl
@[simp] theorem Warp.setThread_k (w : Warp) (t : Nat) (x : Thread) : (w.setThread t x).k = w.k := rfl
@[simp] theorem Warp.setThread_h (w : Warp) (t : Nat) (x : Thread) : (w.setThread t x).h = w.h := rfl
@[simp] theorem Warp.setThread_hPend (w : Warp) (t : Nat) (x : Thread) : (w.setThread t x).hPend = w.hPend := rfl
@[simp] theorem Warp.setThread_em (w : Warp) (t : Nat) (x : Thread) : (w.setThread t x).em = w.em := rfl
@[simp] theorem Warp.setThread_cm (w : Warp) (t : Nat) (x : Thread) : (w.setThread t x).cm = w.cm := rfl
@[simp] theorem Warp.setThread_cpm (w : Warp) (t : Nat) (x : Thread) : (w.setThread t x).cpm = w.cpm := rfl
@[simp] theorem Warp.setThread_pt (w : Warp) (t : Nat) (x : Thread) : (w.setThread t x).pt = w.pt := rfl
@[simp] theorem Warp.setThread_xi (w : Warp) (t : Nat) (x : Thread) : (w.setThread t x).xi = w.xi := rfl
@[simp] theorem Warp.setThread_sr (w : Warp) (t : Nat) (x : Thread) : (w.setThread t x).sr = w.sr := rfl
@[simp] theorem Warp.setThread_flagAt (w : Warp) (t : Nat) (x : Thread) : (w.setThread t x).flagAt = w.flagAt := rfl
@[simp] theorem Warp.setThread_flagNow (w : Warp) (t : Nat) (x : Thread) : (w.setThread t x).flagNow = w.flagNow := rfl
@[simp] theorem Warp.setThread_awb (w : Warp) (t : Nat) (x : Thread) : (w.setThread t x).awb = w.awb := rfl
@[simp] theorem Warp.setThread_awl (w : Warp) (t : Nat) (x : Thread) : (w.setThread t x).awl = w.awl := rfl
@[simp] theorem Warp.setThread_awNew (w : Warp) (t : Nat) (x : Thread) : (w.setThread t x).awNew = w.awNew := rfl
@[simp] theorem Warp.setThread_tvec (w : Warp) (t : Nat) (x : Thread) : (w.setThread t x).tvec = w.tvec := rfl
@[simp] theorem Warp.setThread_cmPend (w : Warp) (t : Nat) (x : Thread) : (w.setThread t x).cmPend = w.cmPend := rfl
@[simp] theorem Warp.setThread_tickets (w : Warp) (t : Nat) (x : Thread) : (w.setThread t x).tickets = w.tickets := rfl
@[simp] theorem Warp.setThread_free0 (w : Warp) (t : Nat) (x : Thread) : (w.setThread t x).free0 = w.free0 := rfl
@[simp] theorem Warp.setThread_rep (w : Warp) (t : Nat) (x : Thread) : (w.setThread t x).rep = w.rep := rfl
@[simp] theorem Warp.setThread_loads (w : Warp) (t : Nat) (x : Thread) : (w.setThread t x).loads = w.loads := rfl
@[simp] theorem Warp.setThread_longs (w : Warp) (t : Nat) (x : Thread) : (w.setThread t x).longs = w.longs := rfl
@[simp] theorem Warp.setThread_reqs (w : Warp) (t : Nat) (x : Thread) : (w.setThread t x).reqs = w.reqs := rfl
@[simp] theorem Warp.setThread_waits (w : Warp) (t : Nat) (x : Thread) : (w.setThread t x).waits = w.waits := rfl
@[simp] theorem Warp.setThread_redo (w : Warp) (t : Nat) (x : Thread) : (w.setThread t x).redo = w.redo := rfl
@[simp] theorem Warp.setThread_wants (w : Warp) (t : Nat) (x : Thread) : (w.setThread t x).wants = w.wants := rfl
@[simp] theorem Warp.setThread_cw (w : Warp) (t : Nat) (x : Thread) : (w.setThread t x).cw = w.cw := rfl
@[simp] theorem Warp.setThread_holds (w : Warp) (t : Nat) (x : Thread) : (w.setThread t x).holds = w.holds := rfl
@[simp] theorem Warp.setThread_winQ (w : Warp) (t : Nat) (x : Thread) : (w.setThread t x).winQ = w.winQ := rfl
@[simp] theorem Warp.setThread_cmds (w : Warp) (t : Nat) (x : Thread) : (w.setThread t x).cmds = w.cmds := rfl
@[simp] theorem Warp.setThread_nextId (w : Warp) (t : Nat) (x : Thread) : (w.setThread t x).nextId = w.nextId := rfl
@[simp] theorem Warp.setThread_lastRun (w : Warp) (t : Nat) (x : Thread) : (w.setThread t x).lastRun = w.lastRun := rfl
@[simp] theorem Warp.setThread_waited (w : Warp) (t : Nat) (x : Thread) : (w.setThread t x).waited = w.waited := rfl
@[simp] theorem Warp.setThread_fetchRec (w : Warp) (t : Nat) (x : Thread) : (w.setThread t x).fetchRec = w.fetchRec := rfl
@[simp] theorem Warp.setThread_retiring (w : Warp) (t : Nat) (x : Thread) : (w.setThread t x).retiring = w.retiring := rfl
@[simp] theorem Warp.setThread_left (w : Warp) (t : Nat) (x : Thread) : (w.setThread t x).left = w.left := rfl
@[simp] theorem Warp.setThread_under (w : Warp) (t : Nat) (x : Thread) : (w.setThread t x).under = w.under := rfl

@[simp] theorem Warp.putV_unit (w : Warp) (t n : Nat) (r : Reg) : (w.putV t n r).unit = w.unit := rfl
@[simp] theorem Warp.putV_entry (w : Warp) (t n : Nat) (r : Reg) : (w.putV t n r).entry = w.entry := rfl
@[simp] theorem Warp.putV_num (w : Warp) (t n : Nat) (r : Reg) : (w.putV t n r).num = w.num := rfl
@[simp] theorem Warp.putV_alloc (w : Warp) (t n : Nat) (r : Reg) : (w.putV t n r).alloc = w.alloc := rfl
@[simp] theorem Warp.putV_k (w : Warp) (t n : Nat) (r : Reg) : (w.putV t n r).k = w.k := rfl
@[simp] theorem Warp.putV_h (w : Warp) (t n : Nat) (r : Reg) : (w.putV t n r).h = w.h := rfl
@[simp] theorem Warp.putV_hPend (w : Warp) (t n : Nat) (r : Reg) : (w.putV t n r).hPend = w.hPend := rfl
@[simp] theorem Warp.putV_em (w : Warp) (t n : Nat) (r : Reg) : (w.putV t n r).em = w.em := rfl
@[simp] theorem Warp.putV_cm (w : Warp) (t n : Nat) (r : Reg) : (w.putV t n r).cm = w.cm := rfl
@[simp] theorem Warp.putV_cpm (w : Warp) (t n : Nat) (r : Reg) : (w.putV t n r).cpm = w.cpm := rfl
@[simp] theorem Warp.putV_pt (w : Warp) (t n : Nat) (r : Reg) : (w.putV t n r).pt = w.pt := rfl
@[simp] theorem Warp.putV_xi (w : Warp) (t n : Nat) (r : Reg) : (w.putV t n r).xi = w.xi := rfl
@[simp] theorem Warp.putV_sr (w : Warp) (t n : Nat) (r : Reg) : (w.putV t n r).sr = w.sr := rfl
@[simp] theorem Warp.putV_flagAt (w : Warp) (t n : Nat) (r : Reg) : (w.putV t n r).flagAt = w.flagAt := rfl
@[simp] theorem Warp.putV_flagNow (w : Warp) (t n : Nat) (r : Reg) : (w.putV t n r).flagNow = w.flagNow := rfl
@[simp] theorem Warp.putV_awb (w : Warp) (t n : Nat) (r : Reg) : (w.putV t n r).awb = w.awb := rfl
@[simp] theorem Warp.putV_awl (w : Warp) (t n : Nat) (r : Reg) : (w.putV t n r).awl = w.awl := rfl
@[simp] theorem Warp.putV_awNew (w : Warp) (t n : Nat) (r : Reg) : (w.putV t n r).awNew = w.awNew := rfl
@[simp] theorem Warp.putV_tvec (w : Warp) (t n : Nat) (r : Reg) : (w.putV t n r).tvec = w.tvec := rfl
@[simp] theorem Warp.putV_cmPend (w : Warp) (t n : Nat) (r : Reg) : (w.putV t n r).cmPend = w.cmPend := rfl
@[simp] theorem Warp.putV_threads (w : Warp) (t n : Nat) (r : Reg) : (w.putV t n r).threads = w.threads := rfl
@[simp] theorem Warp.putV_tickets (w : Warp) (t n : Nat) (r : Reg) : (w.putV t n r).tickets = w.tickets := rfl
@[simp] theorem Warp.putV_free0 (w : Warp) (t n : Nat) (r : Reg) : (w.putV t n r).free0 = w.free0 := rfl
@[simp] theorem Warp.putV_rep (w : Warp) (t n : Nat) (r : Reg) : (w.putV t n r).rep = w.rep := rfl
@[simp] theorem Warp.putV_loads (w : Warp) (t n : Nat) (r : Reg) : (w.putV t n r).loads = w.loads := rfl
@[simp] theorem Warp.putV_longs (w : Warp) (t n : Nat) (r : Reg) : (w.putV t n r).longs = w.longs := rfl
@[simp] theorem Warp.putV_reqs (w : Warp) (t n : Nat) (r : Reg) : (w.putV t n r).reqs = w.reqs := rfl
@[simp] theorem Warp.putV_waits (w : Warp) (t n : Nat) (r : Reg) : (w.putV t n r).waits = w.waits := rfl
@[simp] theorem Warp.putV_redo (w : Warp) (t n : Nat) (r : Reg) : (w.putV t n r).redo = w.redo := rfl
@[simp] theorem Warp.putV_wants (w : Warp) (t n : Nat) (r : Reg) : (w.putV t n r).wants = w.wants := rfl
@[simp] theorem Warp.putV_cw (w : Warp) (t n : Nat) (r : Reg) : (w.putV t n r).cw = w.cw := rfl
@[simp] theorem Warp.putV_holds (w : Warp) (t n : Nat) (r : Reg) : (w.putV t n r).holds = w.holds := rfl
@[simp] theorem Warp.putV_winQ (w : Warp) (t n : Nat) (r : Reg) : (w.putV t n r).winQ = w.winQ := rfl
@[simp] theorem Warp.putV_cmds (w : Warp) (t n : Nat) (r : Reg) : (w.putV t n r).cmds = w.cmds := rfl
@[simp] theorem Warp.putV_nextId (w : Warp) (t n : Nat) (r : Reg) : (w.putV t n r).nextId = w.nextId := rfl
@[simp] theorem Warp.putV_lastRun (w : Warp) (t n : Nat) (r : Reg) : (w.putV t n r).lastRun = w.lastRun := rfl
@[simp] theorem Warp.putV_waited (w : Warp) (t n : Nat) (r : Reg) : (w.putV t n r).waited = w.waited := rfl
@[simp] theorem Warp.putV_fetchRec (w : Warp) (t n : Nat) (r : Reg) : (w.putV t n r).fetchRec = w.fetchRec := rfl
@[simp] theorem Warp.putV_retiring (w : Warp) (t n : Nat) (r : Reg) : (w.putV t n r).retiring = w.retiring := rfl
@[simp] theorem Warp.putV_left (w : Warp) (t n : Nat) (r : Reg) : (w.putV t n r).left = w.left := rfl
@[simp] theorem Warp.putV_under (w : Warp) (t n : Nat) (r : Reg) : (w.putV t n r).under = w.under := rfl

/-! ### Reading back -/

@[simp] theorem State.cluster_setCluster (s : State) (c : Nat) (x : Cluster) : (s.setCluster c x).cluster c = x := by
  simp [State.cluster, State.setCluster]
theorem State.cluster_setCluster_ne (s : State) (c i : Nat) (x : Cluster) (h : i ≠ c) :
    (s.setCluster c x).cluster i = s.cluster i := by
  simp [State.cluster, State.setCluster, h]
@[simp] theorem State.setCluster_setCluster (s : State) (c : Nat) (x y : Cluster) :
    (s.setCluster c x).setCluster c y = s.setCluster c y := by
  simp [State.setCluster]
@[simp] theorem State.ctx_setCtx (s : State) (n : Nat) (x : Ctx) : (s.setCtx n x).ctx n = x := by
  simp [State.ctx, State.setCtx]
@[simp] theorem Cluster.warp_setWarp (x : Cluster) (k : Nat) (w : Warp) : (x.setWarp k w).warp k = w := by
  by_cases h : k < trackSlot <;> simp [Cluster.warp, Cluster.setWarp, h]
@[simp] theorem Cluster.setWarp_setWarp (x : Cluster) (k : Nat) (w y : Warp) : (x.setWarp k w).setWarp k y = x.setWarp k y := by
  by_cases h : k < trackSlot <;> simp [Cluster.setWarp, h]
@[simp] theorem State.warp_setWarp (s : State) (c k : Nat) (w : Warp) : (s.setWarp c k w).warp c k = w := by
  simp [State.warp, State.setWarp]
@[simp] theorem State.setWarp_setWarp (s : State) (c k : Nat) (w y : Warp) :
    (s.setWarp c k w).setWarp c k y = s.setWarp c k y := by
  simp [State.setWarp]
@[simp] theorem State.setWarp_cur (s : State) (c k : Nat) (w : Warp) : (s.setWarp c k w).cur = s.cur := rfl
@[simp] theorem State.setMe_cur (s : State) (w : Warp) : (s.setMe w).cur = s.cur := rfl
@[simp] theorem State.modMe_cur (s : State) (f : Warp → Warp) : (s.modMe f).cur = s.cur := rfl
@[simp] theorem State.me_setMe (s : State) (w : Warp) : (s.setMe w).me = w := by simp [State.me, State.setMe]
@[simp] theorem State.me_modMe (s : State) (f : Warp → Warp) : (s.modMe f).me = f s.me := by simp [State.modMe]
@[simp] theorem State.setMe_setMe (s : State) (w y : Warp) : (s.setMe w).setMe y = s.setMe y := by simp [State.setMe]
@[simp] theorem State.modMe_setMe (s : State) (w : Warp) (f : Warp → Warp) : (s.setMe w).modMe f = s.setMe (f w) := by
  simp [State.modMe]
@[simp] theorem State.modMe_modMe (s : State) (f g : Warp → Warp) : (s.modMe f).modMe g = s.modMe fun w => g (f w) := by
  simp [State.modMe]
@[simp] theorem Warp.thread_setThread (w : Warp) (t : Nat) (x : Thread) : (w.setThread t x).thread t = x := by
  simp [Warp.thread, Warp.setThread]
theorem Warp.thread_setThread_ne (w : Warp) (t i : Nat) (x : Thread) (h : i ≠ t) : (w.setThread t x).thread i = w.thread i := by
  simp [Warp.thread, Warp.setThread, h]
@[simp] theorem Warp.getV_putV (w : Warp) (t n : Nat) (r : Reg) : (w.putV t n r).getV t n = r := by
  simp [Warp.getV, Warp.putV]
theorem Warp.getV_putV_ne (w : Warp) (t n u m : Nat) (r : Reg) (h : 32 * m + u ≠ 32 * n + t) :
    (w.putV t n r).getV u m = w.getV u m := by
  simp [Warp.getV, Warp.putV, h]
/-- Writes to k0 and g0 are discarded, and a read of them is zero (R62). -/
@[simp] theorem Warp.putK_zero (w : Warp) (r : Reg) : w.putK 0 r = w := rfl
@[simp] theorem Warp.getK_zero (w : Warp) : w.getK 0 = rawReg 0 := rfl
theorem Warp.getK_putK (w : Warp) (n : Nat) (r : Reg) (hn : n ≠ 0) (hu : w.unit = .bench) : (w.putK n r).getK n = r := by
  simp [Warp.getK, Warp.putK, hn, hu]

end Sys2Proof.Machine
end

