-- ==== Sys2Proof/Laws/Count.lean ====
section
/-! SUPPORT. What raising a counter leaves, and what tables answer after an update. -/

namespace Sys2Proof.Machine

@[simp] theorem State.count_tick (s : State) (u : Nat) (c : Ctr) (n : Nat) : (s.count u c n).tick = s.tick := by
  unfold State.count; split <;> rfl
@[simp] theorem State.count_boot (s : State) (u : Nat) (c : Ctr) (n : Nat) : (s.count u c n).boot = s.boot := by
  unfold State.count; split <;> rfl
@[simp] theorem State.count_mem (s : State) (u : Nat) (c : Ctr) (n : Nat) : (s.count u c n).mem = s.mem := by
  unfold State.count; split <;> rfl
@[simp] theorem State.count_poison (s : State) (u : Nat) (c : Ctr) (n : Nat) : (s.count u c n).poison = s.poison := by
  unfold State.count; split <;> rfl
@[simp] theorem State.count_clusters (s : State) (u : Nat) (c : Ctr) (n : Nat) : (s.count u c n).clusters = s.clusters := by
  unfold State.count; split <;> rfl
@[simp] theorem State.count_ctxs (s : State) (u : Nat) (c : Ctr) (n : Nat) : (s.count u c n).ctxs = s.ctxs := by
  unfold State.count; split <;> rfl
@[simp] theorem State.count_launches (s : State) (u : Nat) (c : Ctr) (n : Nat) : (s.count u c n).launches = s.launches := by
  unfold State.count; split <;> rfl
@[simp] theorem State.count_enqueued (s : State) (u : Nat) (c : Ctr) (n : Nat) : (s.count u c n).enqueued = s.enqueued := by
  unfold State.count; split <;> rfl
@[simp] theorem State.count_images (s : State) (u : Nat) (c : Ctr) (n : Nat) : (s.count u c n).images = s.images := by
  unfold State.count; split <;> rfl
@[simp] theorem State.count_shadows (s : State) (u : Nat) (c : Ctr) (n : Nat) : (s.count u c n).shadows = s.shadows := by
  unfold State.count; split <;> rfl
@[simp] theorem State.count_pages (s : State) (u : Nat) (c : Ctr) (n : Nat) : (s.count u c n).pages = s.pages := by
  unfold State.count; split <;> rfl
@[simp] theorem State.count_scats (s : State) (u : Nat) (c : Ctr) (n : Nat) : (s.count u c n).scats = s.scats := by
  unfold State.count; split <;> rfl
@[simp] theorem State.count_tlb (s : State) (u : Nat) (c : Ctr) (n : Nat) : (s.count u c n).tlb = s.tlb := by
  unfold State.count; split <;> rfl
@[simp] theorem State.count_msc (s : State) (u : Nat) (c : Ctr) (n : Nat) : (s.count u c n).msc = s.msc := by
  unfold State.count; split <;> rfl
@[simp] theorem State.count_fresh (s : State) (u : Nat) (c : Ctr) (n : Nat) : (s.count u c n).fresh = s.fresh := by
  unfold State.count; split <;> rfl
@[simp] theorem State.count_pools (s : State) (u : Nat) (c : Ctr) (n : Nat) : (s.count u c n).pools = s.pools := by
  unfold State.count; split <;> rfl
@[simp] theorem State.count_lwaits (s : State) (u : Nat) (c : Ctr) (n : Nat) : (s.count u c n).lwaits = s.lwaits := by
  unfold State.count; split <;> rfl
@[simp] theorem State.count_cursors (s : State) (u : Nat) (c : Ctr) (n : Nat) : (s.count u c n).cursors = s.cursors := by
  unfold State.count; split <;> rfl
@[simp] theorem State.count_engines (s : State) (u : Nat) (c : Ctr) (n : Nat) : (s.count u c n).engines = s.engines := by
  unfold State.count; split <;> rfl
@[simp] theorem State.count_xrSlots (s : State) (u : Nat) (c : Ctr) (n : Nat) : (s.count u c n).xrSlots = s.xrSlots := by
  unfold State.count; split <;> rfl
@[simp] theorem State.count_xrJoins (s : State) (u : Nat) (c : Ctr) (n : Nat) : (s.count u c n).xrJoins = s.xrJoins := by
  unfold State.count; split <;> rfl
@[simp] theorem State.count_xrFlights (s : State) (u : Nat) (c : Ctr) (n : Nat) : (s.count u c n).xrFlights = s.xrFlights := by
  unfold State.count; split <;> rfl
@[simp] theorem State.count_xrNext (s : State) (u : Nat) (c : Ctr) (n : Nat) : (s.count u c n).xrNext = s.xrNext := by
  unfold State.count; split <;> rfl
@[simp] theorem State.count_ports (s : State) (u : Nat) (c : Ctr) (n : Nat) : (s.count u c n).ports = s.ports := by
  unfold State.count; split <;> rfl
@[simp] theorem State.count_thr0 (s : State) (u : Nat) (c : Ctr) (n : Nat) : (s.count u c n).thr0 = s.thr0 := by
  unfold State.count; split <;> rfl
@[simp] theorem State.count_thr1 (s : State) (u : Nat) (c : Ctr) (n : Nat) : (s.count u c n).thr1 = s.thr1 := by
  unfold State.count; split <;> rfl
@[simp] theorem State.count_tw0 (s : State) (u : Nat) (c : Ctr) (n : Nat) : (s.count u c n).tw0 = s.tw0 := by
  unfold State.count; split <;> rfl
@[simp] theorem State.count_tw1 (s : State) (u : Nat) (c : Ctr) (n : Nat) : (s.count u c n).tw1 = s.tw1 := by
  unfold State.count; split <;> rfl
@[simp] theorem State.count_dev (s : State) (u : Nat) (c : Ctr) (n : Nat) : (s.count u c n).dev = s.dev := by
  unfold State.count; split <;> rfl
@[simp] theorem State.count_pod (s : State) (u : Nat) (c : Ctr) (n : Nat) : (s.count u c n).pod = s.pod := by
  unfold State.count; split <;> rfl
@[simp] theorem State.count_hostPort (s : State) (u : Nat) (c : Ctr) (n : Nat) : (s.count u c n).hostPort = s.hostPort := by
  unfold State.count; split <;> rfl
@[simp] theorem State.count_mscGiB (s : State) (u : Nat) (c : Ctr) (n : Nat) : (s.count u c n).mscGiB = s.mscGiB := by
  unfold State.count; split <;> rfl
@[simp] theorem State.count_health (s : State) (u : Nat) (c : Ctr) (n : Nat) : (s.count u c n).health = s.health := by
  unfold State.count; split <;> rfl
@[simp] theorem State.count_why (s : State) (u : Nat) (c : Ctr) (n : Nat) : (s.count u c n).why = s.why := by
  unfold State.count; split <;> rfl
@[simp] theorem State.count_clr (s : State) (u : Nat) (c : Ctr) (n : Nat) : (s.count u c n).clr = s.clr := by
  unfold State.count; split <;> rfl
@[simp] theorem State.count_pcr (s : State) (u : Nat) (c : Ctr) (n : Nat) : (s.count u c n).pcr = s.pcr := by
  unfold State.count; split <;> rfl
@[simp] theorem State.count_lnr (s : State) (u : Nat) (c : Ctr) (n : Nat) : (s.count u c n).lnr = s.lnr := by
  unfold State.count; split <;> rfl
@[simp] theorem State.count_retiredClusters (s : State) (u : Nat) (c : Ctr) (n : Nat) : (s.count u c n).retiredClusters = s.retiredClusters := by
  unfold State.count; split <;> rfl
@[simp] theorem State.count_retiredChannels (s : State) (u : Nat) (c : Ctr) (n : Nat) : (s.count u c n).retiredChannels = s.retiredChannels := by
  unfold State.count; split <;> rfl
@[simp] theorem State.count_retiredLanes (s : State) (u : Nat) (c : Ctr) (n : Nat) : (s.count u c n).retiredLanes = s.retiredLanes := by
  unfold State.count; split <;> rfl
@[simp] theorem State.count_lifetime (s : State) (u : Nat) (c : Ctr) (n : Nat) : (s.count u c n).lifetime = s.lifetime := by
  unfold State.count; split <;> rfl
@[simp] theorem State.count_lifetimeAt (s : State) (u : Nat) (c : Ctr) (n : Nat) : (s.count u c n).lifetimeAt = s.lifetimeAt := by
  unfold State.count; split <;> rfl
@[simp] theorem State.count_flash (s : State) (u : Nat) (c : Ctr) (n : Nat) : (s.count u c n).flash = s.flash := by
  unfold State.count; split <;> rfl
@[simp] theorem State.count_version (s : State) (u : Nat) (c : Ctr) (n : Nat) : (s.count u c n).version = s.version := by
  unfold State.count; split <;> rfl
@[simp] theorem State.count_verified (s : State) (u : Nat) (c : Ctr) (n : Nat) : (s.count u c n).verified = s.verified := by
  unfold State.count; split <;> rfl
@[simp] theorem State.count_record (s : State) (u : Nat) (c : Ctr) (n : Nat) : (s.count u c n).record = s.record := by
  unfold State.count; split <;> rfl
@[simp] theorem State.count_told (s : State) (u : Nat) (c : Ctr) (n : Nat) : (s.count u c n).told = s.told := by
  unfold State.count; split <;> rfl
@[simp] theorem State.count_mgmtOut (s : State) (u : Nat) (c : Ctr) (n : Nat) : (s.count u c n).mgmtOut = s.mgmtOut := by
  unfold State.count; split <;> rfl
@[simp] theorem State.count_deadDies (s : State) (u : Nat) (c : Ctr) (n : Nat) : (s.count u c n).deadDies = s.deadDies := by
  unfold State.count; split <;> rfl
@[simp] theorem State.count_agenda (s : State) (u : Nat) (c : Ctr) (n : Nat) : (s.count u c n).agenda = s.agenda := by
  unfold State.count; split <;> rfl
@[simp] theorem State.count_turns (s : State) (u : Nat) (c : Ctr) (n : Nat) : (s.count u c n).turns = s.turns := by
  unfold State.count; split <;> rfl
@[simp] theorem State.count_frees (s : State) (u : Nat) (c : Ctr) (n : Nat) : (s.count u c n).frees = s.frees := by
  unfold State.count; split <;> rfl
@[simp] theorem State.count_cur (s : State) (u : Nat) (c : Ctr) (n : Nat) : (s.count u c n).cur = s.cur := by
  unfold State.count; split <;> rfl
@[simp] theorem State.count_globals (s : State) (u : Nat) (c : Ctr) (n : Nat) : (s.count u c n).globals = s.globals := by
  unfold State.count; split <;> rfl
@[simp] theorem State.count_freshTier (s : State) (u : Nat) (c : Ctr) (n : Nat) : (s.count u c n).freshTier = s.freshTier := by
  unfold State.count; split <;> rfl
@[simp] theorem State.count_freeFrames (s : State) (u : Nat) (c : Ctr) (n : Nat) : (s.count u c n).freeFrames = s.freeFrames := by
  unfold State.count; split <;> rfl
@[simp] theorem State.count_blocks (s : State) (u : Nat) (c : Ctr) (n : Nat) : (s.count u c n).blocks = s.blocks := by
  unfold State.count; split <;> rfl
@[simp] theorem State.count_bare (s : State) (u : Nat) (c : Ctr) (n : Nat) : (s.count u c n).bare = s.bare := by
  unfold State.count; split <;> rfl
@[simp] theorem State.count_retiredPorts (s : State) (u : Nat) (c : Ctr) (n : Nat) : (s.count u c n).retiredPorts = s.retiredPorts := by
  unfold State.count; split <;> rfl
@[simp] theorem State.count_retirements (s : State) (u : Nat) (c : Ctr) (n : Nat) : (s.count u c n).retirements = s.retirements := by
  unfold State.count; split <;> rfl
@[simp] theorem State.count_channelsOut (s : State) (u : Nat) (c : Ctr) (n : Nat) : (s.count u c n).channelsOut = s.channelsOut := by
  unfold State.count; split <;> rfl
@[simp] theorem State.count_firmware (s : State) (u : Nat) (c : Ctr) (n : Nat) : (s.count u c n).firmware = s.firmware := by
  unfold State.count; split <;> rfl
@[simp] theorem State.count_halted (s : State) (u : Nat) (c : Ctr) (n : Nat) : (s.count u c n).halted = s.halted := by
  unfold State.count; split <;> rfl
@[simp] theorem State.count_outs (s : State) (u : Nat) (c : Ctr) (n : Nat) : (s.count u c n).outs = s.outs := by
  unfold State.count; split <;> rfl
@[simp] theorem State.count_outNext (s : State) (u : Nat) (c : Ctr) (n : Nat) : (s.count u c n).outNext = s.outNext := by
  unfold State.count; split <;> rfl
@[simp] theorem State.count_answers (s : State) (u : Nat) (c : Ctr) (n : Nat) : (s.count u c n).answers = s.answers := by
  unfold State.count; split <;> rfl
@[simp] theorem State.count_heldRecords (s : State) (u : Nat) (c : Ctr) (n : Nat) : (s.count u c n).heldRecords = s.heldRecords := by
  unfold State.count; split <;> rfl
@[simp] theorem State.cluster_count (s : State) (u : Nat) (c : Ctr) (n i : Nat) : (s.count u c n).cluster i = s.cluster i := by
  simp [State.cluster]
@[simp] theorem State.warp_count (s : State) (u : Nat) (c : Ctr) (n i k : Nat) : (s.count u c n).warp i k = s.warp i k := by
  simp [State.warp]
@[simp] theorem State.wg_count (s : State) (u : Nat) (c : Ctr) (n i e : Nat) : (s.count u c n).wg i e = s.wg i e := by
  simp [State.wg]
@[simp] theorem State.cluster_modCluster (s : State) (c : Nat) (f : Cluster → Cluster) :
    (s.modCluster c f).cluster c = f (s.cluster c) := by simp [State.modCluster]
theorem State.cluster_modCluster_ne (s : State) (c i : Nat) (f : Cluster → Cluster) (h : i ≠ c) :
    (s.modCluster c f).cluster i = s.cluster i := by simp [State.modCluster, State.cluster_setCluster_ne _ _ _ _ h]
@[simp] theorem State.modCluster_mem (s : State) (c : Nat) (f : Cluster → Cluster) : (s.modCluster c f).mem = s.mem := rfl
@[simp] theorem State.warp_modWarp (s : State) (c k : Nat) (f : Warp → Warp) : (s.modWarp c k f).warp c k = f (s.warp c k) := by
  simp [State.modWarp]
@[simp] theorem State.modWarp_mem (s : State) (c k : Nat) (f : Warp → Warp) : (s.modWarp c k f).mem = s.mem := rfl

variable {α : Type}

@[simp] theorem look_nil (k : Nat) : look ([] : Tab α) k = none := rfl
theorem look_cons (p : Nat × α) (m : Tab α) (k : Nat) : look (p :: m) k = if p.1 = k then some p.2 else look m k := by
  unfold look
  by_cases h : p.1 = k <;> simp [h]
/-- An entry that `look` finds is the one that `Tab.get` reads. -/
theorem get_of_look {m : Tab α} {k : Nat} {x : α} (d : α) (h : look m k = some x) : Tab.get d m k = x := by
  induction m with
  | nil => simp at h
  | cons p r ih =>
    rw [look_cons] at h
    unfold Tab.get
    by_cases e : p.1 = k <;> simp_all
@[simp] theorem look_put_same (m : Tab α) (k : Nat) (x : α) : look (Tab.put m k x) k = some x := by
  induction m with
  | nil => simp [Tab.put, look_cons]
  | cons p r ih =>
    unfold Tab.put
    split
    · simp [look_cons]
    · split
      · simp [look_cons]
      · rename_i h1 h2
        simp [look_cons, h2, ih]
@[simp] theorem look_del_same (m : Tab α) (k : Nat) : look (Tab.del m k) k = none := by
  induction m with
  | nil => rfl
  | cons p r ih =>
    unfold Tab.del
    split
    · exact ih
    · rename_i h
      simp [look_cons, h, ih]

end Sys2Proof.Machine
end

