-- ==== Sys2Proof/Laws/Issue.lean ====
section
/-! SUPPORT. What the frame of issue does with a word that nothing holds up. -/

namespace Sys2Proof.Machine

theorem State.modMe_eq_of_same (s : State) (f g : Warp → Warp) (h : f s.me = g s.me) : s.modMe f = s.modMe g := by
  simp [State.modMe, h]

@[simp] theorem State.holdLane_cur (s : State) (n : Nat) : (s.holdLane n).cur = s.cur := rfl
@[simp] theorem State.advance_cur (s : State) (run : List Nat) : (s.advance run).cur = s.cur := rfl

/-- The lane is no part of a warp. -/
theorem State.me_holdLane (s : State) (n : Nat) : (s.holdLane n).me = s.me := by
  by_cases h : s.cur.slot < trackSlot <;>
    simp [State.holdLane, State.modMyCluster, State.modCluster, State.me, State.warp, Cluster.warp, h]

/-- Putting back the warp that is there changes nothing. -/
theorem State.putBack_holdLane (s : State) (w : Warp) (n : Nat) :
    ((s.setMe w).holdLane n).modMe (fun y => y) = (s.setMe w).holdLane n := by
  have h : ((s.setMe w).holdLane n).me = w := by rw [State.me_holdLane]; simp
  unfold State.modMe
  rw [h]
  by_cases hs : s.cur.slot < trackSlot <;>
    simp [State.holdLane, State.modMyCluster, State.modCluster, State.setMe, State.setWarp, Cluster.setWarp, hs]

theorem State.take_nil (s : State) (c k : Nat) : s.take c k [] = s := rfl
theorem State.hitsAt_nil (s : State) (q : Byte) (a : Dword) : hitsAt s [] q a = [] := rfl

/-- A word that nothing holds up: its body acts for the active threads, after the run has stepped past it; the threads
with a cause take it. -/
theorem issue_clear {s : State} {x : Shape} (body : State → List Nat → State × List Hit) (h : s.Clear x) :
    issue s x body =
      let p := body (s.begun x) (s.acting x)
      let z := (p.1.holdRepc (p.2.map Hit.t)).take s.cur.cl s.cur.slot p.2
      if x.h.sw && s.cur.last then z.mark (s.cur.run.filter fun t => !(p.2.map Hit.t).contains t) else z := by
  have hrun : s.present x = s.cur.run := by simp [State.present, h.port]
  have hearly : s.me.firstCauses s.cur.run x s.cur.pc = [] := by
    rw [Warp.firstCauses, List.filterMap_eq_nil_iff]
    intro t ht
    simp [h.due t ht, h.guess t ht]
  have hact : ((s.goers x).filter fun t => s.me.guarded x.h.g t && !s.me.guardPlated x.h t) = s.acting x := by
    rw [State.goers, hrun, hearly, State.acting]
    simp only [List.map_nil, List.contains_nil, Bool.not_false, List.filter_filter, Bool.and_true]
    exact List.filter_congr fun t ht => by simp [h.guess t ht]
  have hstate : ((((s.issued.modMe fun y => y).advance s.cur.run).holdLane (s.laneCycles x)).modMe fun y => y) = s.begun x := by
    have : (s.issued.modMe fun y => y).advance s.cur.run = s.issued.advance s.cur.run := by
      unfold State.advance
      rw [State.modMe_modMe]
      rfl
    rw [this]
    exact State.putBack_holdLane _ _ _
  unfold issue
  simp only [h.decode, h.port, hrun, hearly, List.foldl_nil, List.map_nil, List.nil_append, hact, hstate]

/-- The same where no thread meets a cause. -/
theorem issue_quiet {s : State} {x : Shape} (body : State → List Nat → State × List Hit) (h : s.Clear x)
    (hq : (body (s.begun x) (s.acting x)).2 = []) :
    issue s x body = s.ended x (body (s.begun x) (s.acting x)).1 := by
  rw [issue_clear body h]
  have hrun : (s.cur.run.filter fun t => !([] : List Nat).contains t) = s.cur.run := by simp
  simp only [hq, List.map_nil, State.take_nil, hrun]
  rfl

/-- Lanes that meet no cause one after the other. -/
theorem perLane_ok (f : State → Nat → LaneOut) (g : State → Nat → State) (s : State) (l : List Nat)
    (P : State → Prop) (h0 : P s) (hs : ∀ y t, t ∈ l → P y → f y t = .ok (g y t) ∧ P (g y t)) :
    perLane f s l = (l.foldl g s, []) := by
  suffices H : ∀ (l : List Nat) (y : State), P y → (∀ y t, t ∈ l → P y → f y t = .ok (g y t) ∧ P (g y t)) →
      l.foldl (fun (p : State × List Hit) t =>
        match f p.1 t with
        | .ok s' => (s', p.2)
        | .hit cause addr s' => (s', p.2 ++ [{ t := t, cause := cause, addr := addr, pc := s.cur.pc }])) (y, []) =
      (l.foldl g y, []) from H l s h0 hs
  intro l
  induction l with
  | nil => intro y _ _; rfl
  | cons t r ih =>
    intro y hy h
    obtain ⟨h1, h2⟩ := h y t List.mem_cons_self hy
    simp only [List.foldl_cons, h1]
    exact ih _ h2 fun y u hu => h y u (List.mem_cons_of_mem _ hu)

end Sys2Proof.Machine
end

