-- ==== Sys2Proof/Laws/Memory.lean ====
section
/-! SUPPORT. Every operation that writes memory keeps its canonical form, and the memory after reset has it. -/

namespace Sys2Proof.Machine

theorem reset_mem_wf : Memory.wf State.reset.mem = true := by decide

theorem memCopy_wf {m : List Host.Cell} (src dst n : Nat) (h : Memory.wf m = true) : Memory.wf (memCopy m src dst n) = true :=
  memPutBytes_wf dst _ h

theorem memZero_wf {m : List Host.Cell} (a n : Nat) (h : Memory.wf m = true) : Memory.wf (memZero m a n) = true := by
  induction m with
  | nil => exact h
  | cons c r ih =>
    simp only [Memory.wf, Bool.and_eq_true, List.all_cons] at h
    obtain ⟨h1, h2, h3⟩ := h
    rw [Tab.wf_cons] at h1
    have ih := ih (by simp only [Memory.wf, Bool.and_eq_true]; exact ⟨h1.1, h3⟩)
    unfold memZero at ih ⊢
    rw [List.filter_cons]
    split
    · simp only [Memory.wf, Bool.and_eq_true, List.all_cons] at ih ⊢
      refine ⟨(Tab.wf_cons _ _).mpr ⟨ih.1, ?_⟩, h2, ih.2⟩
      intro p hp
      exact h1.2 p ((List.mem_filter.mp hp).1)
    · exact ih

theorem State.mscFill_wf {s : State} (a : Nat) (h : Memory.wf s.mem = true) : Memory.wf (s.mscFill a).mem = true := by
  unfold State.mscFill
  simp only []
  apply memCopy_wf
  split
  · exact memCopy_wf _ _ _ h
  · exact h

theorem State.mscReady_wf {s : State} (t : Nat) (h : Memory.wf s.mem = true) : Memory.wf (s.mscReady t).mem = true := by
  unfold State.mscReady
  split
  · exact h
  · exact s.mscFill_wf t h

theorem State.putPhys_wf {s : State} (a : Nat) (b : Byte) (h : Memory.wf s.mem = true) : Memory.wf (s.putPhys a b).mem = true := by
  unfold State.putPhys
  split
  · exact memPut_wf _ b (s.mscReady_wf _ h)
  · exact memPut_wf a b h

theorem State.mscFetch_wf {s : State} (a : Nat) (h : Memory.wf s.mem = true) : Memory.wf (s.mscFetch a).mem = true := by
  unfold State.mscFetch
  split
  · exact h
  split
  · exact h
  · exact s.mscFill_wf _ h
/-- Prefetches that are used change no memory and no time. -/
theorem State.usedAt_keeps (s : State) (n : Nat) (hit : Prefetched → Bool) :
    (s.usedAt n hit).mem = s.mem ∧ (s.usedAt n hit).tick = s.tick := by
  unfold State.usedAt
  generalize s.clusters = l
  induction l generalizing s with
  | nil => exact ⟨rfl, rfl⟩
  | cons e r ih =>
    rw [List.foldl_cons]
    dsimp only
    split
    · exact ih s
    · exact ⟨(ih _).1.trans (by simp [State.modCluster]), (ih _).2.trans (by simp [State.modCluster])⟩
theorem State.mscServe_wf {s : State} (a : Nat) (h : Memory.wf s.mem = true) : Memory.wf (s.mscServe a).mem = true :=
  State.mscFetch_wf a (by rw [(s.usedAt_keeps _ _).1]; exact h)
/-- A step that is taken at some addresses only. -/
theorem State.served_if_wf {s : State} (p : Prop) [Decidable p] (a : Nat) (h : Memory.wf s.mem = true) :
    Memory.wf (if p then s.mscServe a else s).mem = true := by
  split
  · exact s.mscServe_wf a h
  · exact h
theorem State.putPhysAt_wf {s : State} (a : Nat) (l : List Byte) (h : Memory.wf s.mem = true) :
    Memory.wf (s.putPhysAt a l).mem = true := by
  induction l generalizing s a with
  | nil => exact h
  | cons b r ih => exact ih (a + 1) (State.putPhys_wf a b (State.served_if_wf _ a h))
theorem State.putPhysBytes_wf {s : State} (a : Nat) (l : List Byte) (h : Memory.wf s.mem = true) :
    Memory.wf (s.putPhysBytes a l).mem = true := by
  unfold State.putPhysBytes
  apply State.putPhysAt_wf
  split
  · exact h
  · exact s.mscServe_wf a h

@[simp] theorem State.mscFill_tick (s : State) (a : Nat) : (s.mscFill a).tick = s.tick := by
  unfold State.mscFill
  exact State.count_tick s _ _ _
@[simp] theorem State.mscReady_tick (s : State) (t : Nat) : (s.mscReady t).tick = s.tick := by
  unfold State.mscReady
  split
  · rfl
  · exact s.mscFill_tick t
@[simp] theorem State.mscWrite_tick (s : State) (t : Nat) (b : Byte) : (s.mscWrite t b).tick = s.tick := rfl
@[simp] theorem State.putPhys_tick (s : State) (a : Nat) (b : Byte) : (s.putPhys a b).tick = s.tick := by
  unfold State.putPhys
  split
  · rw [State.mscWrite_tick, State.mscReady_tick]
  · rfl
@[simp] theorem State.mscFetch_tick (s : State) (a : Nat) : (s.mscFetch a).tick = s.tick := by
  unfold State.mscFetch
  split
  · rfl
  split
  · exact s.count_tick _ _ _
  · exact s.mscFill_tick _
@[simp] theorem State.mscServe_tick (s : State) (a : Nat) : (s.mscServe a).tick = s.tick := by
  rw [State.mscServe, State.mscFetch_tick, (s.usedAt_keeps _ _).2]
@[simp] theorem State.putPhysAt_tick (s : State) (a : Nat) (l : List Byte) : (s.putPhysAt a l).tick = s.tick := by
  induction l generalizing s a with
  | nil => rfl
  | cons b r ih =>
    rw [State.putPhysAt, ih, State.putPhys_tick]
    split
    · exact s.mscServe_tick a
    · rfl
@[simp] theorem State.putPhysBytes_tick (s : State) (a : Nat) (l : List Byte) : (s.putPhysBytes a l).tick = s.tick := by
  rw [State.putPhysBytes, State.putPhysAt_tick]
  split
  · rfl
  · exact s.mscServe_tick a

end Sys2Proof.Machine
end

