-- ==== Sys2Proof/Laws/PerInstr.lean ====
section
/-! SUPPORT. The instructions' field ranges, one lemma a constructor: the numbers that `fieldsOf` gives for the major, the
function, the guard and M always fit their fields (R40), so only register numbers can fail to (`encodable`). -/

namespace Sys2Proof.Laws

/-- The fields that are no register number fit their places in the word (R40). -/
structure Bounded (x : Fields) : Prop where
  maj : x.maj < 256
  fn : x.fn < 16
  g : x.g < 4
  m : x.m < 2 ^ 16

/-- Packing fields that fit and taking the word apart again gives the fields back (R40). -/
theorem ofWord_pack {x : Fields} (b : Bounded x) (f : x.fits = true) : Fields.ofWord x.pack = x := by
  obtain ⟨sw, maj, fn, g, d, a, bb, c, m⟩ := x
  obtain ⟨h1, h2, h3, h4⟩ := b
  simp only [Fields.fits, Bool.and_eq_true, decide_eq_true_eq] at f h1 h2 h3 h4
  obtain ⟨⟨⟨h5, h6⟩, h7⟩, h8⟩ := f
  cases sw <;> simp only [Fields.ofWord, Fields.pack, Bool.toNat_true, Bool.toNat_false, Fields.mk.injEq] <;>
    refine ⟨?_, ?_, ?_, ?_, ?_, ?_, ?_, ?_, ?_⟩ <;> first | omega | (simp only [beq_iff_eq, beq_eq_false_iff_ne]; omega)

/-- A full word has W = 0 (R39). -/
theorem pack_full {x : Fields} (b : Bounded x) (f : x.fits = true) : x.pack < 2 ^ 64 ∧ x.pack / 2 ^ 62 % 2 = 0 := by
  obtain ⟨sw, maj, fn, g, d, a, bb, c, m⟩ := x
  obtain ⟨h1, h2, h3, h4⟩ := b
  simp only [Fields.fits, Bool.and_eq_true, decide_eq_true_eq] at f h1 h2 h3 h4
  obtain ⟨⟨⟨h5, h6⟩, h7⟩, h8⟩ := f
  cases sw <;> simp only [Fields.pack, Bool.toNat_true, Bool.toNat_false] <;> constructor <;> omega

theorem guard_lt (g : Guard) : g.code < 4 := by cases g <;> decide
theorem rnd_lt (r : Rnd) : r.code < 16 := by cases r <;> decide
theorem icond_lt (q : ICond) : q.code < 16 := by cases q <;> decide
theorem fcond_lt (q : FCond) : q.code < 16 := by cases q <;> decide
theorem wcond_lt (q : WCond) : q.code < 16 := by cases q <;> decide
theorem scope_lt (q : Scope) : q.code < 8 := by cases q <;> decide
theorem sr_lt (r : Sr) : r.code < 256 := by cases r <;> decide
theorem redOp_lt (o : RedOp) : o.code < 16 := by cases o <;> decide
theorem kind_lt (o : Opd) : o.kind < 2 := by unfold Opd.kind; split <;> decide
theorem xis_lt (d a b : Opd) : xis d a b < 4 := by unfold xis; split <;> (try split) <;> (try split) <;> decide
theorem toNat_lt2 (b : Bool) : b.toNat < 2 := by cases b <;> decide

theorem bounded_0 (h : Hdr) {maj fn : Nat} (h1 : maj < 256) (h2 : fn < 16) : Bounded (fields0 h maj fn) :=
  ⟨h1, h2, guard_lt h.g, Nat.zero_lt_succ _⟩

theorem bounded_n (h : Hdr) {maj fn d a b c m : Nat} (h1 : maj < 256) (h2 : fn < 16) (h3 : m < 2 ^ 16) :
    Bounded (fieldsN h maj fn d a b c m) := ⟨h1, h2, guard_lt h.g, h3⟩

theorem bounded_i (h : Hdr) {maj fn d a : Nat} (v : BitVec 32) (h1 : maj < 256) (h2 : fn < 16) :
    Bounded (fieldsI h maj fn d a v) := bounded_n h h1 h2 (Nat.mod_lt _ (by decide))

theorem bounded_k (h : Hdr) {maj fn : Nat} (d a b c : Opd) {lo : Nat} (h1 : maj < 256) (h2 : fn < 16) (h3 : lo < 2 ^ 12) :
    Bounded (fieldsK h maj fn d a b c lo) := by
  refine ⟨h1, h2, guard_lt h.g, ?_⟩
  have := kind_lt d
  have := kind_lt a
  have := kind_lt b
  have := kind_lt c
  simp only [fieldsK]
  omega

theorem bounded_x (h : Hdr) {maj fn : Nat} (d a b c : Opd) {lo : Nat} (h1 : maj < 256) (h2 : fn < 16) (h3 : lo < 2 ^ 8) :
    Bounded (fieldsX h maj fn d a b c lo) := by
  have := kind_lt d
  have := kind_lt a
  have := kind_lt b
  have := kind_lt c
  have := xis_lt d a b
  cases b with
  | imm v sx =>
    refine ⟨h1, h2, guard_lt h.g, ?_⟩
    have := toNat_lt2 sx
    simp only [fieldsX]
    omega
  | _ =>
    refine ⟨h1, h2, guard_lt h.g, ?_⟩
    simp only [fieldsX]
    omega

theorem memFn_lt (scl : BitVec 2) (st : Bool) : memFn scl st < 16 := by
  have := toNat_lt2 st
  simp only [memFn]
  omega

theorem bounded_load (h : Hdr) {maj : Nat} (scl : BitVec 2) (mode : LdMode) (conv : BitVec 5) (d a b : Opd) (c : CRef)
    (h1 : maj < 256) : Bounded (fieldsLoad h maj scl mode conv d a b c) := by
  cases mode with
  | weak lim pred => exact bounded_k h _ _ _ _ h1 (memFn_lt _ _) (by omega)
  | strong sc =>
    have := scope_lt sc
    exact bounded_k h _ _ _ _ h1 (memFn_lt _ _) (by omega)

theorem bounded_store (h : Hdr) {maj : Nat} (scl : BitVec 2) (mode : Option Scope) (acc ns : Bool) (conv : BitVec 5)
    (a b c : Opd) (h1 : maj < 256) : Bounded (fieldsStore h maj scl mode acc ns conv a b c) := by
  have := toNat_lt2 acc
  have := toNat_lt2 ns
  cases mode with
  | none => exact bounded_k h _ _ _ _ h1 (memFn_lt _ _) (by simp only []; omega)
  | some sc =>
    have := scope_lt sc
    exact bounded_k h _ _ _ _ h1 (memFn_lt _ _) (by simp only []; omega)

theorem bounded_at (h : Hdr) {maj fn : Nat} (sc : Scope) (scl ty : BitVec 2) (d a b c : Opd) (h1 : maj < 256) (h2 : fn < 16) :
    Bounded (fieldsAt h maj fn sc scl ty d a b c) := by
  have := scope_lt sc
  exact bounded_k h _ _ _ _ h1 h2 (by omega)

theorem bounded_stash (h : Hdr) {maj fn : Nat} (scl : BitVec 2) (acc : Bool) (conv : BitVec 5) (d a b c : Opd)
    (h1 : maj < 256) (h2 : fn < 16) : Bounded (fieldsStash h maj fn scl acc conv d a b c) := by
  have := toNat_lt2 acc
  exact bounded_k h _ _ _ _ h1 h2 (by omega)

/-- The statement of the family: every field but the register numbers fits its place in the word. -/
def Encoded.Statement (i : Instr) : Prop := ∀ x, fieldsOf i = some x → Bounded x

theorem Encoded.of {i : Instr} {y : Fields} (h : fieldsOf i = some y) (b : Bounded y) : Encoded.Statement i := by
  intro x hx
  rw [h] at hx
  cases hx
  exact b

theorem Encoded.ofNone {i : Instr} (h : fieldsOf i = none) : Encoded.Statement i := by
  intro x hx
  rw [h] at hx
  cases hx

theorem Encoded.nop (h : Hdr) : Encoded.Statement (.nop h) :=
  Encoded.of rfl (bounded_0 _ (by omega) (by omega))
theorem Encoded.rep (sw : Bool) (sd : BitVec 2) (sa : BitVec 2) (sb : BitVec 2) (sc : BitVec 2) (cnt : BitVec 6) : Encoded.Statement (.rep sw sd sa sb sc cnt) :=
  Encoded.of rfl (bounded_n _ (by omega) (by omega) (by omega))
theorem Encoded.bra (h : Hdr) (w : BitVec 32) : Encoded.Statement (.bra h w) :=
  Encoded.of rfl (bounded_i _ _ (by omega) (by omega))
theorem Encoded.brc (h : Hdr) (neg : Bool) (gf : Bool) (w : BitVec 32) : Encoded.Statement (.brc h neg gf w) := by
  have := toNat_lt2 neg
  have := toNat_lt2 gf
  exact Encoded.of rfl (bounded_i _ _ (by omega) (by omega))
theorem Encoded.jmpi (h : Hdr) (a : Opd) : Encoded.Statement (.jmpi h a) :=
  Encoded.of rfl (bounded_k _ _ _ _ _ (by omega) (by omega) (by omega))
theorem Encoded.call (h : Hdr) (d : Opd) (w : BitVec 32) : Encoded.Statement (.call h d w) :=
  Encoded.of rfl (bounded_i _ _ (by omega) (by omega))
theorem Encoded.ret (h : Hdr) (a : Opd) : Encoded.Statement (.ret h a) :=
  Encoded.of rfl (bounded_k _ _ _ _ _ (by omega) (by omega) (by omega))
theorem Encoded.join (h : Hdr) (tile : Bool) : Encoded.Statement (.join h tile) := by
  have := toNat_lt2 tile
  exact Encoded.of rfl (bounded_0 _ (by omega) (by omega))
theorem Encoded.exit (h : Hdr) : Encoded.Statement (.exit h) :=
  Encoded.of rfl (bounded_0 _ (by omega) (by omega))
theorem Encoded.tail (h : Hdr) : Encoded.Statement (.tail h) :=
  Encoded.of rfl (bounded_0 _ (by omega) (by omega))
theorem Encoded.yield (h : Hdr) : Encoded.Statement (.yield h) :=
  Encoded.of rfl (bounded_0 _ (by omega) (by omega))
theorem Encoded.trap (h : Hdr) (code : BitVec 16) : Encoded.Statement (.trap h code) :=
  Encoded.of rfl (bounded_n _ (by omega) (by omega) (by omega))
theorem Encoded.tretReplay (h : Hdr) : Encoded.Statement (.tretReplay h) :=
  Encoded.of rfl (bounded_0 _ (by omega) (by omega))
theorem Encoded.tretResume (h : Hdr) : Encoded.Statement (.tretResume h) :=
  Encoded.of rfl (bounded_0 _ (by omega) (by omega))
theorem Encoded.waitw (h : Hdr) (cond : WCond) (d : Opd) (a : Opd) (b : Opd) (c : Opd) (tmo : BitVec 4) (scl : BitVec 2) (sc : Scope) : Encoded.Statement (.waitw h cond d a b c tmo scl sc) := by
  have := wcond_lt cond
  have := scope_lt sc
  exact Encoded.of rfl (bounded_k _ _ _ _ _ (by omega) (by omega) (by omega))
theorem Encoded.barArriveWait (h : Hdr) (id : BitVec 4) : Encoded.Statement (.barArriveWait h id) :=
  Encoded.of rfl (bounded_n _ (by omega) (by omega) (by omega))
theorem Encoded.barArrive (h : Hdr) (id : BitVec 4) : Encoded.Statement (.barArrive h id) :=
  Encoded.of rfl (bounded_n _ (by omega) (by omega) (by omega))
theorem Encoded.barWait (h : Hdr) (id : BitVec 4) : Encoded.Statement (.barWait h id) :=
  Encoded.of rfl (bounded_n _ (by omega) (by omega) (by omega))
theorem Encoded.rdsr (h : Hdr) (d : Opd) (sr : Sr) : Encoded.Statement (.rdsr h d sr) := by
  have := sr_lt sr
  exact Encoded.of rfl (bounded_k _ _ _ _ _ (by omega) (by omega) (by omega))
theorem Encoded.wrsr (h : Hdr) (sr : Sr) (a : Opd) : Encoded.Statement (.wrsr h sr a) := by
  have := sr_lt sr
  exact Encoded.of rfl (bounded_k _ _ _ _ _ (by omega) (by omega) (by omega))
theorem Encoded.ems (sw : Bool) (kd : Nat) : Encoded.Statement (.ems sw kd) :=
  Encoded.of rfl (bounded_n _ (by omega) (by omega) (by omega))
theorem Encoded.eml (sw : Bool) (gf : Bool) (ka : Nat) : Encoded.Statement (.eml sw gf ka) := by
  have := toNat_lt2 gf
  exact Encoded.of rfl (bounded_n _ (by omega) (by omega) (by omega))
theorem Encoded.ema (sw : Bool) (gf : Bool) : Encoded.Statement (.ema sw gf) := by
  have := toNat_lt2 gf
  exact Encoded.of rfl (bounded_n _ (by omega) (by omega) (by omega))
theorem Encoded.emn (sw : Bool) (gf : Bool) : Encoded.Statement (.emn sw gf) := by
  have := toNat_lt2 gf
  exact Encoded.of rfl (bounded_n _ (by omega) (by omega) (by omega))
theorem Encoded.emo (sw : Bool) (gf : Bool) : Encoded.Statement (.emo sw gf) := by
  have := toNat_lt2 gf
  exact Encoded.of rfl (bounded_n _ (by omega) (by omega) (by omega))
theorem Encoded.cms (sw : Bool) (p : Bool) (kd : Nat) : Encoded.Statement (.cms sw p kd) := by
  have := toNat_lt2 p
  exact Encoded.of rfl (bounded_n _ (by omega) (by omega) (by omega))
theorem Encoded.cml (sw : Bool) (p : Bool) (ka : Nat) : Encoded.Statement (.cml sw p ka) := by
  have := toNat_lt2 p
  exact Encoded.of rfl (bounded_n _ (by omega) (by omega) (by omega))
theorem Encoded.cmx (sw : Bool) (op : BitVec 2) (ka : Nat) : Encoded.Statement (.cmx sw op ka) :=
  Encoded.of rfl (bounded_n _ (by omega) (by omega) (by omega))
theorem Encoded.part (h : Hdr) (size : BitVec 3) : Encoded.Statement (.part h size) :=
  Encoded.of rfl (bounded_n _ (by omega) (by omega) (by omega))
theorem Encoded.xiset (h : Hdr) (src : XiSrc) : Encoded.Statement (.xiset h src) := by
  cases src <;> exact Encoded.of rfl (bounded_n _ (by omega) (by omega) (by omega))
theorem Encoded.lnch (h : Hdr) (ka : Nat) : Encoded.Statement (.lnch h ka) :=
  Encoded.of rfl (bounded_n _ (by omega) (by omega) (by omega))
theorem Encoded.wcan (h : Hdr) (lvl : BitVec 2) (ka : Nat) : Encoded.Statement (.wcan h lvl ka) :=
  Encoded.of rfl (bounded_n _ (by omega) (by omega) (by omega))
theorem Encoded.movwWrite (h : Hdr) (w : Nat) (k : Nat) : Encoded.Statement (.movwWrite h w k) :=
  Encoded.of rfl (bounded_n _ (by omega) (by omega) (by omega))
theorem Encoded.movwRead (h : Hdr) (k : Nat) (w : Nat) : Encoded.Statement (.movwRead h k w) :=
  Encoded.of rfl (bounded_n _ (by omega) (by omega) (by omega))
theorem Encoded.iadd (h : Hdr) (d : Opd) (a : Opd) (b : Opd) : Encoded.Statement (.iadd h d a b) :=
  Encoded.of rfl (bounded_x _ _ _ _ _ (by omega) (by omega) (by omega))
theorem Encoded.iaddc (h : Hdr) (d : Opd) (a : Opd) (b : Opd) : Encoded.Statement (.iaddc h d a b) :=
  Encoded.of rfl (bounded_x _ _ _ _ _ (by omega) (by omega) (by omega))
theorem Encoded.isub (h : Hdr) (d : Opd) (a : Opd) (b : Opd) : Encoded.Statement (.isub h d a b) :=
  Encoded.of rfl (bounded_x _ _ _ _ _ (by omega) (by omega) (by omega))
theorem Encoded.isubb (h : Hdr) (d : Opd) (a : Opd) (b : Opd) : Encoded.Statement (.isubb h d a b) :=
  Encoded.of rfl (bounded_x _ _ _ _ _ (by omega) (by omega) (by omega))
theorem Encoded.imul (h : Hdr) (d : Opd) (a : Opd) (b : Opd) : Encoded.Statement (.imul h d a b) :=
  Encoded.of rfl (bounded_x _ _ _ _ _ (by omega) (by omega) (by omega))
theorem Encoded.imulh (h : Hdr) (d : Opd) (a : Opd) (b : Opd) : Encoded.Statement (.imulh h d a b) :=
  Encoded.of rfl (bounded_x _ _ _ _ _ (by omega) (by omega) (by omega))
theorem Encoded.imulhN (h : Hdr) (d : Opd) (a : Opd) (b : Opd) : Encoded.Statement (.imulhN h d a b) :=
  Encoded.of rfl (bounded_x _ _ _ _ _ (by omega) (by omega) (by omega))
theorem Encoded.imad (h : Hdr) (d : Opd) (a : Opd) (b : Opd) (c : Opd) : Encoded.Statement (.imad h d a b c) :=
  Encoded.of rfl (bounded_x _ _ _ _ _ (by omega) (by omega) (by omega))
theorem Encoded.imin (h : Hdr) (nat : Bool) (d : Opd) (a : Opd) (b : Opd) : Encoded.Statement (.imin h nat d a b) := by
  have := toNat_lt2 nat
  exact Encoded.of rfl (bounded_x _ _ _ _ _ (by omega) (by omega) (by omega))
theorem Encoded.imax (h : Hdr) (nat : Bool) (d : Opd) (a : Opd) (b : Opd) : Encoded.Statement (.imax h nat d a b) := by
  have := toNat_lt2 nat
  exact Encoded.of rfl (bounded_x _ _ _ _ _ (by omega) (by omega) (by omega))
theorem Encoded.iabs (h : Hdr) (d : Opd) (a : Opd) : Encoded.Statement (.iabs h d a) :=
  Encoded.of rfl (bounded_x _ _ _ _ _ (by omega) (by omega) (by omega))
theorem Encoded.ineg (h : Hdr) (d : Opd) (a : Opd) : Encoded.Statement (.ineg h d a) :=
  Encoded.of rfl (bounded_x _ _ _ _ _ (by omega) (by omega) (by omega))
theorem Encoded.idiv (h : Hdr) (d : Opd) (a : Opd) (b : Opd) : Encoded.Statement (.idiv h d a b) :=
  Encoded.of rfl (bounded_x _ _ _ _ _ (by omega) (by omega) (by omega))
theorem Encoded.idivN (h : Hdr) (d : Opd) (a : Opd) (b : Opd) : Encoded.Statement (.idivN h d a b) :=
  Encoded.of rfl (bounded_x _ _ _ _ _ (by omega) (by omega) (by omega))
theorem Encoded.irem (h : Hdr) (d : Opd) (a : Opd) (b : Opd) : Encoded.Statement (.irem h d a b) :=
  Encoded.of rfl (bounded_x _ _ _ _ _ (by omega) (by omega) (by omega))
theorem Encoded.iremN (h : Hdr) (d : Opd) (a : Opd) (b : Opd) : Encoded.Statement (.iremN h d a b) :=
  Encoded.of rfl (bounded_x _ _ _ _ _ (by omega) (by omega) (by omega))
theorem Encoded.and (h : Hdr) (d : Opd) (a : Opd) (b : Opd) : Encoded.Statement (.and h d a b) :=
  Encoded.of rfl (bounded_x _ _ _ _ _ (by omega) (by omega) (by omega))
theorem Encoded.or (h : Hdr) (d : Opd) (a : Opd) (b : Opd) : Encoded.Statement (.or h d a b) :=
  Encoded.of rfl (bounded_x _ _ _ _ _ (by omega) (by omega) (by omega))
theorem Encoded.xor (h : Hdr) (d : Opd) (a : Opd) (b : Opd) : Encoded.Statement (.xor h d a b) :=
  Encoded.of rfl (bounded_x _ _ _ _ _ (by omega) (by omega) (by omega))
theorem Encoded.andn (h : Hdr) (d : Opd) (a : Opd) (b : Opd) : Encoded.Statement (.andn h d a b) :=
  Encoded.of rfl (bounded_x _ _ _ _ _ (by omega) (by omega) (by omega))
theorem Encoded.not (h : Hdr) (d : Opd) (a : Opd) : Encoded.Statement (.not h d a) :=
  Encoded.of rfl (bounded_x _ _ _ _ _ (by omega) (by omega) (by omega))
theorem Encoded.shl (h : Hdr) (d : Opd) (a : Opd) (b : Opd) : Encoded.Statement (.shl h d a b) :=
  Encoded.of rfl (bounded_x _ _ _ _ _ (by omega) (by omega) (by omega))
theorem Encoded.shr (h : Hdr) (d : Opd) (a : Opd) (b : Opd) : Encoded.Statement (.shr h d a b) :=
  Encoded.of rfl (bounded_x _ _ _ _ _ (by omega) (by omega) (by omega))
theorem Encoded.sar (h : Hdr) (d : Opd) (a : Opd) (b : Opd) : Encoded.Statement (.sar h d a b) :=
  Encoded.of rfl (bounded_x _ _ _ _ _ (by omega) (by omega) (by omega))
theorem Encoded.rot (h : Hdr) (d : Opd) (a : Opd) (b : Opd) : Encoded.Statement (.rot h d a b) :=
  Encoded.of rfl (bounded_x _ _ _ _ _ (by omega) (by omega) (by omega))
theorem Encoded.bfx (h : Hdr) (sg : Bool) (d : Opd) (a : Opd) (b : Opd) : Encoded.Statement (.bfx h sg d a b) := by
  have := toNat_lt2 sg
  exact Encoded.of rfl (bounded_x _ _ _ _ _ (by omega) (by omega) (by omega))
theorem Encoded.bfi (h : Hdr) (d : Opd) (a : Opd) (b : Opd) (c : Opd) : Encoded.Statement (.bfi h d a b c) :=
  Encoded.of rfl (bounded_x _ _ _ _ _ (by omega) (by omega) (by omega))
theorem Encoded.popc (h : Hdr) (d : Opd) (a : Opd) : Encoded.Statement (.popc h d a) :=
  Encoded.of rfl (bounded_x _ _ _ _ _ (by omega) (by omega) (by omega))
theorem Encoded.clz (h : Hdr) (d : Opd) (a : Opd) : Encoded.Statement (.clz h d a) :=
  Encoded.of rfl (bounded_x _ _ _ _ _ (by omega) (by omega) (by omega))
theorem Encoded.brev (h : Hdr) (d : Opd) (a : Opd) : Encoded.Statement (.brev h d a) :=
  Encoded.of rfl (bounded_x _ _ _ _ _ (by omega) (by omega) (by omega))
theorem Encoded.sel (h : Hdr) (d : Opd) (a : Opd) (b : Opd) : Encoded.Statement (.sel h d a b) :=
  Encoded.of rfl (bounded_x _ _ _ _ _ (by omega) (by omega) (by omega))
theorem Encoded.selZ (h : Hdr) (d : Opd) (a : Opd) (b : Opd) (c : Opd) : Encoded.Statement (.selZ h d a b c) :=
  Encoded.of rfl (bounded_x _ _ _ _ _ (by omega) (by omega) (by omega))
theorem Encoded.iset (h : Hdr) (c : ICond) (d : Option Opd) (a : Opd) (b : Opd) : Encoded.Statement (.iset h c d a b) := by
  have := icond_lt c
  cases d <;> exact Encoded.of rfl (bounded_x _ _ _ _ _ (by omega) (by omega) (by omega))
theorem Encoded.mov (h : Hdr) (d : Opd) (a : Opd) : Encoded.Statement (.mov h d a) :=
  Encoded.of rfl (bounded_x _ _ _ _ _ (by omega) (by omega) (by omega))
theorem Encoded.movi (h : Hdr) (d : Opd) (tag : BitVec 2) (imm : BitVec 32) : Encoded.Statement (.movi h d tag imm) :=
  Encoded.of rfl (bounded_i _ _ (by omega) (by omega))
theorem Encoded.retag (h : Hdr) (tag : BitVec 2) (d : Opd) (a : Opd) : Encoded.Statement (.retag h tag d a) :=
  Encoded.of rfl (bounded_x _ _ _ _ _ (by omega) (by omega) (by omega))
theorem Encoded.cadd (h : Hdr) (d : Opd) (a : Opd) (b : Opd) : Encoded.Statement (.cadd h d a b) :=
  Encoded.of rfl (bounded_x _ _ _ _ _ (by omega) (by omega) (by omega))
theorem Encoded.cmk (h : Hdr) (d : Opd) (a : Opd) : Encoded.Statement (.cmk h d a) :=
  Encoded.of rfl (bounded_x _ _ _ _ _ (by omega) (by omega) (by omega))
theorem Encoded.clen (h : Hdr) (d : Opd) (a : Opd) : Encoded.Statement (.clen h d a) :=
  Encoded.of rfl (bounded_x _ _ _ _ _ (by omega) (by omega) (by omega))
theorem Encoded.crst (h : Hdr) (d : Opd) (a : Opd) (b : Opd) : Encoded.Statement (.crst h d a b) :=
  Encoded.of rfl (bounded_x _ _ _ _ _ (by omega) (by omega) (by omega))
theorem Encoded.fadd (h : Hdr) (r : Rnd) (d : Opd) (a : Opd) (b : Opd) : Encoded.Statement (.fadd h r d a b) := by
  have := rnd_lt r
  exact Encoded.of rfl (bounded_x _ _ _ _ _ (by omega) (by omega) (by omega))
theorem Encoded.fsub (h : Hdr) (r : Rnd) (d : Opd) (a : Opd) (b : Opd) : Encoded.Statement (.fsub h r d a b) := by
  have := rnd_lt r
  exact Encoded.of rfl (bounded_x _ _ _ _ _ (by omega) (by omega) (by omega))
theorem Encoded.fmul (h : Hdr) (r : Rnd) (d : Opd) (a : Opd) (b : Opd) : Encoded.Statement (.fmul h r d a b) := by
  have := rnd_lt r
  exact Encoded.of rfl (bounded_x _ _ _ _ _ (by omega) (by omega) (by omega))
theorem Encoded.ffma (h : Hdr) (r : Rnd) (d : Opd) (a : Opd) (b : Opd) (c : Opd) : Encoded.Statement (.ffma h r d a b c) := by
  have := rnd_lt r
  exact Encoded.of rfl (bounded_x _ _ _ _ _ (by omega) (by omega) (by omega))
theorem Encoded.fmin (h : Hdr) (d : Opd) (a : Opd) (b : Opd) : Encoded.Statement (.fmin h d a b) :=
  Encoded.of rfl (bounded_x _ _ _ _ _ (by omega) (by omega) (by omega))
theorem Encoded.fmax (h : Hdr) (d : Opd) (a : Opd) (b : Opd) : Encoded.Statement (.fmax h d a b) :=
  Encoded.of rfl (bounded_x _ _ _ _ _ (by omega) (by omega) (by omega))
theorem Encoded.fminm (h : Hdr) (d : Opd) (a : Opd) (b : Opd) : Encoded.Statement (.fminm h d a b) :=
  Encoded.of rfl (bounded_x _ _ _ _ _ (by omega) (by omega) (by omega))
theorem Encoded.fmaxm (h : Hdr) (d : Opd) (a : Opd) (b : Opd) : Encoded.Statement (.fmaxm h d a b) :=
  Encoded.of rfl (bounded_x _ _ _ _ _ (by omega) (by omega) (by omega))
theorem Encoded.fset (h : Hdr) (c : FCond) (d : Option Opd) (a : Opd) (b : Opd) : Encoded.Statement (.fset h c d a b) := by
  have := fcond_lt c
  cases d <;> exact Encoded.of rfl (bounded_x _ _ _ _ _ (by omega) (by omega) (by omega))
theorem Encoded.fclass (h : Hdr) (d : Opd) (a : Opd) : Encoded.Statement (.fclass h d a) :=
  Encoded.of rfl (bounded_x _ _ _ _ _ (by omega) (by omega) (by omega))
theorem Encoded.frnd (h : Hdr) (r : Rnd) (x : Bool) (d : Opd) (a : Opd) : Encoded.Statement (.frnd h r x d a) := by
  have := rnd_lt r
  have := toNat_lt2 x
  exact Encoded.of rfl (bounded_x _ _ _ _ _ (by omega) (by omega) (by omega))
theorem Encoded.f2i (h : Hdr) (r : Rnd) (n : Bool) (d : Opd) (a : Opd) : Encoded.Statement (.f2i h r n d a) := by
  have := rnd_lt r
  have := toNat_lt2 n
  exact Encoded.of rfl (bounded_x _ _ _ _ _ (by omega) (by omega) (by omega))
theorem Encoded.i2f (h : Hdr) (r : Rnd) (n : Bool) (d : Opd) (a : Opd) : Encoded.Statement (.i2f h r n d a) := by
  have := rnd_lt r
  have := toNat_lt2 n
  exact Encoded.of rfl (bounded_x _ _ _ _ _ (by omega) (by omega) (by omega))
theorem Encoded.fpk (h : Hdr) (r : Rnd) (d : Opd) (a : Opd) (b : Opd) : Encoded.Statement (.fpk h r d a b) := by
  have := rnd_lt r
  exact Encoded.of rfl (bounded_x _ _ _ _ _ (by omega) (by omega) (by omega))
theorem Encoded.fupk (h : Hdr) (hi : Bool) (d : Opd) (a : Opd) : Encoded.Statement (.fupk h hi d a) := by
  have := toNat_lt2 hi
  exact Encoded.of rfl (bounded_x _ _ _ _ _ (by omega) (by omega) (by omega))
theorem Encoded.badd2 (h : Hdr) (r : Rnd) (d : Opd) (a : Opd) (b : Opd) : Encoded.Statement (.badd2 h r d a b) := by
  have := rnd_lt r
  exact Encoded.of rfl (bounded_x _ _ _ _ _ (by omega) (by omega) (by omega))
theorem Encoded.bmul2 (h : Hdr) (r : Rnd) (d : Opd) (a : Opd) (b : Opd) : Encoded.Statement (.bmul2 h r d a b) := by
  have := rnd_lt r
  exact Encoded.of rfl (bounded_x _ _ _ _ _ (by omega) (by omega) (by omega))
theorem Encoded.bfma2 (h : Hdr) (r : Rnd) (d : Opd) (a : Opd) (b : Opd) (c : Opd) : Encoded.Statement (.bfma2 h r d a b c) := by
  have := rnd_lt r
  exact Encoded.of rfl (bounded_x _ _ _ _ _ (by omega) (by omega) (by omega))
theorem Encoded.bmin2 (h : Hdr) (d : Opd) (a : Opd) (b : Opd) : Encoded.Statement (.bmin2 h d a b) :=
  Encoded.of rfl (bounded_x _ _ _ _ _ (by omega) (by omega) (by omega))
theorem Encoded.bmax2 (h : Hdr) (d : Opd) (a : Opd) (b : Opd) : Encoded.Statement (.bmax2 h d a b) :=
  Encoded.of rfl (bounded_x _ _ _ _ _ (by omega) (by omega) (by omega))
theorem Encoded.ftwos (h : Hdr) (d : Opd) (a : Opd) (b : Opd) : Encoded.Statement (.ftwos h d a b) :=
  Encoded.of rfl (bounded_x _ _ _ _ _ (by omega) (by omega) (by omega))
theorem Encoded.ftwop (h : Hdr) (d : Opd) (a : Opd) (b : Opd) : Encoded.Statement (.ftwop h d a b) :=
  Encoded.of rfl (bounded_x _ _ _ _ _ (by omega) (by omega) (by omega))
theorem Encoded.frcp (h : Hdr) (d : Opd) (a : Opd) : Encoded.Statement (.frcp h d a) :=
  Encoded.of rfl (bounded_x _ _ _ _ _ (by omega) (by omega) (by omega))
theorem Encoded.frsq (h : Hdr) (d : Opd) (a : Opd) : Encoded.Statement (.frsq h d a) :=
  Encoded.of rfl (bounded_x _ _ _ _ _ (by omega) (by omega) (by omega))
theorem Encoded.fsqrt (h : Hdr) (d : Opd) (a : Opd) : Encoded.Statement (.fsqrt h d a) :=
  Encoded.of rfl (bounded_x _ _ _ _ _ (by omega) (by omega) (by omega))
theorem Encoded.fexp2 (h : Hdr) (d : Opd) (a : Opd) : Encoded.Statement (.fexp2 h d a) :=
  Encoded.of rfl (bounded_x _ _ _ _ _ (by omega) (by omega) (by omega))
theorem Encoded.flog2 (h : Hdr) (d : Opd) (a : Opd) : Encoded.Statement (.flog2 h d a) :=
  Encoded.of rfl (bounded_x _ _ _ _ _ (by omega) (by omega) (by omega))
theorem Encoded.fsint (h : Hdr) (d : Opd) (a : Opd) : Encoded.Statement (.fsint h d a) :=
  Encoded.of rfl (bounded_x _ _ _ _ _ (by omega) (by omega) (by omega))
theorem Encoded.fcost (h : Hdr) (d : Opd) (a : Opd) : Encoded.Statement (.fcost h d a) :=
  Encoded.of rfl (bounded_x _ _ _ _ _ (by omega) (by omega) (by omega))
theorem Encoded.ftanh (h : Hdr) (d : Opd) (a : Opd) : Encoded.Statement (.ftanh h d a) :=
  Encoded.of rfl (bounded_x _ _ _ _ _ (by omega) (by omega) (by omega))
theorem Encoded.rota (h : Hdr) (d : Opd) (a : Opd) (b : Opd) : Encoded.Statement (.rota h d a b) :=
  Encoded.of rfl (bounded_x _ _ _ _ _ (by omega) (by omega) (by omega))
theorem Encoded.fdiv (h : Hdr) (r : Rnd) (d : Opd) (a : Opd) (b : Opd) : Encoded.Statement (.fdiv h r d a b) := by
  have := rnd_lt r
  exact Encoded.of rfl (bounded_x _ _ _ _ _ (by omega) (by omega) (by omega))
theorem Encoded.shflIdx (h : Hdr) (d : Opd) (a : Opd) (b : Opd) : Encoded.Statement (.shflIdx h d a b) :=
  Encoded.of rfl (bounded_x _ _ _ _ _ (by omega) (by omega) (by omega))
theorem Encoded.shflUp (h : Hdr) (d : Opd) (a : Opd) (b : Opd) : Encoded.Statement (.shflUp h d a b) :=
  Encoded.of rfl (bounded_x _ _ _ _ _ (by omega) (by omega) (by omega))
theorem Encoded.shflDown (h : Hdr) (d : Opd) (a : Opd) (b : Opd) : Encoded.Statement (.shflDown h d a b) :=
  Encoded.of rfl (bounded_x _ _ _ _ _ (by omega) (by omega) (by omega))
theorem Encoded.shflXor (h : Hdr) (d : Opd) (a : Opd) (b : Opd) : Encoded.Statement (.shflXor h d a b) :=
  Encoded.of rfl (bounded_x _ _ _ _ _ (by omega) (by omega) (by omega))
theorem Encoded.pswp (h : Hdr) (n : Neg) (d : Opd) (a : Opd) : Encoded.Statement (.pswp h n d a) := by
  cases n <;> exact Encoded.of rfl (bounded_x _ _ _ _ _ (by omega) (by omega) (by omega))
theorem Encoded.voteAny (h : Hdr) (cmw : Bool) (d : Opd) (a : Opd) : Encoded.Statement (.voteAny h cmw d a) := by
  have := toNat_lt2 cmw
  exact Encoded.of rfl (bounded_x _ _ _ _ _ (by omega) (by omega) (by omega))
theorem Encoded.voteAll (h : Hdr) (cmw : Bool) (d : Opd) (a : Opd) : Encoded.Statement (.voteAll h cmw d a) := by
  have := toNat_lt2 cmw
  exact Encoded.of rfl (bounded_x _ _ _ _ _ (by omega) (by omega) (by omega))
theorem Encoded.voteBallot (h : Hdr) (d : Opd) (a : Opd) : Encoded.Statement (.voteBallot h d a) :=
  Encoded.of rfl (bounded_x _ _ _ _ _ (by omega) (by omega) (by omega))
theorem Encoded.reduxAddI32 (h : Hdr) (d : Opd) (a : Opd) : Encoded.Statement (.reduxAddI32 h d a) :=
  Encoded.of rfl (bounded_x _ _ _ _ _ (by omega) (by omega) (by omega))
theorem Encoded.reduxAddF32 (h : Hdr) (d : Opd) (a : Opd) : Encoded.Statement (.reduxAddF32 h d a) :=
  Encoded.of rfl (bounded_x _ _ _ _ _ (by omega) (by omega) (by omega))
theorem Encoded.reduxMin (h : Hdr) (d : Opd) (a : Opd) : Encoded.Statement (.reduxMin h d a) :=
  Encoded.of rfl (bounded_x _ _ _ _ _ (by omega) (by omega) (by omega))
theorem Encoded.reduxMax (h : Hdr) (d : Opd) (a : Opd) : Encoded.Statement (.reduxMax h d a) :=
  Encoded.of rfl (bounded_x _ _ _ _ _ (by omega) (by omega) (by omega))
theorem Encoded.reduxMinN (h : Hdr) (d : Opd) (a : Opd) : Encoded.Statement (.reduxMinN h d a) :=
  Encoded.of rfl (bounded_x _ _ _ _ _ (by omega) (by omega) (by omega))
theorem Encoded.reduxMaxN (h : Hdr) (d : Opd) (a : Opd) : Encoded.Statement (.reduxMaxN h d a) :=
  Encoded.of rfl (bounded_x _ _ _ _ _ (by omega) (by omega) (by omega))
theorem Encoded.reduxFmin (h : Hdr) (d : Opd) (a : Opd) : Encoded.Statement (.reduxFmin h d a) :=
  Encoded.of rfl (bounded_x _ _ _ _ _ (by omega) (by omega) (by omega))
theorem Encoded.reduxFmax (h : Hdr) (d : Opd) (a : Opd) : Encoded.Statement (.reduxFmax h d a) :=
  Encoded.of rfl (bounded_x _ _ _ _ _ (by omega) (by omega) (by omega))
theorem Encoded.reduxAnd (h : Hdr) (d : Opd) (a : Opd) : Encoded.Statement (.reduxAnd h d a) :=
  Encoded.of rfl (bounded_x _ _ _ _ _ (by omega) (by omega) (by omega))
theorem Encoded.reduxOr (h : Hdr) (d : Opd) (a : Opd) : Encoded.Statement (.reduxOr h d a) :=
  Encoded.of rfl (bounded_x _ _ _ _ _ (by omega) (by omega) (by omega))
theorem Encoded.reduxXor (h : Hdr) (d : Opd) (a : Opd) : Encoded.Statement (.reduxXor h d a) :=
  Encoded.of rfl (bounded_x _ _ _ _ _ (by omega) (by omega) (by omega))
theorem Encoded.scan (h : Hdr) (excl : Bool) (op : RedOp) (d : Opd) (a : Opd) : Encoded.Statement (.scan h excl op d a) := by
  have := toNat_lt2 excl
  have := redOp_lt op
  exact Encoded.of rfl (bounded_x _ _ _ _ _ (by omega) (by omega) (by omega))
theorem Encoded.rdln (h : Hdr) (tile : Bool) (d : Opd) : Encoded.Statement (.rdln h tile d) := by
  have := toNat_lt2 tile
  exact Encoded.of rfl (bounded_x _ _ _ _ _ (by omega) (by omega) (by omega))
theorem Encoded.ld (h : Hdr) (scl : BitVec 2) (lim : BitVec 4) (pred : BitVec 3) (conv : BitVec 5) (d : Opd) (a : Opd) (b : Opd) (c : CRef) : Encoded.Statement (.ld h scl lim pred conv d a b c) :=
  Encoded.of rfl (bounded_load _ _ _ _ _ _ _ _ (by omega))
theorem Encoded.ldStrong (h : Hdr) (scl : BitVec 2) (sc : Scope) (conv : BitVec 5) (d : Opd) (a : Opd) (b : Opd) : Encoded.Statement (.ldStrong h scl sc conv d a b) :=
  Encoded.of rfl (bounded_load _ _ _ _ _ _ _ _ (by omega))
theorem Encoded.ldk (h : Hdr) (scl : BitVec 2) (mode : LdMode) (conv : BitVec 5) (d : Opd) (a : Opd) (b : Opd) (c : CRef) : Encoded.Statement (.ldk h scl mode conv d a b c) :=
  Encoded.of rfl (bounded_load _ _ _ _ _ _ _ _ (by omega))
theorem Encoded.st (h : Hdr) (scl : BitVec 2) (acc : Bool) (ns : Bool) (conv : BitVec 5) (a : Opd) (b : Opd) (c : Opd) : Encoded.Statement (.st h scl acc ns conv a b c) :=
  Encoded.of rfl (bounded_store _ _ _ _ _ _ _ _ _ (by omega))
theorem Encoded.stStrong (h : Hdr) (scl : BitVec 2) (sc : Scope) (acc : Bool) (ns : Bool) (conv : BitVec 5) (a : Opd) (b : Opd) (c : Opd) : Encoded.Statement (.stStrong h scl sc acc ns conv a b c) :=
  Encoded.of rfl (bounded_store _ _ _ _ _ _ _ _ _ (by omega))
theorem Encoded.stk (h : Hdr) (scl : BitVec 2) (mode : Option Scope) (acc : Bool) (ns : Bool) (conv : BitVec 5) (a : Opd) (b : Opd) (c : Opd) : Encoded.Statement (.stk h scl mode acc ns conv a b c) :=
  Encoded.of rfl (bounded_store _ _ _ _ _ _ _ _ _ (by omega))
theorem Encoded.ldh (h : Hdr) (scl : BitVec 2) (conv : BitVec 5) (d : Opd) (a : Opd) (b : Opd) : Encoded.Statement (.ldh h scl conv d a b) :=
  Encoded.of rfl (bounded_stash _ _ _ _ _ _ _ _ (by omega) (by omega))
theorem Encoded.ldhWf (h : Hdr) (scl : BitVec 2) (conv : BitVec 5) (d : Opd) (a : Opd) (b : Opd) : Encoded.Statement (.ldhWf h scl conv d a b) :=
  Encoded.of rfl (bounded_stash _ _ _ _ _ _ _ _ (by omega) (by omega))
theorem Encoded.ldhWfe (h : Hdr) (scl : BitVec 2) (conv : BitVec 5) (d : Opd) (a : Opd) (b : Opd) : Encoded.Statement (.ldhWfe h scl conv d a b) :=
  Encoded.of rfl (bounded_stash _ _ _ _ _ _ _ _ (by omega) (by omega))
theorem Encoded.sth (h : Hdr) (scl : BitVec 2) (acc : Bool) (conv : BitVec 5) (a : Opd) (b : Opd) (c : Opd) : Encoded.Statement (.sth h scl acc conv a b c) :=
  Encoded.of rfl (bounded_stash _ _ _ _ _ _ _ _ (by omega) (by omega))
theorem Encoded.sthSf (h : Hdr) (scl : BitVec 2) (acc : Bool) (conv : BitVec 5) (a : Opd) (b : Opd) (c : Opd) : Encoded.Statement (.sthSf h scl acc conv a b c) :=
  Encoded.of rfl (bounded_stash _ _ _ _ _ _ _ _ (by omega) (by omega))
theorem Encoded.sthWesf (h : Hdr) (scl : BitVec 2) (acc : Bool) (conv : BitVec 5) (a : Opd) (b : Opd) (c : Opd) : Encoded.Statement (.sthWesf h scl acc conv a b c) :=
  Encoded.of rfl (bounded_stash _ _ _ _ _ _ _ _ (by omega) (by omega))
theorem Encoded.smap (h : Hdr) (id : BitVec 3) (a : Nat) (b : Nat) (c : Nat) : Encoded.Statement (.smap h id a b c) :=
  Encoded.of rfl (bounded_n _ (by omega) (by omega) (by omega))
theorem Encoded.sunmap (h : Hdr) (id : BitVec 3) : Encoded.Statement (.sunmap h id) :=
  Encoded.of rfl (bounded_n _ (by omega) (by omega) (by omega))
theorem Encoded.sflush (h : Hdr) (id : BitVec 3) : Encoded.Statement (.sflush h id) :=
  Encoded.of rfl (bounded_n _ (by omega) (by omega) (by omega))
theorem Encoded.tpl (h : Hdr) (a : Opd) : Encoded.Statement (.tpl h a) :=
  Encoded.of rfl (bounded_k _ _ _ _ _ (by omega) (by omega) (by omega))
theorem Encoded.tplT (h : Hdr) : Encoded.Statement (.tplT h) :=
  Encoded.of rfl (bounded_0 _ (by omega) (by omega))
theorem Encoded.acpt (h : Hdr) (d : Opd) : Encoded.Statement (.acpt h d) :=
  Encoded.of rfl (bounded_k _ _ _ _ _ (by omega) (by omega) (by omega))
theorem Encoded.redem (h : Hdr) (d : Opd) : Encoded.Statement (.redem h d) :=
  Encoded.of rfl (bounded_k _ _ _ _ _ (by omega) (by omega) (by omega))
theorem Encoded.pft (h : Hdr) (scl : BitVec 2) (lim : BitVec 4) (lvl : BitVec 2) (line : Bool) (a : Opd) (b : Opd) : Encoded.Statement (.pft h scl lim lvl line a b) := by
  have := toNat_lt2 line
  exact Encoded.of rfl (bounded_k _ _ _ _ _ (by omega) (memFn_lt _ _) (by omega))
theorem Encoded.gath (h : Hdr) (esz : BitVec 2) (d : Nat) (a : Nat) (b : Nat) (c : Nat) : Encoded.Statement (.gath h esz d a b c) :=
  Encoded.of rfl (bounded_n _ (by omega) (by omega) (by omega))
theorem Encoded.scatAddF32 (h : Hdr) (d : Nat) (a : Nat) (b : Nat) (c : Nat) : Encoded.Statement (.scatAddF32 h d a b c) :=
  Encoded.of rfl (bounded_n _ (by omega) (by omega) (by omega))
theorem Encoded.scatAddI32 (h : Hdr) (d : Nat) (a : Nat) (b : Nat) (c : Nat) : Encoded.Statement (.scatAddI32 h d a b c) :=
  Encoded.of rfl (bounded_n _ (by omega) (by omega) (by omega))
theorem Encoded.scatMin (h : Hdr) (d : Nat) (a : Nat) (b : Nat) (c : Nat) : Encoded.Statement (.scatMin h d a b c) :=
  Encoded.of rfl (bounded_n _ (by omega) (by omega) (by omega))
theorem Encoded.scatMax (h : Hdr) (d : Nat) (a : Nat) (b : Nat) (c : Nat) : Encoded.Statement (.scatMax h d a b c) :=
  Encoded.of rfl (bounded_n _ (by omega) (by omega) (by omega))
theorem Encoded.scatOr (h : Hdr) (d : Nat) (a : Nat) (b : Nat) (c : Nat) : Encoded.Statement (.scatOr h d a b c) :=
  Encoded.of rfl (bounded_n _ (by omega) (by omega) (by omega))
theorem Encoded.tclr (h : Hdr) : Encoded.Statement (.tclr h) :=
  Encoded.of rfl (bounded_0 _ (by omega) (by omega))
theorem Encoded.atAdd (h : Hdr) (sc : Scope) (scl : BitVec 2) (ty : BitVec 2) (d : Opd) (a : Opd) (b : Opd) (c : Opd) : Encoded.Statement (.atAdd h sc scl ty d a b c) :=
  Encoded.of rfl (bounded_at _ _ _ _ _ _ _ _ (by omega) (by omega))
theorem Encoded.atMin (h : Hdr) (sc : Scope) (scl : BitVec 2) (ty : BitVec 2) (d : Opd) (a : Opd) (b : Opd) (c : Opd) : Encoded.Statement (.atMin h sc scl ty d a b c) :=
  Encoded.of rfl (bounded_at _ _ _ _ _ _ _ _ (by omega) (by omega))
theorem Encoded.atMax (h : Hdr) (sc : Scope) (scl : BitVec 2) (ty : BitVec 2) (d : Opd) (a : Opd) (b : Opd) (c : Opd) : Encoded.Statement (.atMax h sc scl ty d a b c) :=
  Encoded.of rfl (bounded_at _ _ _ _ _ _ _ _ (by omega) (by omega))
theorem Encoded.atAnd (h : Hdr) (sc : Scope) (scl : BitVec 2) (ty : BitVec 2) (d : Opd) (a : Opd) (b : Opd) (c : Opd) : Encoded.Statement (.atAnd h sc scl ty d a b c) :=
  Encoded.of rfl (bounded_at _ _ _ _ _ _ _ _ (by omega) (by omega))
theorem Encoded.atOr (h : Hdr) (sc : Scope) (scl : BitVec 2) (ty : BitVec 2) (d : Opd) (a : Opd) (b : Opd) (c : Opd) : Encoded.Statement (.atOr h sc scl ty d a b c) :=
  Encoded.of rfl (bounded_at _ _ _ _ _ _ _ _ (by omega) (by omega))
theorem Encoded.atXor (h : Hdr) (sc : Scope) (scl : BitVec 2) (ty : BitVec 2) (d : Opd) (a : Opd) (b : Opd) (c : Opd) : Encoded.Statement (.atXor h sc scl ty d a b c) :=
  Encoded.of rfl (bounded_at _ _ _ _ _ _ _ _ (by omega) (by omega))
theorem Encoded.atExch (h : Hdr) (sc : Scope) (scl : BitVec 2) (ty : BitVec 2) (d : Opd) (a : Opd) (b : Opd) (c : Opd) : Encoded.Statement (.atExch h sc scl ty d a b c) :=
  Encoded.of rfl (bounded_at _ _ _ _ _ _ _ _ (by omega) (by omega))
theorem Encoded.atCas (h : Hdr) (sc : Scope) (scl : BitVec 2) (ty : BitVec 2) (d : Opd) (a : Opd) (b : Opd) (c : Opd) : Encoded.Statement (.atCas h sc scl ty d a b c) :=
  Encoded.of rfl (bounded_at _ _ _ _ _ _ _ _ (by omega) (by omega))
theorem Encoded.redAdd (h : Hdr) (sc : Scope) (scl : BitVec 2) (ty : BitVec 2) (a : Opd) (b : Opd) (c : Opd) : Encoded.Statement (.redAdd h sc scl ty a b c) :=
  Encoded.of rfl (bounded_at _ _ _ _ _ _ _ _ (by omega) (by omega))
theorem Encoded.redMin (h : Hdr) (sc : Scope) (scl : BitVec 2) (ty : BitVec 2) (a : Opd) (b : Opd) (c : Opd) : Encoded.Statement (.redMin h sc scl ty a b c) :=
  Encoded.of rfl (bounded_at _ _ _ _ _ _ _ _ (by omega) (by omega))
theorem Encoded.redMax (h : Hdr) (sc : Scope) (scl : BitVec 2) (ty : BitVec 2) (a : Opd) (b : Opd) (c : Opd) : Encoded.Statement (.redMax h sc scl ty a b c) :=
  Encoded.of rfl (bounded_at _ _ _ _ _ _ _ _ (by omega) (by omega))
theorem Encoded.redAnd (h : Hdr) (sc : Scope) (scl : BitVec 2) (ty : BitVec 2) (a : Opd) (b : Opd) (c : Opd) : Encoded.Statement (.redAnd h sc scl ty a b c) :=
  Encoded.of rfl (bounded_at _ _ _ _ _ _ _ _ (by omega) (by omega))
theorem Encoded.redOr (h : Hdr) (sc : Scope) (scl : BitVec 2) (ty : BitVec 2) (a : Opd) (b : Opd) (c : Opd) : Encoded.Statement (.redOr h sc scl ty a b c) :=
  Encoded.of rfl (bounded_at _ _ _ _ _ _ _ _ (by omega) (by omega))
theorem Encoded.redXor (h : Hdr) (sc : Scope) (scl : BitVec 2) (ty : BitVec 2) (a : Opd) (b : Opd) (c : Opd) : Encoded.Statement (.redXor h sc scl ty a b c) :=
  Encoded.of rfl (bounded_at _ _ _ _ _ _ _ _ (by omega) (by omega))
theorem Encoded.bind (h : Hdr) (d : Nat) (a : Nat) (b : Nat) (c : Nat) : Encoded.Statement (.bind h d a b c) :=
  Encoded.of rfl (bounded_n _ (by omega) (by omega) (by omega))
theorem Encoded.bindUn (h : Hdr) (a : Nat) : Encoded.Statement (.bindUn h a) :=
  Encoded.of rfl (bounded_n _ (by omega) (by omega) (by omega))
theorem Encoded.acq (h : Hdr) (tmo : BitVec 4) (sc : Scope) (a : Nat) (b : Nat) : Encoded.Statement (.acq h tmo sc a b) := by
  have := scope_lt sc
  exact Encoded.of rfl (bounded_n _ (by omega) (by omega) (by omega))
theorem Encoded.rel (h : Hdr) (sc : Scope) (a : Nat) : Encoded.Statement (.rel h sc a) := by
  have := scope_lt sc
  exact Encoded.of rfl (bounded_n _ (by omega) (by omega) (by omega))
theorem Encoded.fence (h : Hdr) (sc : Scope) : Encoded.Statement (.fence h sc) := by
  have := scope_lt sc
  exact Encoded.of rfl (bounded_n _ (by omega) (by omega) (by omega))
theorem Encoded.publ (h : Hdr) (a : Nat) : Encoded.Statement (.publ h a) :=
  Encoded.of rfl (bounded_n _ (by omega) (by omega) (by omega))
theorem Encoded.tld (h : Hdr) (scl : BitVec 2) (conv : BitVec 5) (d : Opd) (a : Opd) (b : Opd) : Encoded.Statement (.tld h scl conv d a b) :=
  Encoded.of rfl (bounded_stash _ _ _ _ _ _ _ _ (by omega) (by omega))
theorem Encoded.tst (h : Hdr) (scl : BitVec 2) (acc : Bool) (conv : BitVec 5) (a : Opd) (b : Opd) (c : Opd) : Encoded.Statement (.tst h scl acc conv a b c) :=
  Encoded.of rfl (bounded_stash _ _ _ _ _ _ _ _ (by omega) (by omega))
theorem Encoded.burn (h : Hdr) (scl : BitVec 2) (a : Opd) (b : Opd) : Encoded.Statement (.burn h scl a b) :=
  Encoded.of rfl (bounded_stash _ _ _ _ _ _ _ _ (by omega) (by omega))
theorem Encoded.life (h : Hdr) (scl : BitVec 2) (d : Opd) (a : Opd) (b : Opd) : Encoded.Statement (.life h scl d a b) :=
  Encoded.of rfl (bounded_stash _ _ _ _ _ _ _ _ (by omega) (by omega))
theorem Encoded.tinit (h : Hdr) (scl : BitVec 2) (a : Opd) (b : Opd) : Encoded.Statement (.tinit h scl a b) :=
  Encoded.of rfl (bounded_stash _ _ _ _ _ _ _ _ (by omega) (by omega))
theorem Encoded.ofill (h : Hdr) (rf : Bool) (ns : Bool) (sb : Bool) (conv : BitVec 5) (d : Nat) (a : Opd) (b : Opd) (c : Opd) : Encoded.Statement (.ofill h rf ns sb conv d a b c) := by
  have := toNat_lt2 rf
  have := toNat_lt2 ns
  have := toNat_lt2 sb
  exact Encoded.of rfl (bounded_k _ _ _ _ _ (by omega) (by omega) (by omega))
theorem Encoded.ofillAssay (h : Hdr) (d : Nat) (a : Nat) (c : Opd) : Encoded.Statement (.ofillAssay h d a c) :=
  Encoded.of rfl (bounded_k _ _ _ _ _ (by omega) (by omega) (by omega))
theorem Encoded.awset (h : Hdr) (w : BitVec 5) (a : Nat) (b : Nat) : Encoded.Statement (.awset h w a b) :=
  Encoded.of rfl (bounded_n _ (by omega) (by omega) (by omega))
theorem Encoded.accrd (h : Hdr) (d : Opd) (a : Opd) (b : Opd) : Encoded.Statement (.accrd h d a b) :=
  Encoded.of rfl (bounded_k _ _ _ _ _ (by omega) (by omega) (by omega))
theorem Encoded.accrdW (h : Hdr) (d : Opd) (a : Opd) (b : Opd) : Encoded.Statement (.accrdW h d a b) :=
  Encoded.of rfl (bounded_k _ _ _ _ _ (by omega) (by omega) (by omega))
theorem Encoded.accwr (h : Hdr) (a : Opd) (b : Opd) (c : Opd) : Encoded.Statement (.accwr h a b c) :=
  Encoded.of rfl (bounded_k _ _ _ _ _ (by omega) (by omega) (by omega))
theorem Encoded.accrel (h : Hdr) (a : Opd) : Encoded.Statement (.accrel h a) :=
  Encoded.of rfl (bounded_k _ _ _ _ _ (by omega) (by omega) (by omega))
theorem Encoded.lwait (h : Hdr) (tmo : BitVec 4) (d : Opd) (a : Opd) (b : Opd) : Encoded.Statement (.lwait h tmo d a b) :=
  Encoded.of rfl (bounded_k _ _ _ _ _ (by omega) (by omega) (by omega))
theorem Encoded.ldone (h : Hdr) (a : Opd) (b : Opd) : Encoded.Statement (.ldone h a b) :=
  Encoded.of rfl (bounded_k _ _ _ _ _ (by omega) (by omega) (by omega))
theorem Encoded.lqry (h : Hdr) (d : Opd) (a : Opd) (b : Opd) : Encoded.Statement (.lqry h d a b) :=
  Encoded.of rfl (bounded_k _ _ _ _ _ (by omega) (by omega) (by omega))
theorem Encoded.kvx (h : Hdr) (d : Opd) (a : Nat) (b : Opd) (c : Opd) : Encoded.Statement (.kvx h d a b c) :=
  Encoded.of rfl (bounded_k _ _ _ _ _ (by omega) (by omega) (by omega))
theorem Encoded.pfxh (h : Hdr) (d : Nat) (a : Nat) (b : Nat) : Encoded.Statement (.pfxh h d a b) :=
  Encoded.of rfl (bounded_n _ (by omega) (by omega) (by omega))
theorem Encoded.pfxm (h : Hdr) (d : Nat) (a : Nat) (b : Nat) : Encoded.Statement (.pfxm h d a b) :=
  Encoded.of rfl (bounded_n _ (by omega) (by omega) (by omega))
theorem Encoded.pfxpPin (h : Hdr) (a : Nat) (b : Nat) : Encoded.Statement (.pfxpPin h a b) :=
  Encoded.of rfl (bounded_n _ (by omega) (by omega) (by omega))
theorem Encoded.pfxpUnpin (h : Hdr) (a : Nat) (b : Nat) : Encoded.Statement (.pfxpUnpin h a b) :=
  Encoded.of rfl (bounded_n _ (by omega) (by omega) (by omega))
theorem Encoded.pfxpInsert (h : Hdr) (a : Nat) (b : Nat) (c : Nat) : Encoded.Statement (.pfxpInsert h a b c) :=
  Encoded.of rfl (bounded_n _ (by omega) (by omega) (by omega))
theorem Encoded.wqpop (h : Hdr) (d : Nat) : Encoded.Statement (.wqpop h d) :=
  Encoded.of rfl (bounded_n _ (by omega) (by omega) (by omega))
theorem Encoded.larr (h : Hdr) (sc : Scope) (d : Nat) (a : Nat) (b : Nat) (c : Nat) : Encoded.Statement (.larr h sc d a b c) := by
  have := scope_lt sc
  exact Encoded.of rfl (bounded_n _ (by omega) (by omega) (by omega))
theorem Encoded.rnext (h : Hdr) (d : Nat) (a : Nat) (b : Nat) : Encoded.Statement (.rnext h d a b) :=
  Encoded.of rfl (bounded_n _ (by omega) (by omega) (by omega))
theorem Encoded.xra (h : Hdr) (op : BitVec 3) (tmo : BitVec 4) (n1 : BitVec 6) (d : Nat) (a : Nat) (b : Nat) (c : Nat) : Encoded.Statement (.xra h op tmo n1 d a b c) :=
  Encoded.of rfl (bounded_n _ (by omega) (by omega) (by omega))
theorem Encoded.xrc (h : Hdr) (a : Nat) (c : Nat) : Encoded.Statement (.xrc h a c) :=
  Encoded.of rfl (bounded_n _ (by omega) (by omega) (by omega))
theorem Encoded.xrw (h : Hdr) (d : Nat) (a : Nat) : Encoded.Statement (.xrw h d a) :=
  Encoded.of rfl (bounded_n _ (by omega) (by omega) (by omega))
theorem Encoded.xrf (h : Hdr) (a : Nat) : Encoded.Statement (.xrf h a) :=
  Encoded.of rfl (bounded_n _ (by omega) (by omega) (by omega))
theorem Encoded.oclm (h : Hdr) (d : Nat) (n : BitVec 7) : Encoded.Statement (.oclm h d n) :=
  Encoded.of rfl (bounded_n _ (by omega) (by omega) (by omega))
theorem Encoded.orel (h : Hdr) (a : Nat) (n : BitVec 7) : Encoded.Statement (.orel h a n) :=
  Encoded.of rfl (bounded_n _ (by omega) (by omega) (by omega))
theorem Encoded.orelRe (h : Hdr) (a : Nat) (n : BitVec 7) : Encoded.Statement (.orelRe h a n) :=
  Encoded.of rfl (bounded_n _ (by omega) (by omega) (by omega))
theorem Encoded.owait (h : Hdr) (a : Nat) (n : BitVec 7) : Encoded.Statement (.owait h a n) :=
  Encoded.of rfl (bounded_n _ (by omega) (by omega) (by omega))
theorem Encoded.mma (h : Hdr) (fmt : BitVec 3) (mx : Bool) (d : Nat) (a : Nat) (b : Nat) : Encoded.Statement (.mma h fmt mx d a b) := by
  have := toNat_lt2 mx
  exact Encoded.of rfl (bounded_n _ (by omega) (by omega) (by omega))
theorem Encoded.mmas (h : Hdr) (pat : BitVec 2) (fmt : BitVec 3) (d : Nat) (a : Nat) (b : Nat) (c : Nat) : Encoded.Statement (.mmas h pat fmt d a b c) :=
  Encoded.of rfl (bounded_n _ (by omega) (by omega) (by omega))
theorem Encoded.mmah (h : Hdr) (pv : Bool) (cnt1 : BitVec 6) (bit : BitVec 8) (hr : BitVec 3) (fmt : BitVec 3) (fill : Bool) (mx : Bool) (d : Nat) (a : Nat) (b : Nat) : Encoded.Statement (.mmah h pv cnt1 bit hr fmt fill mx d a b) := by
  have := toNat_lt2 pv
  have := toNat_lt2 fill
  have := toNat_lt2 mx
  exact Encoded.of rfl (bounded_n _ (by omega) (by omega) (by omega))
theorem Encoded.assay (h : Hdr) (bit : BitVec 8) (hr : BitVec 3) (sink : Bool) (loc : Bool) (cnt1 : BitVec 3) (d : Nat) (a : Nat) (b : Nat) (c : Nat) : Encoded.Statement (.assay h bit hr sink loc cnt1 d a b c) := by
  have := toNat_lt2 sink
  have := toNat_lt2 loc
  exact Encoded.of rfl (bounded_n _ (by omega) (by omega) (by omega))
theorem Encoded.hmopAnd (h : Hdr) (d : Nat) (a : Nat) (b : Nat) : Encoded.Statement (.hmopAnd h d a b) :=
  Encoded.of rfl (bounded_n _ (by omega) (by omega) (by omega))
theorem Encoded.hmopOr (h : Hdr) (d : Nat) (a : Nat) (b : Nat) : Encoded.Statement (.hmopOr h d a b) :=
  Encoded.of rfl (bounded_n _ (by omega) (by omega) (by omega))
theorem Encoded.hmopAndn (h : Hdr) (d : Nat) (a : Nat) (b : Nat) : Encoded.Statement (.hmopAndn h d a b) :=
  Encoded.of rfl (bounded_n _ (by omega) (by omega) (by omega))
theorem Encoded.hmopSet (h : Hdr) (d : Nat) (lo : BitVec 8) (n1 : BitVec 8) : Encoded.Statement (.hmopSet h d lo n1) :=
  Encoded.of rfl (bounded_n _ (by omega) (by omega) (by omega))
theorem Encoded.hmopClear (h : Hdr) (d : Nat) (lo : BitVec 8) (n1 : BitVec 8) : Encoded.Statement (.hmopClear h d lo n1) :=
  Encoded.of rfl (bounded_n _ (by omega) (by omega) (by omega))
theorem Encoded.hmopCount (h : Hdr) (d : Nat) (a : Nat) (lo : BitVec 8) (n1 : BitVec 8) : Encoded.Statement (.hmopCount h d a lo n1) :=
  Encoded.of rfl (bounded_n _ (by omega) (by omega) (by omega))
theorem Encoded.accz (h : Hdr) (a : Nat) (b : Nat) : Encoded.Statement (.accz h a b) :=
  Encoded.of rfl (bounded_n _ (by omega) (by omega) (by omega))
theorem Encoded.accsig (h : Hdr) (a : Nat) (b : Nat) : Encoded.Statement (.accsig h a b) :=
  Encoded.of rfl (bounded_n _ (by omega) (by omega) (by omega))
theorem Encoded.pairNop (sw : Bool) (h1 : Half) : Encoded.Statement (.pairNop sw h1) := Encoded.ofNone rfl
theorem Encoded.pairIadd (sw : Bool) (h0 : HalfArgs) (h1 : Half) : Encoded.Statement (.pairIadd sw h0 h1) := Encoded.ofNone rfl
theorem Encoded.pairIsub (sw : Bool) (h0 : HalfArgs) (h1 : Half) : Encoded.Statement (.pairIsub sw h0 h1) := Encoded.ofNone rfl
theorem Encoded.pairImul (sw : Bool) (h0 : HalfArgs) (h1 : Half) : Encoded.Statement (.pairImul sw h0 h1) := Encoded.ofNone rfl
theorem Encoded.pairImin (sw : Bool) (h0 : HalfArgs) (h1 : Half) : Encoded.Statement (.pairImin sw h0 h1) := Encoded.ofNone rfl
theorem Encoded.pairImax (sw : Bool) (h0 : HalfArgs) (h1 : Half) : Encoded.Statement (.pairImax sw h0 h1) := Encoded.ofNone rfl
theorem Encoded.pairIminN (sw : Bool) (h0 : HalfArgs) (h1 : Half) : Encoded.Statement (.pairIminN sw h0 h1) :=
  Encoded.ofNone rfl
theorem Encoded.pairImaxN (sw : Bool) (h0 : HalfArgs) (h1 : Half) : Encoded.Statement (.pairImaxN sw h0 h1) :=
  Encoded.ofNone rfl
theorem Encoded.pairAnd (sw : Bool) (h0 : HalfArgs) (h1 : Half) : Encoded.Statement (.pairAnd sw h0 h1) := Encoded.ofNone rfl
theorem Encoded.pairOr (sw : Bool) (h0 : HalfArgs) (h1 : Half) : Encoded.Statement (.pairOr sw h0 h1) := Encoded.ofNone rfl
theorem Encoded.pairXor (sw : Bool) (h0 : HalfArgs) (h1 : Half) : Encoded.Statement (.pairXor sw h0 h1) := Encoded.ofNone rfl
theorem Encoded.pairAndn (sw : Bool) (h0 : HalfArgs) (h1 : Half) : Encoded.Statement (.pairAndn sw h0 h1) := Encoded.ofNone rfl
theorem Encoded.pairShl (sw : Bool) (h0 : HalfArgs) (h1 : Half) : Encoded.Statement (.pairShl sw h0 h1) := Encoded.ofNone rfl
theorem Encoded.pairShr (sw : Bool) (h0 : HalfArgs) (h1 : Half) : Encoded.Statement (.pairShr sw h0 h1) := Encoded.ofNone rfl
theorem Encoded.pairSar (sw : Bool) (h0 : HalfArgs) (h1 : Half) : Encoded.Statement (.pairSar sw h0 h1) := Encoded.ofNone rfl
theorem Encoded.pairRot (sw : Bool) (h0 : HalfArgs) (h1 : Half) : Encoded.Statement (.pairRot sw h0 h1) := Encoded.ofNone rfl
theorem Encoded.pairMov (sw : Bool) (h0 : HalfArgs) (h1 : Half) : Encoded.Statement (.pairMov sw h0 h1) := Encoded.ofNone rfl
theorem Encoded.pairFadd (sw : Bool) (h0 : HalfArgs) (h1 : Half) : Encoded.Statement (.pairFadd sw h0 h1) := Encoded.ofNone rfl
theorem Encoded.pairFsub (sw : Bool) (h0 : HalfArgs) (h1 : Half) : Encoded.Statement (.pairFsub sw h0 h1) := Encoded.ofNone rfl
theorem Encoded.pairFmul (sw : Bool) (h0 : HalfArgs) (h1 : Half) : Encoded.Statement (.pairFmul sw h0 h1) := Encoded.ofNone rfl
theorem Encoded.pairFmin (sw : Bool) (h0 : HalfArgs) (h1 : Half) : Encoded.Statement (.pairFmin sw h0 h1) := Encoded.ofNone rfl
theorem Encoded.pairFmax (sw : Bool) (h0 : HalfArgs) (h1 : Half) : Encoded.Statement (.pairFmax sw h0 h1) := Encoded.ofNone rfl
theorem Encoded.pairBadd2 (sw : Bool) (h0 : HalfArgs) (h1 : Half) : Encoded.Statement (.pairBadd2 sw h0 h1) :=
  Encoded.ofNone rfl
theorem Encoded.pairBmul2 (sw : Bool) (h0 : HalfArgs) (h1 : Half) : Encoded.Statement (.pairBmul2 sw h0 h1) :=
  Encoded.ofNone rfl
theorem Encoded.pairBmin2 (sw : Bool) (h0 : HalfArgs) (h1 : Half) : Encoded.Statement (.pairBmin2 sw h0 h1) :=
  Encoded.ofNone rfl
theorem Encoded.pairBmax2 (sw : Bool) (h0 : HalfArgs) (h1 : Half) : Encoded.Statement (.pairBmax2 sw h0 h1) :=
  Encoded.ofNone rfl
theorem Encoded.waitwWake (cl : Nat) (slot : Nat) (id : Nat) : Encoded.Statement (.waitwWake cl slot id) := Encoded.ofNone rfl
theorem Encoded.waitwTimeout (cl : Nat) (slot : Nat) (id : Nat) : Encoded.Statement (.waitwTimeout cl slot id) :=
  Encoded.ofNone rfl
theorem Encoded.longResultWrite (cl : Nat) (slot : Nat) (id : Nat) : Encoded.Statement (.longResultWrite cl slot id) :=
  Encoded.ofNone rfl
theorem Encoded.limitExpiry (cl : Nat) (slot : Nat) (id : Nat) : Encoded.Statement (.limitExpiry cl slot id) :=
  Encoded.ofNone rfl
theorem Encoded.loadReply (cl : Nat) (slot : Nat) (id : Nat) (via : Via) : Encoded.Statement (.loadReply cl slot id via) :=
  Encoded.ofNone rfl
theorem Encoded.storeMemoryCause (cl : Nat) (slot : Nat) (id : Nat) : Encoded.Statement (.storeMemoryCause cl slot id) :=
  Encoded.ofNone rfl
theorem Encoded.ldhWake (cl : Nat) (slot : Nat) (id : Nat) : Encoded.Statement (.ldhWake cl slot id) := Encoded.ofNone rfl
theorem Encoded.sthWake (cl : Nat) (slot : Nat) (id : Nat) : Encoded.Statement (.sthWake cl slot id) := Encoded.ofNone rfl
theorem Encoded.gathElementReply (cl : Nat) (slot : Nat) (id : Nat) (elem : Nat) : Encoded.Statement (.gathElementReply cl slot id elem) :=
  Encoded.ofNone rfl
theorem Encoded.acqWake (cl : Nat) (slot : Nat) (id : Nat) : Encoded.Statement (.acqWake cl slot id) := Encoded.ofNone rfl
theorem Encoded.acqTimeout (cl : Nat) (slot : Nat) (id : Nat) : Encoded.Statement (.acqTimeout cl slot id) := Encoded.ofNone rfl
theorem Encoded.relComplete (cl : Nat) (slot : Nat) (id : Nat) : Encoded.Statement (.relComplete cl slot id) :=
  Encoded.ofNone rfl
theorem Encoded.fenceComplete (cl : Nat) (slot : Nat) (id : Nat) : Encoded.Statement (.fenceComplete cl slot id) :=
  Encoded.ofNone rfl
theorem Encoded.publComplete (cl : Nat) (slot : Nat) (id : Nat) : Encoded.Statement (.publComplete cl slot id) :=
  Encoded.ofNone rfl
theorem Encoded.tarnishExpiry (cl : Nat) (tile : Nat) : Encoded.Statement (.tarnishExpiry cl tile) := Encoded.ofNone rfl
theorem Encoded.tarnishTileMap (ctx : Nat) (obj : Nat) (part : Nat) (clu : Nat) (tile : Nat) : Encoded.Statement (.tarnishTileMap ctx obj part clu tile) :=
  Encoded.ofNone rfl
theorem Encoded.accrdWWake (cl : Nat) (slot : Nat) (id : Nat) : Encoded.Statement (.accrdWWake cl slot id) := Encoded.ofNone rfl
theorem Encoded.lwaitWake (cl : Nat) (slot : Nat) (id : Nat) : Encoded.Statement (.lwaitWake cl slot id) := Encoded.ofNone rfl
theorem Encoded.lwaitTimeout (cl : Nat) (slot : Nat) (id : Nat) : Encoded.Statement (.lwaitTimeout cl slot id) :=
  Encoded.ofNone rfl
theorem Encoded.xrwWake (cl : Nat) (slot : Nat) (id : Nat) : Encoded.Statement (.xrwWake cl slot id) := Encoded.ofNone rfl
theorem Encoded.xraAtHub (src : XrSrc) : Encoded.Statement (.xraAtHub src) := Encoded.ofNone rfl
theorem Encoded.xrcAtHub (src : XrSrc) : Encoded.Statement (.xrcAtHub src) := Encoded.ofNone rfl
theorem Encoded.xrSlotTimeout (slot : Nat) : Encoded.Statement (.xrSlotTimeout slot) := Encoded.ofNone rfl
theorem Encoded.xrRecordWrite (handle : Word) (dev : Nat) (word0 : Word) (missing : Dword) (elems : List Word) : Encoded.Statement (.xrRecordWrite handle dev word0 missing elems) :=
  Encoded.ofNone rfl
theorem Encoded.xrfAtHub (src : XrSrc) : Encoded.Statement (.xrfAtHub src) := Encoded.ofNone rfl
theorem Encoded.xrSlotReclaim (slot : Nat) : Encoded.Statement (.xrSlotReclaim slot) := Encoded.ofNone rfl
theorem Encoded.oclmResult (cl : Nat) (id : Nat) : Encoded.Statement (.oclmResult cl id) := Encoded.ofNone rfl
theorem Encoded.orelAct (cl : Nat) (id : Nat) : Encoded.Statement (.orelAct cl id) := Encoded.ofNone rfl
theorem Encoded.owaitWake (cl : Nat) (id : Nat) : Encoded.Statement (.owaitWake cl id) := Encoded.ofNone rfl
theorem Encoded.anvilOpBegin (cl : Nat) : Encoded.Statement (.anvilOpBegin cl) := Encoded.ofNone rfl
theorem Encoded.anvilOpCommit (cl : Nat) : Encoded.Statement (.anvilOpCommit cl) := Encoded.ofNone rfl
theorem Encoded.mmahTileCommit (cl : Nat) : Encoded.Statement (.mmahTileCommit cl) := Encoded.ofNone rfl
theorem Encoded.warpRetire (cl : Nat) (slot : Nat) : Encoded.Statement (.warpRetire cl slot) := Encoded.ofNone rfl
theorem Encoded.trackerEntryFree (cl : Nat) (entry : Nat) : Encoded.Statement (.trackerEntryFree cl entry) := Encoded.ofNone rfl
theorem Encoded.workgroupComplete (cl : Nat) (entry : Nat) : Encoded.Statement (.workgroupComplete cl entry) :=
  Encoded.ofNone rfl
theorem Encoded.deviceQueueTake (die : Nat) (ctx : Nat) (idx : Option Nat) (place : Option Place) : Encoded.Statement (.deviceQueueTake die ctx idx place) :=
  Encoded.ofNone rfl
theorem Encoded.placementReservation (die : Nat) (idx : Nat) : Encoded.Statement (.placementReservation die idx) :=
  Encoded.ofNone rfl
theorem Encoded.bindRecord (cl : Nat) (entry : Nat) : Encoded.Statement (.bindRecord cl entry) := Encoded.ofNone rfl
theorem Encoded.clusterGate (cl : Nat) : Encoded.Statement (.clusterGate cl) := Encoded.ofNone rfl
theorem Encoded.sliceExpiry (cl : Nat) (entry : Nat) : Encoded.Statement (.sliceExpiry cl entry) := Encoded.ofNone rfl
theorem Encoded.watchdog (cl : Nat) (entry : Nat) : Encoded.Statement (.watchdog cl entry) := Encoded.ofNone rfl
theorem Encoded.preemptRequest (cl : Nat) (entry : Nat) : Encoded.Statement (.preemptRequest cl entry) := Encoded.ofNone rfl
theorem Encoded.preemptSaveComplete (cl : Nat) (entry : Nat) (iobj : Nat) (ioff : Nat) : Encoded.Statement (.preemptSaveComplete cl entry iobj ioff) :=
  Encoded.ofNone rfl
theorem Encoded.faultRecordResolve (ctx : Nat) (die : Nat) (idx : Nat) (act : BitVec 2) : Encoded.Statement (.faultRecordResolve ctx die idx act) :=
  Encoded.ofNone rfl
theorem Encoded.memoryPortTranslate (cl : Nat) (slot : Nat) (id : Nat) : Encoded.Statement (.memoryPortTranslate cl slot id) :=
  Encoded.ofNone rfl
theorem Encoded.tlbSnoop (pa : Nat) (val : Dword) : Encoded.Statement (.tlbSnoop pa val) := Encoded.ofNone rfl
theorem Encoded.descriptorSnoop (ctx : Nat) (obj : Nat) (dw : Nat) (val : Dword) : Encoded.Statement (.descriptorSnoop ctx obj dw val) :=
  Encoded.ofNone rfl
theorem Encoded.migrationRequest (ctx : Nat) (obj : Nat) (page : Nat) (to_ : Home) : Encoded.Statement (.migrationRequest ctx obj page to_) :=
  Encoded.ofNone rfl
theorem Encoded.migrationComplete (ctx : Nat) (obj : Nat) (page : Nat) (pa : Nat) : Encoded.Statement (.migrationComplete ctx obj page pa) :=
  Encoded.ofNone rfl
theorem Encoded.pinWindowExpiry (ctx : Nat) (obj : Nat) (page : Nat) : Encoded.Statement (.pinWindowExpiry ctx obj page) :=
  Encoded.ofNone rfl
theorem Encoded.homeSliceRequest (ctx : Nat) (obj : Nat) (off : Nat) : Encoded.Statement (.homeSliceRequest ctx obj off) :=
  Encoded.ofNone rfl
theorem Encoded.scatUpdateAtSlice (cl : Nat) (slot : Nat) (id : Nat) (elem : Nat) : Encoded.Statement (.scatUpdateAtSlice cl slot id elem) :=
  Encoded.ofNone rfl
theorem Encoded.ownershipRecall (cl : Nat) (ctx : Nat) (obj : Nat) (word : Nat) : Encoded.Statement (.ownershipRecall cl ctx obj word) :=
  Encoded.ofNone rfl
theorem Encoded.peerProbe (cl : Nat) (peer : Nat) (ctx : Nat) (obj : Nat) (sector : Nat) : Encoded.Statement (.peerProbe cl peer ctx obj sector) :=
  Encoded.ofNone rfl
theorem Encoded.tierRead (addr : Nat) : Encoded.Statement (.tierRead addr) := Encoded.ofNone rfl
theorem Encoded.tierWriteback (addr : Nat) (data : List Byte) : Encoded.Statement (.tierWriteback addr data) :=
  Encoded.ofNone rfl
theorem Encoded.sprueFetchStart (die : Nat) : Encoded.Statement (.sprueFetchStart die) := Encoded.ofNone rfl
theorem Encoded.sprueFetchComplete (ctx : Nat) (model : Nat) (layer : Nat) : Encoded.Statement (.sprueFetchComplete ctx model layer) :=
  Encoded.ofNone rfl
theorem Encoded.layerLeaveComplete (ctx : Nat) (model : Nat) (layer : Nat) : Encoded.Statement (.layerLeaveComplete ctx model layer) :=
  Encoded.ofNone rfl
theorem Encoded.cwgo (cl : Nat) (slot : Nat) (run : List Nat) : Encoded.Statement (.cwgo cl slot run) := Encoded.ofNone rfl
theorem Encoded.registerWrite (cl : Nat) (slot : Nat) (word : Nat) (val : Word) : Encoded.Statement (.registerWrite cl slot word val) :=
  Encoded.ofNone rfl
theorem Encoded.chainEntryTake (die : Nat) (eng : Nat) (chain : Nat) : Encoded.Statement (.chainEntryTake die eng chain) :=
  Encoded.ofNone rfl
theorem Encoded.engineNop (die : Nat) (eng : Nat) (src : Nat) : Encoded.Statement (.engineNop die eng src) := Encoded.ofNone rfl
theorem Encoded.engineCopy (die : Nat) (eng : Nat) (src : Nat) : Encoded.Statement (.engineCopy die eng src) :=
  Encoded.ofNone rfl
theorem Encoded.engineFill (die : Nat) (eng : Nat) (src : Nat) : Encoded.Statement (.engineFill die eng src) :=
  Encoded.ofNone rfl
theorem Encoded.engineStash (die : Nat) (eng : Nat) (src : Nat) : Encoded.Statement (.engineStash die eng src) :=
  Encoded.ofNone rfl
theorem Encoded.engineSlot (die : Nat) (eng : Nat) (src : Nat) : Encoded.Statement (.engineSlot die eng src) :=
  Encoded.ofNone rfl
theorem Encoded.engineLaunch (die : Nat) (eng : Nat) (src : Nat) : Encoded.Statement (.engineLaunch die eng src) :=
  Encoded.ofNone rfl
theorem Encoded.engineWait (die : Nat) (eng : Nat) (src : Nat) : Encoded.Statement (.engineWait die eng src) :=
  Encoded.ofNone rfl
theorem Encoded.engineWaitWake (die : Nat) (eng : Nat) (src : Nat) : Encoded.Statement (.engineWaitWake die eng src) :=
  Encoded.ofNone rfl
theorem Encoded.engineCommandComplete (die : Nat) (eng : Nat) (src : Nat) : Encoded.Statement (.engineCommandComplete die eng src) :=
  Encoded.ofNone rfl
theorem Encoded.portTrain (p : Nat) (dev : Nat) (pod : Nat) : Encoded.Statement (.portTrain p dev pod) := Encoded.ofNone rfl
theorem Encoded.flitReplay (p : Nat) : Encoded.Statement (.flitReplay p) := Encoded.ofNone rfl
theorem Encoded.portRetrain (p : Nat) : Encoded.Statement (.portRetrain p) := Encoded.ofNone rfl
theorem Encoded.retrainComplete (p : Nat) (failed : List Nat) : Encoded.Statement (.retrainComplete p failed) :=
  Encoded.ofNone rfl
theorem Encoded.portDown (p : Nat) : Encoded.Statement (.portDown p) := Encoded.ofNone rfl
theorem Encoded.remoteRequest (peer : Nat) (space : PeerSpace) (obj : Nat) (off : Nat) (acc : OutAcc) : Encoded.Statement (.remoteRequest peer space obj off acc) :=
  Encoded.ofNone rfl
theorem Encoded.hostAccess (ctx : Nat) (obj : Nat) (off : Nat) (acc : OutAcc) : Encoded.Statement (.hostAccess ctx obj off acc) :=
  Encoded.ofNone rfl
theorem Encoded.clockRatioChange (cl : Nat) (m : Nat) (boost : Option Bool) : Encoded.Statement (.clockRatioChange cl m boost) :=
  Encoded.ofNone rfl
theorem Encoded.handshakeEnd (cl : Nat) : Encoded.Statement (.handshakeEnd cl) := Encoded.ofNone rfl
theorem Encoded.droopDetect (cl : Nat) : Encoded.Statement (.droopDetect cl) := Encoded.ofNone rfl
theorem Encoded.droopRelease (cl : Nat) : Encoded.Statement (.droopRelease cl) := Encoded.ofNone rfl
theorem Encoded.throttleSet (die : Nat) (thr : Nat) (tw : Nat) : Encoded.Statement (.throttleSet die thr tw) :=
  Encoded.ofNone rfl
theorem Encoded.partRetire (p : Part) : Encoded.Statement (.partRetire p) := Encoded.ofNone rfl
theorem Encoded.lifetimeRecordWrite : Encoded.Statement .lifetimeRecordWrite := Encoded.ofNone rfl
theorem Encoded.tarnishRetentionMeasure (at_ : TileAt) (ticks : Nat) : Encoded.Statement (.tarnishRetentionMeasure at_ ticks) :=
  Encoded.ofNone rfl
theorem Encoded.attestationRequest (nonce : List Byte) : Encoded.Statement (.attestationRequest nonce) := Encoded.ofNone rfl
theorem Encoded.counterRead (unit : Nat) (c : Ctr) : Encoded.Statement (.counterRead unit c) := Encoded.ofNone rfl
theorem Encoded.counterReadClear (unit : Nat) (c : Ctr) : Encoded.Statement (.counterReadClear unit c) := Encoded.ofNone rfl
theorem Encoded.poolCapacitySet (pool : Nat) (bytes : Nat) : Encoded.Statement (.poolCapacitySet pool bytes) :=
  Encoded.ofNone rfl
theorem Encoded.contextCreate (num : Nat) (table : Nat) (models : Nat) (binds : Nat) (kv : Nat) (fault0 : Nat) (fault1 : Nat) : Encoded.Statement (.contextCreate num table models binds kv fault0 fault1) :=
  Encoded.ofNone rfl
theorem Encoded.contextEnd (num : Nat) : Encoded.Statement (.contextEnd num) := Encoded.ofNone rfl
theorem Encoded.reset : Encoded.Statement .reset := Encoded.ofNone rfl
theorem Encoded.schedulingCoreFailure (die : Nat) : Encoded.Statement (.schedulingCoreFailure die) := Encoded.ofNone rfl
theorem Encoded.lossOfPower : Encoded.Statement .lossOfPower := Encoded.ofNone rfl
theorem Encoded.chainAttach (die : Nat) (eng : Nat) (ctx : Nat) (obj : Nat) (off : Nat) : Encoded.Statement (.chainAttach die eng ctx obj off) :=
  Encoded.ofNone rfl

end Sys2Proof.Laws
end

