-- ==== Sys2Proof/Laws/Words.lean ====
section
/-! SUPPORT. What follows of a word whose lanes do, where they meet no cause, what a claim says of them. -/

namespace Sys2Proof.Machine

theorem perLane_pass (q : WordClaim) (f : State → Nat → LaneOut)
    (hf : ∀ y t, q.cause y t [t] = none → f y t = .ok (q.eff y t [t])) :
    ∀ (l : List Nat) (s : State), q.pass s l = true → perLane f s l = (l.foldl (fun y t => q.eff y t [t]) s, []) := by
  suffices H : ∀ (p : BitVec 40) (l : List Nat) (s : State), q.pass s l = true →
      l.foldl (fun (a : State × List Hit) t => match f a.1 t with
        | .ok s' => (s', a.2)
        | .hit cause addr s' => (s', a.2 ++ [{ t := t, cause := cause, addr := addr, pc := p }])) (s, []) =
      (l.foldl (fun y t => q.eff y t [t]) s, []) from fun l s h => H s.cur.pc l s h
  intro p l
  induction l with
  | nil => intro s _; rfl
  | cons t r ih =>
    intro s h
    simp only [WordClaim.pass, Bool.and_eq_true, Option.isNone_iff_eq_none] at h
    simp only [List.foldl_cons, hf s t h.1]
    exact ih _ h.2

/-- The lanes of a word that meet no cause. -/
theorem WordClaim.lanes_ok (q : WordClaim) (f : State → Nat → List Nat → LaneOut)
    (hf : ∀ y t ts, q.cause y t ts = none → f y t ts = .ok (q.eff y t ts)) (s : State) (l : List Nat) (h : q.passes s l = true) :
    lanes q.x.once f s l = (q.perform s l, []) := by
  unfold lanes
  unfold WordClaim.passes at h
  unfold WordClaim.perform
  split at h
  · rename_i ho
    rw [if_pos ho, if_pos ho]
    cases l with
    | nil => rfl
    | cons t r => simp [perRun, hf _ _ _ (Option.isNone_iff_eq_none.mp h)]
  · rename_i ho
    rw [if_neg ho, if_neg ho]
    exact perLane_pass q _ (fun y t hc => hf y t [t] hc) l s h

/-- A word whose lanes do what the claim says completes as the claim says. -/
theorem WordClaim.sound (q : WordClaim) (f : State → Nat → List Nat → LaneOut)
    (hf : ∀ y t ts, q.cause y t ts = none → f y t ts = .ok (q.eff y t ts)) {s : State} (h : q.Runs s) :
    issue s q.x (lanes q.x.once f) = q.after s := by
  have hl := q.lanes_ok f hf _ _ h.2
  rw [issue_quiet _ h.1 (by rw [hl]), hl]
  rfl

/-- The same for a word that acts on its active threads together. -/
theorem RunClaim.sound (q : RunClaim) (body : State → List Nat → State × List Hit)
    (hb : ∀ y ts, q.ok y ts = true → body y ts = (q.eff y ts, [])) {s : State} (h : q.Runs s) :
    issue s q.x body = q.after s := by
  have hl := hb _ _ h.2
  rw [issue_quiet _ h.1 (by rw [hl]), hl]
  rfl

end Sys2Proof.Machine
end

