-- ==== Sys2Proof/Tests/Slice0.lean ====
section
/-! SUPPORT. Own tests: words that the manual writes out, terms that WellFormed refuses, single steps with results of the
manual's examples, and for each statement with hypotheses a state and operands that meet them. -/

namespace Sys2Proof.Tests
open Sys2Proof.Machine

/-! ### Decoding: words from the manual (chapters 3 to 17 and 20) -/

theorem test_word_iset : decode .bench 0x0B880001000A0800 = .ok (.iset ⟨false, .em⟩ .lt none (.v 1) (.imm 10 false)) := by decide
theorem test_word_ffma : decode .bench 0x10C4050102030000 = .ok (.ffma ⟨false, .em⟩ .rz (.v 5) (.v 1) (.v 2) (.v 3)) := by decide
theorem test_word_rota : decode .bench 0x14C0050802004000 = .ok (.rota ⟨false, .em⟩ (.v 5) (.k 8) (.v 2)) := by decide
theorem test_word_pswp : decode .bench 0x18440B0800000000 = .ok (.pswp ⟨false, .em⟩ .lo (.v 11) (.v 8)) := by decide
theorem test_word_ld : decode .bench 0x9C10020200084FA1 = .ok (.ld ⟨true, .em⟩ 2 15 5 1 (.v 2) (.k 2) (.v 0) (.v 8)) := by decide
theorem test_word_st : decode .bench 0x1C90000600034001 = .ok (.st ⟨false, .em⟩ 2 false false 1 (.k 6) (.v 0) (.v 3)) := by decide
theorem test_word_stk : decode .bench 0x1CC0001E29287000 = .ok (.stk ⟨false, .em⟩ 0 none false false 0 (.k 30) (.k 41) (.k 40)) := by
  decide
theorem test_word_ldhWfe : decode .bench 0x1D08051800004200 = .ok (.ldhWfe ⟨false, .em⟩ 2 0 (.v 5) (.k 24) (.v 0)) := by decide
theorem test_word_acq : decode .bench 0x24C0000409006018 = .ok (.acq ⟨false, .em⟩ 0 .dev 4 9) := by decide
theorem test_word_atAdd : decode .bench 0xA40011021010F080 = .ok (.atAdd ⟨true, .em⟩ .wg 2 0 (.k 17) (.k 2) (.k 16) (.k 16)) := by decide
theorem test_word_tinit : decode .bench 0x2901000200006000 = .ok (.tinit ⟨false, .cm⟩ 0 (.k 2) (.k 0)) := by decide
theorem test_word_life : decode .bench 0xA8C017021500E000 = .ok (.life ⟨true, .em⟩ 0 (.k 23) (.k 2) (.k 21)) := by decide
theorem test_word_ofill :
    decode .bench 0x2C0014281406D802 = .ok (.ofill ⟨false, .em⟩ true false false 2 20 (.k 40) (.v 20) (.k 6)) := by decide
theorem test_word_awset : decode .bench 0x2C41000012006000 = .ok (.awset ⟨false, .cm⟩ 0 0 18) := by decide
theorem test_word_accrdW : decode .bench 0x2C84182C10004000 = .ok (.accrdW ⟨false, .em⟩ (.v 24) (.k 44) (.v 16)) := by decide
theorem test_word_mmah :
    decode .acc 0x3D401A1617830004 = .ok (.mmah ⟨false, .em⟩ true 3 0 0 1 false false 26 22 23) := by decide
theorem test_word_assay :
    decode .acc 0xBD8019131518001B = .ok (.assay ⟨true, .em⟩ 0 0 true true 3 25 19 21 24) := by decide
theorem test_word_lwait : decode .bench 0xB00018081300ED00 = .ok (.lwait ⟨true, .em⟩ 13 (.k 24) (.k 8) (.k 19)) := by decide
theorem test_word_kvx : decode .bench 0xB0C0141E05285000 = .ok (.kvx ⟨true, .em⟩ (.v 20) 30 (.v 5) (.k 40)) := by decide
theorem test_word_pfxpInsert : decode .bench 0xB188000820267000 = .ok (.pfxpInsert ⟨true, .em⟩ 8 32 38) := by decide
theorem test_word_larr : decode .bench 0xB200292A2C2EF018 = .ok (.larr ⟨true, .em⟩ .dev 41 42 44 46) := by decide
theorem test_word_xra : decode .bench 0xB40010060804C800 = .ok (.xra ⟨true, .em⟩ 4 12 0 16 6 8 4) := by decide
/-- A NOP half with a field that is not 0 is ILLEGAL (R48), in either half. -/
theorem test_word_nop_half :
    decode .bench 0x4004000000000000 = .error .bits ∧ decode .bench 0x4000000000020000 = .error .operands := by decide
/-- The guard value 0b11 is ILLEGAL (R46), and so is a reserved major (R58). -/
theorem test_word_refused :
    decode .bench 0x0803000000000000 = .error .guard ∧ decode .bench 0x3FC0000000000000 = .error .noInstruction := by decide
theorem test_table_word : decodeTableWord 64 0x880109090C002000 = some (.iadd ⟨true, .cm⟩ (.v 9) (.v 9) (.k 12)) := by decide

/-! ### WellFormed refuses each ill-formed term -/

theorem test_wf_register : wf .bench (.iadd ⟨false, .em⟩ (.k 64) (.v 0) (.v 0)) = false ∧
    wf .bench (.iadd ⟨false, .em⟩ (.v 512) (.v 0) (.v 0)) = false ∧ wf .bench (.iadd ⟨false, .em⟩ (.g 1) (.v 0) (.v 0)) = false ∧
    wf .acc (.iadd ⟨false, .em⟩ (.g 32) (.g 0) (.g 0)) = false ∧ wf .bench (.iadd ⟨false, .em⟩ (.imm 0 false) (.v 0) (.v 0)) = false := by
  decide
theorem test_wf_one_index : wf .bench (.iadd ⟨false, .em⟩ (.vx 0) (.vx 1) (.v 0)) = false ∧
    wf .bench (.imad ⟨false, .em⟩ (.v 0) (.v 1) (.v 2) (.vx 3)) = false := by decide
theorem test_wf_immediate : wf .bench (.imad ⟨false, .em⟩ (.v 0) (.v 1) (.imm 1 false) (.v 2)) = false ∧
    wf .bench (.fadd ⟨false, .em⟩ .rn (.v 0) (.v 1) (.imm 1 false)) = false := by decide
theorem test_wf_even : wf .bench (.cadd ⟨false, .em⟩ (.v 1) (.v 2) (.v 4)) = false ∧
    wf .bench (.rdsr ⟨false, .em⟩ (.v 1) .tpc) = false ∧ wf .bench (.ftwos ⟨false, .em⟩ (.v 1) (.v 2) (.v 4)) = false := by decide
theorem test_wf_capability : wf .bench (.st ⟨false, .em⟩ 0 false false 0 (.k 3) (.v 0) (.v 1)) = false ∧
    wf .bench (.smap ⟨false, .em⟩ 0 3 4 5) = false := by decide
theorem test_wf_unit : wf .acc (.fadd ⟨false, .em⟩ .rn (.g 0) (.g 1) (.g 2)) = false ∧ wf .bench (.accz ⟨false, .em⟩ 1 2) = false ∧
    wf .acc (.join ⟨false, .em⟩ false) = false ∧ wf .acc (.brc ⟨false, .em⟩ false true 0) = false := by decide
theorem test_wf_special : wf .bench (.wrsr ⟨false, .em⟩ .tb (.k 2)) = false ∧ wf .bench (.wrsr ⟨false, .em⟩ .pt (.v 2)) = false ∧
    wf .bench (.rdsr ⟨false, .em⟩ (.k 2) .tlanes) = false ∧ wf .acc (.rdsr ⟨false, .em⟩ (.g 2) .em) = false := by decide
theorem test_wf_size : wf .bench (.part ⟨false, .em⟩ 0) = false ∧ wf .bench (.part ⟨false, .em⟩ 6) = false := by decide
theorem test_wf_tag : wf .bench (.movi ⟨false, .em⟩ (.v 0) 3 0) = false ∧ wf .bench (.retag ⟨false, .em⟩ 3 (.v 0) (.v 1)) = false := by
  decide
theorem test_wf_timeout : wf .bench (.waitw ⟨false, .em⟩ .eq (.v 0) (.k 2) (.v 1) (.v 2) 15 0 .dev) = false ∧
    wf .bench (.acq ⟨false, .em⟩ 15 .dev 4 9) = false := by decide
theorem test_wf_limit : wf .bench (.ld ⟨false, .em⟩ 0 0 1 0 (.v 0) (.k 2) (.v 1) .none) = false ∧
    wf .bench (.ld ⟨false, .em⟩ 0 1 6 0 (.v 0) (.k 2) (.v 1) .none) = false ∧
    wf .bench (.ld ⟨false, .em⟩ 0 15 0 0 (.v 0) (.k 2) (.v 1) .none) = false ∧
    wf .bench (.ld ⟨false, .em⟩ 0 1 0 3 (.v 0) (.k 2) (.v 1) .none) = false := by decide
theorem test_wf_conversion : wf .bench (.ldStrong ⟨false, .em⟩ 0 .dev 17 (.v 0) (.k 2) (.v 1)) = false ∧
    wf .bench (.st ⟨false, .em⟩ 0 false false 16 (.k 2) (.v 1) (.v 2)) = false ∧
    wf .bench (.st ⟨false, .em⟩ 0 false true 0 (.k 2) (.v 1) (.v 2)) = false ∧
    wf .bench (.ldh ⟨false, .em⟩ 0 4 (.v 0) (.k 2) (.v 1)) = false ∧ wf .bench (.tld ⟨false, .em⟩ 0 3 (.v 0) (.k 2) (.v 1)) = false := by
  decide
theorem test_wf_lanes : wf .bench (.shflIdx ⟨false, .em⟩ (.k 1) (.v 1) (.v 2)) = false ∧
    wf .bench (.voteAny ⟨false, .em⟩ false (.v 1) (.k 1)) = false ∧ wf .bench (.rdln ⟨false, .em⟩ false (.k 1)) = false ∧
    wf .bench (.call ⟨false, .em⟩ (.k 1) 0) = false := by decide
theorem test_wf_atomic : wf .bench (.atAnd ⟨false, .em⟩ .dev 0 2 (.v 0) (.k 2) (.v 1) (.v 2)) = false ∧
    wf .bench (.atMin ⟨false, .em⟩ .dev 0 3 (.v 0) (.k 2) (.v 1) (.v 2)) = false ∧
    wf .bench (.atCas ⟨false, .em⟩ .dev 0 3 (.v 0) (.k 2) (.v 1) (.v 2)) = false ∧
    wf .bench (.redAdd ⟨false, .em⟩ .dev 0 3 (.k 2) (.v 1) (.v 3)) = false := by decide
theorem test_wf_scalar : wf .bench (.ldk ⟨false, .em⟩ 0 (.strong .dev) 0 (.k 1) (.k 2) (.k 4) (.k 5)) = false ∧
    wf .bench (.ldk ⟨false, .em⟩ 0 (.weak 1 3) 0 (.k 1) (.k 2) (.k 4) .none) = false ∧
    wf .bench (.stk ⟨false, .em⟩ 0 none false false 0 (.k 2) (.v 1) (.k 5)) = false ∧
    wf .bench (.life ⟨false, .em⟩ 0 (.k 1) (.k 2) (.v 3)) = false ∧ wf .bench (.pft ⟨false, .em⟩ 0 15 0 false (.k 2) (.v 1)) = false := by
  decide
theorem test_wf_anvil : wf .acc (.oclm ⟨false, .em⟩ 1 0) = false ∧ wf .acc (.mma ⟨false, .em⟩ 7 false 1 2 3) = false ∧
    wf .acc (.mma ⟨false, .em⟩ 0 true 1 2 3) = false ∧ wf .acc (.mmas ⟨false, .em⟩ 3 0 1 2 3 4) = false ∧
    wf .acc (.mmah ⟨false, .em⟩ true 0 0 0 1 true false 1 2 3) = false ∧
    wf .acc (.assay ⟨false, .em⟩ 255 0 false false 1 1 2 3 4) = false ∧ wf .acc (.hmopSet ⟨false, .em⟩ 8 0 0) = false ∧
    wf .bench (.xra ⟨false, .em⟩ 5 0 0 1 2 4 6) = false := by decide
/-- The bank rule and the read-after rule (R47), and a floating half on the control core (R59). -/
theorem test_wf_pair :
    wf .bench (.pairIadd false ⟨false, 4, .imm 1⟩ ⟨.shl, ⟨false, 8, .v 6⟩⟩) = false ∧
    wf .bench (.pairIadd false ⟨false, 4, .imm 1⟩ ⟨.shl, ⟨false, 5, .v 4⟩⟩) = false ∧
    wf .acc (.pairFadd false ⟨true, 4, .g 1⟩ ⟨.nop, HalfArgs.none .acc⟩) = false := by decide
theorem test_wf_event : wf .bench (.tarnishExpiry 0 0) = false := by decide

/-! ### Values from the manual's examples -/

/-- BFX.i with a = 0x8000_0000 and P = #28:8 (R75). -/
theorem test_bfx : bfxW true 0x80000000 (28 + 8 * 256) = 0xFFFFFFF8 := by decide
/-- Little-endian (R8): the byte at the lowest address holds bits 7 to 0. -/
theorem test_little_endian : leBytes 8 0x880109090C002000 = [0x00, 0x20, 0x00, 0x0C, 0x09, 0x09, 0x01, 0x88] := by decide
/-- FP32 1.0 + 1.0, and the exact half of the smallest subnormal to even (R134). -/
theorem test_fp32 : (fp32.finish .rn (addX .rn (f32 0x3F800000) (f32 0x3F800000))).1 = 0x40000000 ∧
    (fp32.finish .rn (.fin false 1 (-150))).1 = 0 := by decide

/-! ### A small machine -/

set_option maxRecDepth 16000

/-- One warp at slot 0 of cluster 0, whose thread 0 is at a word at 0; v1 and v2 are raw, v3 is FP32 1.0. -/
def warp1 : Warp :=
  { alloc := 32, em := 1, threads := [(0, { st := .ready })]
    v := [(32, { data := 3, tag := 0 }), (64, { data := 10, tag := 0 }), (96, { data := 0x3F800000, tag := 1 }), (128, { data := 0, tag := 0 }),
          (160, { data := 0, tag := 0 })]
    k := [(2, { data := 0, tag := 0 }), (3, { data := 0x2F0, tag := 0 }), (4, { data := 0, tag := 0 }), (5, { data := 7, tag := 0 }),
          (6, { data := 64, tag := 0 }), (7, { data := 0x10000, tag := 0 }), (8, { data := 0, tag := 0 }), (9, { data := 0x4F0, tag := 0 })] }
/-- Object 2: data, all rights, 4 KiB at PA 0x30000 (R161, R162); object 4: tarnish on die 0 (R248). -/
def mem1 : List Host.Cell :=
  let m := memPutBytes (memPutBytes [] 0x10040 (leBytes 8 (2 ^ 63 + 15 * 2 ^ 56 + 4096))) 0x10048 (leBytes 8 0x20000)
  memPutBytes (memPutBytes m 0x10080 (leBytes 8 (2 ^ 63 + 2 ^ 60 + 15 * 2 ^ 56 + 2 ^ 51 + 4096))) 0x20000 (leBytes 8 (2 ^ 63 + 0x30000))
def machine (w : Warp) : State :=
  { tick := 100, boot := 8, mem := mem1, ctxs := [(1, { table := 0x10000 })]
    clusters := [(0, { slots := [(0, { v := true, st := 1 })], warps := [(0, w)]
                       wgs := [(0, { ctx := 1, cobj := 1, threads := 1, warps := 1, alloc := 32, ae := true, stn := 1 })]
                       ops := [(0, { st := .claimed, gen := 1 })] })]
    cur := { cl := 0, slot := 0, run := [0] } }
/-- The control-core stream in its place. -/
def stream1 : Warp := { unit := .acc, alloc := 256, em := 1, threads := [(0, { st := .ready })], k := [(1, { data := 0x10000 }), (2, { data := 0x10001 })] }
def coreMachine : State :=
  { tick := 100, boot := 8, ctxs := [(1, {})]
    clusters := [(0, { slots := [(0, { v := true, st := 1 })], warps := [(Config.coreSlot, stream1)]
                       wgs := [(0, { ctx := 1, threads := 1, warps := 1, ae := true })]
                       ops := [(0, { st := .full, gen := 1 }), (1, { st := .full, gen := 1 })] })]
    cur := { cl := 0, slot := Config.coreSlot, run := [0] } }
def pc0 (w : Warp) : Nat := (w.thread 0).pc.toNat

/-! ### Single steps -/

/-- What a step shows, as a test of a next state. -/
def shows (o : Host.Outcome State Fault Refusal) (f : State → Bool) : Bool := match o with
  | .next t => f t
  | _ => false

theorem test_iadd : shows (exec (.iadd ⟨false, .em⟩ (.v 1) (.v 1) (.v 2)) (machine warp1)) (fun t =>
    t.me.getV 0 1 == { data := 13, tag := 0 } && pc0 t.me == 8) = true := by decide
theorem test_uninit : shows (exec (.iadd ⟨false, .em⟩ (.v 1) (.v 1) (.v 9)) (machine { warp1 with tvec := 0x101 })) (fun t =>
    (t.me.thread 0).tcause == 0x80000005 && (t.me.thread 0).taddr == 2 && pc0 t.me == 0x100) = true := by decide
/-- TRAP #7 at 0x340, then TRET.resume continues at 0x348 (R90). -/
theorem test_trap : shows (exec (.trap ⟨false, .em⟩ 7) { (machine { warp1 with tvec := 1 }) with cur := { run := [0], pc := 0x340 } })
    (fun t => (t.me.thread 0).tcause == 0x80000030 && (t.me.thread 0).taddr == 7 && (t.me.thread 0).tpc == 0x340) = true := by decide
theorem test_tret : shows (exec (.tretResume ⟨false, .em⟩)
    (machine { warp1 with threads := [(0, { st := .ready, tpc := 0x340, tcause := 0x80000030 })] }))
    (fun t => pc0 t.me == 0x348 && (t.me.thread 0).tcause == 0x30) = true := by decide
/-- A store issues as a request for the bytes of its lane (R20, R100). -/
theorem test_store : shows (exec (.st ⟨false, .em⟩ 0 false false 0 (.k 2) (.k 6) (.v 2)) (machine warp1)) (fun t =>
    t.mem == mem1 && t.me.reqs.map (fun r => (r.obj, r.off, r.size, r.op)) == [(2, 64, 4, .store [10, 0, 0, 0])]) = true := by decide
/-- A store of 10 to byte 64 of object 2 stands as a request. -/
def storeMachine (obj : Nat) (sc : Option Scope) : State := machine { warp1 with
  nextId := 1, reqs := [{ id := 0, t := 0, threads := [0], obj := obj, off := 64, size := 4, strong := sc, op := .store [10, 0, 0, 0] }] }
/-- A weak store leaves the word in the L1, and memory as it was; cluster 1, which owned the word, does so no longer (R169). -/
theorem test_store_performed : shows (exec (.memoryPortTranslate 0 0 0) ((storeMachine 2 none).modCluster 1 fun x =>
    { x with l1 := [(wordKey 1 2 16, { data := 5, own := true })] })) (fun t => t.mem == mem1 && (t.cluster 1).l1 == [] &&
      (Tab.get {} (t.cluster 0).l1 (wordKey 1 2 16)).data == 10 && (t.warp 0 0).reqs == []) = true := by decide
/-- A strong store at `.dev` reaches memory at the place of object 2 (R162, R190). -/
theorem test_strong_store : shows (exec (.memoryPortTranslate 0 0 0) (storeMachine 2 (some .dev)))
    (fun t => memGet t.mem 0x30040 == 10) = true := by decide
/-- MOVI v5, #7 placed for the next step is what the step runs (R79). -/
theorem test_step : shows (step (State.reset.withFetchWord 64 0x0C04050000000007)) (fun t =>
    (t.warp 0 0).getV 0 5 == { data := 7, tag := 0 } && pc0 (t.warp 0 0) == 8) = true := by decide

/-! ### The statements' hypotheses can be met -/

theorem witness_clear (x : Shape) (s : State) (h1 : decodeCause s x = none) (h2 : s.me.portThreads s.cur.run x = [])
    (h3 : (s.cur.run.all fun t => (s.me.due x t).isNone && !s.me.guardPlated x.h t) = true) : s.Clear x where
  decode := h1
  port := h2
  due := fun t ht => by
    have h := List.all_eq_true.mp h3 t ht
    simp only [Bool.and_eq_true, Option.isNone_iff_eq_none] at h
    exact h.1
  guess := fun t ht => by
    have h := List.all_eq_true.mp h3 t ht
    simp only [Bool.and_eq_true, Bool.not_eq_true'] at h
    exact h.2

theorem test_witness_IntegerWords : ∃ i s q, integerClaim i = some q ∧ q.Runs s :=
  ⟨.iadd ⟨false, .em⟩ (.v 1) (.v 1) (.v 2), machine warp1, _, rfl, witness_clear _ _ (by decide) (by decide) (by decide), by decide⟩
theorem test_witness_FloatWords : ∃ i s q, floatClaim i = some q ∧ q.Runs s :=
  ⟨.fadd ⟨false, .em⟩ .rn (.v 1) (.v 3) (.v 3), machine warp1, _, rfl, witness_clear _ _ (by decide) (by decide) (by decide), by decide⟩
theorem test_witness_ConditionAndMoveWords : ∃ i s q, moveClaim i = some q ∧ q.Runs s :=
  ⟨.iaddc ⟨false, .em⟩ (.v 1) (.v 1) (.v 2), machine warp1, _, rfl, witness_clear _ _ (by decide) (by decide) (by decide), by decide⟩
theorem test_witness_PairWords : ∃ i s q, pairClaim i = some q ∧ q.Runs s :=
  ⟨.pairIadd false ⟨false, 4, .imm 1⟩ ⟨.shl, ⟨false, 5, .v 1⟩⟩, machine warp1, _, rfl,
    witness_clear _ _ (by decide) (by decide) (by decide), by decide⟩
theorem test_witness_CrossLaneWords : ∃ i s q, crossClaim i = some q ∧ q.Runs s :=
  ⟨.reduxAddI32 ⟨false, .em⟩ (.v 4) (.v 1), machine warp1, _, rfl, witness_clear _ _ (by decide) (by decide) (by decide), by decide⟩
theorem test_witness_ControlWords : ∃ i s q, controlClaim s i = some q ∧ q.Runs s :=
  ⟨.call ⟨false, .em⟩ (.v 1) 4, machine warp1, _, rfl, witness_clear _ _ (by decide) (by decide) (by decide), by decide⟩
theorem test_witness_SpecialAndPlateWords : ∃ i s q, (specialClaim s i <|> plateClaim i) = some q ∧ q.Runs s :=
  ⟨.rdsr ⟨false, .em⟩ (.k 8) .st, machine warp1, _, rfl, witness_clear _ _ (by decide) (by decide) (by decide), by decide⟩
theorem test_witness_SpecialAndPlateWords_plate : ∃ i s q, (specialClaim s i <|> plateClaim i) = some q ∧ q.Runs s :=
  ⟨.cmk ⟨false, .em⟩ (.v 4) (.v 1), machine warp1, _, rfl, witness_clear _ _ (by decide) (by decide) (by decide), by decide⟩
theorem test_witness_RunWords : ∃ i s q, runClaim s i = some q ∧ q.Runs s :=
  ⟨.exit ⟨false, .em⟩, machine warp1, _, rfl, witness_clear _ _ (by decide) (by decide) (by decide), by decide⟩
theorem test_witness_MemoryWords : ∃ i s q, memoryClaim s i = some q ∧ q.Runs s :=
  ⟨.st ⟨false, .em⟩ 0 false false 0 (.k 2) (.k 6) (.v 2), machine warp1, _, rfl, witness_clear _ _ (by decide) (by decide) (by decide), by decide⟩
/-- A REP at 0 before an IADD. -/
def repMachine : State :=
  let s := State.reset.withFetchWord 64 0x0040000000000003
  { s with mem := memPutBytes s.mem (progCode + 8) (leBytes 8 0x0800010101000000), cur := { run := [0] } }
theorem test_witness_RepWord : ∃ (s : State) (cnt : BitVec 6), repCheck s 0 0 0 0 = .ok ∧
    ∀ t ∈ s.cur.run, (s.me.thread t).repc.toNat ≤ cnt.toNat + 1 ∧ s.me.due { h := { sw := true, g := .em } } t = none ∧
      (true = true → s.me.pending t = false ∧ s.me.heldAtPort t = false ∧ s.me.owed t = false) :=
  ⟨repMachine, 3, by decide, by decide⟩
theorem test_witness_StashWords : ∃ i s q, stashClaim s i = some q ∧ q.Runs s :=
  ⟨.sflush ⟨false, .em⟩ 0, machine warp1, _, rfl, witness_clear _ _ (by decide) (by decide) (by decide), by decide⟩
theorem test_witness_AtomicWords : ∃ i s q, atomicClaim s i = some q ∧ q.Runs s :=
  ⟨.atAdd ⟨false, .em⟩ .dev 0 0 (.v 4) (.k 2) (.k 6) (.v 2), machine warp1, _, rfl, witness_clear _ _ (by decide) (by decide) (by decide), by decide⟩
theorem test_witness_SyncWords : ∃ i s q, s.turnOf q.x i = some s ∧ syncClaim s i = some q ∧ q.Runs s :=
  ⟨.waitw ⟨false, .em⟩ .eq (.v 4) (.k 2) (.k 6) (.v 2) 1 0 .dev, machine warp1, _, rfl, rfl, witness_clear _ _ (by decide) (by decide) (by decide), by decide⟩
theorem test_witness_TarnishWords : ∃ i s q, tarnishClaim s i = some q ∧ q.Runs s :=
  ⟨.tinit ⟨false, .em⟩ 0 (.k 8) (.k 4), machine warp1, _, rfl, witness_clear _ _ (by decide) (by decide) (by decide), by decide⟩
theorem test_witness_BenchAnvilWords : ∃ i s q, s.myWg.ae = true ∧ s.turnOf q.x i = some s ∧ anvilBenchClaim s i = some q ∧ q.Runs s :=
  ⟨.awset ⟨false, .em⟩ 0 4 6, machine warp1, _, rfl, rfl, rfl, witness_clear _ _ (by decide) (by decide) (by decide), by decide⟩
theorem test_witness_BenchAnvilWords_fill : ∃ i s q, s.myWg.ae = true ∧ s.turnOf q.x i = some s ∧ anvilFillClaim s i = some q ∧ q.Runs s :=
  ⟨.ofill ⟨false, .em⟩ false false false 0 7 (.k 4) (.k 4) (.k 5), machine warp1, _, rfl, rfl, rfl,
    witness_clear _ _ (by decide) (by decide) (by decide), by decide⟩
theorem test_witness_ControlCoreWords : ∃ i s q, s.turnOf q.x i = some s ∧ coreClaim s i = some q ∧ q.Runs s :=
  ⟨.mma ⟨false, .em⟩ 0 false 0 1 2, coreMachine, _, rfl, rfl, witness_clear _ _ (by decide) (by decide) (by decide), by decide⟩
/-- The queue of the control core's cluster is full. -/
def fullMachine : State := coreMachine.modMyCluster fun x => { x with queue := List.replicate 8 { op := .accz 0 1 } }
theorem test_witness_FullQueueHoldsTheWord : ∃ (i : Instr) (s : State) (q : RunClaim), isQueued i = true ∧ coreClaim s i = some q ∧
    q.Runs s ∧ s.cur.run = [0] ∧ s.turnOf q.x i = none :=
  ⟨.mma ⟨false, .em⟩ 0 false 0 1 2, fullMachine, _, rfl, rfl,
    ⟨witness_clear _ _ (by decide) (by decide) (by decide), by decide⟩, rfl, by decide⟩
/-- Row accesses have gone by: an ACCSIG and the reads of this cycle. -/
def lateMachine : State := (machine warp1).modMyCluster fun x => { x with stage := 42, orels := [0] }
theorem test_witness_FullQueueHoldsTheWord_row : ∃ i s q, s.myWg.ae = true ∧ anvilBenchClaim s i = some q ∧ s.turnOf q.x i = none :=
  ⟨.accrd ⟨false, .em⟩ (.v 1) (.k 4) (.k 5), lateMachine, _, rfl, rfl, by decide⟩
theorem test_witness_FullQueueHoldsTheWord_fill : ∃ i s q, s.myWg.ae = true ∧ anvilFillClaim s i = some q ∧ s.turnOf q.x i = none :=
  ⟨.ofill ⟨false, .em⟩ false false false 0 7 (.k 4) (.k 4) (.k 5), lateMachine, _, rfl, rfl, by decide⟩
/-- A strong store of thread 0 is open; model 0 has one layer. -/
def openMachine : State :=
  let s := machine { warp1 with nextId := 1, reqs := [{ id := 0, t := 0, threads := [0], obj := 2, off := 0, size := 4, strong := some .dev, op := .store [] }] }
  { s with mem := memPutBytes s.mem 0x40000 (leBytes 8 (2 ^ 63)), ctxs := [(1, { table := 0x10000, models := 0x40000 })] }
theorem test_witness_FullQueueHoldsTheWord_strong : ∃ i s q, isStrongService i = true ∧ modelClaim s i = some q ∧ s.Clear q.x ∧
    s.turnOf q.x i = none :=
  ⟨.ldone ⟨false, .em⟩ (.k 4) (.k 2), openMachine, _, rfl, rfl, witness_clear _ _ (by decide) (by decide) (by decide), by decide⟩
/-- The cluster is in a handshake. -/
def crossMachine : State := (machine warp1).modMyCluster fun x => { x with shakes := [(16, false, 0)] }
theorem test_witness_FullQueueHoldsTheWord_bind : ∃ i s q, isBind i = true ∧ syncClaim s i = some q ∧ s.Clear q.x ∧
    s.turnOf q.x i = none :=
  ⟨.bindUn ⟨false, .em⟩ 5, crossMachine, _, rfl, rfl, witness_clear _ _ (by decide) (by decide) (by decide), rfl⟩
/-- A lane of an ACCWR whose cycle is to come, and one whose cycle has come. -/
def laneMachine : State := (machine warp1).modMyCluster fun x =>
  { x with acts := [0, 5].map fun n => { cyc := n, last := 5, slot := 0, entry := 0, num := 0, t := 0, threads := [0], pc := 0, repc := none, act := .busy 0 } }
theorem test_witness_BenchAnvilWords_lanes : (((laneMachine.lanesDue 0 fun _ => true).cluster 0).acts.map LaneAct.cyc) = [5] := by decide
/-- The code's page migrates: TPC names a word that cannot be read yet, and so does the word after REP. -/
def heldMachine : State :=
  let s := repMachine
  ({ s with mem := memPutBytes s.mem progList (leBytes 8 (2 ^ 63 + 2 ^ 59 + progCode)) } : State).modMe fun w =>
    { w with threads := [(0, { st := .ready, tpc := 0x340, tcause := 0x80000030 })] }
theorem test_witness_FullQueueHoldsTheWord_fetch : heldMachine.tretWaits ⟨false, .em⟩ = true ∧ repCheck heldMachine 0 0 0 0 = .waits := by
  decide
theorem test_witness_ServiceWords : ∃ i s q, s.Clear q.x ∧ s.turnOf q.x i = some s ∧ (modelClaim s i <|> fabricClaim s i) = some q ∧
    q.Runs s :=
  ⟨.wqpop ⟨false, .em⟩ 10, machine warp1, _, witness_clear _ _ (by decide) (by decide) (by decide), rfl, rfl,
    witness_clear _ _ (by decide) (by decide) (by decide), by decide⟩
theorem test_witness_ServiceWords_fabric : ∃ i s q, s.Clear q.x ∧ s.turnOf q.x i = some s ∧
    (modelClaim s i <|> fabricClaim s i) = some q ∧ q.Runs s :=
  ⟨.xrf ⟨false, .em⟩ 4, machine warp1, _, witness_clear _ _ (by decide) (by decide) (by decide), rfl, rfl,
    witness_clear _ _ (by decide) (by decide) (by decide), by decide⟩
theorem test_witness_LaunchWords : ∃ i s q, launchClaim s i = some q ∧ q.Runs s :=
  ⟨.wcan ⟨false, .em⟩ 0 2, machine warp1, _, rfl, witness_clear _ _ (by decide) (by decide) (by decide), by decide⟩

/-! ### Events -/

theorem test_witness_ReplyEvents : ∃ i s q, replyClaim s i = some q ∧ q.ready :=
  ⟨.longResultWrite 0 0 0, machine { warp1 with longs := [{ id := 0, writes := [{ t := 0, dst := .v 1, val := 7 }] }] }, _, rfl, .inl rfl⟩
/-- A load of thread 0 that leaves at once. -/
def loadMachine : State := machine { warp1 with
  loads := [{ id := 0, group := 0, t := 0, threads := [0], k := false, reg := 1, obj := 2, off := 0x40, conv := 0, pc := 0, limit := 0, t0 := 90 }] }
theorem test_witness_ReplyEvents_load : ∃ q, replyClaim loadMachine (.loadReply 0 0 0 .home) = some q ∧ q.ready :=
  ⟨_, rfl, show _ ∧ _ ∧ _ ∧ _ ∧ _ ∧ _ by decide⟩
theorem test_witness_WaitEvents : ∃ i s q, waitClaim s i = some q ∧ q.ready :=
  ⟨.owaitWake 0 0, (coreMachine.modMe fun w => { w with waits := [{ id := 0, threads := [0], why := .owait 0x10000 1 }] }).modMyCluster
    fun x => { x with cyc := 5 }, _, rfl, show ∀ i ∈ slotsOfHandle 0x10000 1, _ ∧ _ by decide⟩
theorem test_witness_ArrayEvents : ∃ i s q, arrayClaim s i = some q ∧ q.ready :=
  ⟨.tarnishExpiry 0 0, { tick := 120000, clusters := [(0, { tiles := [(0, { v := true })] })] }, _, rfl, show _ ∧ _ by decide⟩
theorem test_witness_HubEvents : ∃ i s q, hubClaim s i = some q ∧ q.ready :=
  ⟨.xrSlotTimeout 0, { tick := 64, xrSlots := [(0, { st := .open_, tmo := 1 })] }, _, rfl, show _ ∧ _ ∧ _ by decide⟩
/-- Device 1 is at port 0, and a message of this device to its own hub is on its way. -/
def hubMachine : State :=
  { machine { warp1 with reqs := [{ id := 0, t := 0, threads := [0], obj := 2, off := 0, size := 4, op := .xr 0 { dev := 0, handle := 7, body := .xrf } 0 none }] } with
    ports := [(0, { trained := true, dev := 1 })], xrFlights := [(0, 7)], podDevs := [1], hostPort := none }
theorem test_witness_HubEvents_peer : ∃ i q, hubClaim hubMachine i = some q ∧ q.ready :=
  ⟨.xraAtHub (.peer { dev := 1, handle := 7, body := .xra 1 4 0 3 }), _, rfl, show _ = _ by decide⟩
theorem test_witness_HubEvents_own : ∃ i q, hubClaim hubMachine i = some q ∧ q.ready :=
  ⟨.xrfAtHub (.own 0 0), _, rfl, show _ ∧ _ by decide⟩
theorem test_witness_WorkEvents : ∃ i s q, workClaim s i = some q ∧ q.ready :=
  ⟨.warpRetire 0 0, machine { warp1 with retiring := true, threads := [] }, _, rfl, show _ ∧ _ by decide⟩
/-- A saved workgroup without warps, its image at byte 256 of object 2, and the record that restores it. -/
def savedMachine : State :=
  { machine {} with
    mem := memPutBytes mem1 0x30100 (leBytes 8 1 ++ leBytes 8 2)
    images := [{ obj := 2, off := 256, wg := { ctx := 1, wobj := 2 } }]
    clusters := [(0, { slots := [(0, { v := true, rst := true, iobj := 2, ioff := 256, dctx := 1 })] })] }
theorem test_witness_WorkEvents_restore : ∃ q, workClaim savedMachine (.bindRecord 0 0) = some q ∧ q.ready :=
  ⟨_, rfl, show _ ∧ _ ∧ _ ∧ _ ∧ _ ∧ _ ∧ _ ∧ _ ∧ _ ∧ _ ∧ _ ∧ _ by decide⟩
/-- The workgroup has parked, and a record of it is in the ring. -/
def parkedMachine : State :=
  let s := (machine warp1).modWg 0 0 fun g => { g with parked := true, records := 1, wobj := 2 }
  { s with ctxs := [(1, { table := 0x10000, fault0 := 0x50000 })]
           mem := memPutBytes mem1 0x50000 (leBytes 8 (2 ^ 63 + 6 * 2 ^ 48) ++ leBytes 8 0 ++ leBytes 8 (2 * 2 ^ 40) ++ leBytes 8 (2 ^ 32 + 1)) }
theorem test_witness_WorkEvents_resume : ∃ q, workClaim parkedMachine (.faultRecordResolve 1 0 0 1) = some q ∧ q.ready :=
  ⟨_, rfl, show _ ∧ _ ∧ _ by decide⟩
theorem test_witness_WorkEvents_kill : ∃ q, workClaim parkedMachine (.faultRecordResolve 1 0 0 2) = some q ∧ q.ready :=
  ⟨_, rfl, show _ ∧ _ by decide⟩
theorem test_witness_TableEvents : ∃ i s q, tableClaim s i = some q ∧ q.ready :=
  ⟨.tlbSnoop 64 0, {}, _, rfl, show _ ∧ _ by decide⟩
theorem test_witness_LayerEvents : ∃ i s q, layerClaim s i = some q ∧ q.ready :=
  ⟨.layerLeaveComplete 1 0 0,
    { ctxs := [(1, { models := 0x10000 })]
      mem := memPutBytes (memPutBytes (memPutBytes [] 0x10000 (leBytes 8 (2 ^ 63))) 0x10008 (leBytes 8 0x20000)) 0x20000
        (leBytes 8 (3 * 2 ^ 62)) }, _, rfl, show _ ∧ _ ∧ _ by decide⟩
theorem test_witness_EngineEvents : ∃ i s q, engineClaim s i = some q ∧ q.ready :=
  ⟨.chainAttach 0 0 1 2 0, { boot := 8 }, _, rfl, by decide, by decide, by decide, by decide, by decide, 0, by decide, rfl⟩
/-- A command in progress of a window writes row 0 of slot 0 from object 2. -/
def slotMachine : State :=
  { machine warp1 with engines := [(0, { window := [{ ctx := 1, op := 4, len := 128, rows := 1, src := mkCap 2 0 0, aux := 0x10000, by_ := .window 0 0 0 }] })] }
theorem test_witness_EngineEvents_slot : ∃ q, engineClaim slotMachine (.engineSlot 0 0 0) = some q ∧ q.ready :=
  ⟨_, rfl, show _ ∧ _ ∧ ∃ a, _ from ⟨by decide, by decide, 0, by decide⟩⟩
theorem test_witness_PortEvents : ∃ i s q, portClaim s i = some q ∧ q.ready :=
  ⟨.flitReplay 0, { ports := [(0, { trained := true })] }, _, rfl, show _ = _ by decide⟩
theorem test_witness_HealthEvents : ∃ i s q, healthClaim s i = some q ∧ q.ready := ⟨.lossOfPower, {}, _, rfl, by decide⟩
theorem test_witness_HealthEvents_attest : ∃ q, healthClaim { boot := 8 } (.attestationRequest (List.replicate 32 0)) = some q ∧ q.ready :=
  ⟨_, rfl, show _ ∧ _ by decide⟩

/-! ### Encoding and steps -/

theorem test_witness_EncodeThenDecode : encodable .bench (.iadd ⟨true, .cm⟩ (.v 9) (.v 9) (.k 12)) = true := by decide
theorem test_witness_DecodeThenEncode :
    (0x880109090C002000 : Nat) < 2 ^ 64 ∧ decode .bench 0x880109090C002000 = .ok (.iadd ⟨true, .cm⟩ (.v 9) (.v 9) (.k 12)) := by decide
/-- The machine with MOVI v5, #7 where its next step fetches. -/
def placed : State := State.reset.withFetchWord 64 0x0C04050000000007
theorem test_witness_StepRunsDecodedWord :
    let a : State := { placed with agenda := [] }
    let b := a.turning 0 0
    placed.agenda = [.issue 0 0] ∧ a.mayIssue 0 0 = true ∧ (b.warp 0 0).rep = none ∧ (b.warp 0 0).redo = [] ∧ b.recordOpen (b.warp 0 0).fetchRec = false ∧
    (b.warp 0 0).choose = some (0, [0], none) ∧ b.fetch 0 (b.warp 0 0) 0 = .word 0x0C04050000000007 ∧
    decode .bench 0x0C04050000000007 = .ok (.movi ⟨false, .em⟩ (.v 5) 0 7) := by decide
/-- The same in the midst of a REP whose word is at 0x40000000008 less 8. -/
def inRepeat : State :=
  { repMachine with clusters := [(0, (progCluster .bench).setWarp 0 { (progWarp .bench) with
      rep := some { threads := [0], pc := 0, next := 1, cnt := 3, sd := 0, sa := 0, sb := 0, sc := 0 } })] }
theorem test_witness_StepRunsRepeat :
    let a : State := { inRepeat with agenda := [] }
    let b := a.turning 0 0
    inRepeat.agenda = [.issue 0 0] ∧ a.mayIssue 0 0 = true ∧ (b.warp 0 0).rep.isSome = true ∧
    b.recordOpen (b.warp 0 0).fetchRec = false ∧ b.fetch 0 (b.warp 0 0) 8 = .word 0x0800010101000000 ∧
    decodeFields .bench ((Fields.ofWord 0x0800010101000000).step 0 0 0 0 1) = .ok (.iadd ⟨false, .em⟩ (.v 1) (.v 1) (.v 1)) := by decide
theorem test_witness_StepTakesOtherTurns :
    isEvent (.flitReplay 0) = true ∧ State.mayIssue { State.reset with agenda := [] } 0 0 = false := by decide
/-- A fetch that waits for its page, and one whose record is open. -/
def waiting (n : Nat) : State :=
  { heldMachine.modMe fun w => { w with fetchRec := n } with cur := {}, agenda := [], mem := memPutBytes heldMachine.mem 0x50000 (leBytes 8 (2 ^ 63)) }
theorem test_witness_StepTakesOtherTurns_waits :
    (∀ n ∈ [0, 0x50000], let b := (waiting n).turning 0 0
      (waiting n).mayIssue 0 0 = true ∧ (b.warp 0 0).rep = none ∧ (b.warp 0 0).redo = [] ∧ (b.warp 0 0).choose = some (0, [0], none) ∧
      b.recordOpen (b.warp 0 0).fetchRec = decide (n ≠ 0)) ∧
    ((waiting 0).turning 0 0).fetch 0 (((waiting 0).turning 0 0).warp 0 0) 0 = .waits := by decide
/-- A fetch beyond the code object, and a word that does not decode. -/
theorem test_witness_StepTakesOtherTurns_words : placed.fetch 0 (placed.warp 0 0) 0x10000 = .beyond ∧
    (State.reset.withFetchWord 64 0x3FC0000000000000).fetch 0 (placed.warp 0 0) 0 = .word 0x3FC0000000000000 ∧
    decode .bench 0x3FC0000000000000 = .error .noInstruction := by decide
/-- A MOVI that a pre-emption withdrew issues again. -/
def again : State :=
  { placed with agenda := [], clusters := [(0, (progCluster .bench).setWarp 0 { (progWarp .bench) with
      redo := [{ word := 0x0C04050000000007, pc := 0, threads := [0], lanes := true }] })] }
theorem test_witness_StepTakesOtherTurns_again :
    let b := again.turning 0 0
    again.mayIssue 0 0 = true ∧ (b.warp 0 0).rep = none ∧
      (b.warp 0 0).redo = [{ word := 0x0C04050000000007, pc := 0, threads := [0], lanes := true }] ∧
      (b.warp 0 0).redoers { word := 0x0C04050000000007, pc := 0, threads := [0], lanes := true } ≠ [] ∧
      decode (b.warp 0 0).unit 0x0C04050000000007 = .ok (.movi ⟨false, .em⟩ (.v 5) 0 7) := by decide
theorem test_witness_StepTakesOtherTurns_empty : State.agenda {} = [] := rfl
/-- Nothing is due for 30 ticks; and a load's limit is due. -/
theorem test_witness_TimePasses : State.dueNow { tick := 100 } = false ∧
    (∀ d ∈ State.dues { tick := 100 }, d < 100 ∨ 100 + 30 ≤ d) ∧
    (machine { warp1 with loads := [{ id := 0, group := 0, t := 0, threads := [0], k := false, reg := 1, obj := 2, off := 0, conv := 0, pc := 0, limit := 10, t0 := 90 }] }).dueNow = true := by
  decide
theorem test_witness_RunIsChosen : warp1.readies ≠ [] ∧ (∀ t ∈ warp1.readies, (warp1.thread t).age < 64) ∧
    ∃ t ∈ ({ warp1 with threads := [(0, { st := .ready, age := 64 })] } : Warp).readies,
      64 ≤ (({ warp1 with threads := [(0, { st := .ready, age := 64 })] } : Warp).thread t).age :=
  ⟨by decide, by decide, 0, by decide, by decide⟩
theorem test_witness_StepKeepsMemory : Memory.wf mem1 = true := by decide
theorem test_witness_OnlyTimeMovesTheTimeBase : (∃ t, exec (.nop ⟨false, .em⟩) (machine warp1) = .next t) ∧
    ∃ t, exec .reset (machine warp1) = .next t := ⟨⟨_, rfl⟩, ⟨_, rfl⟩⟩
theorem test_witness_RegisterZero : ∃ i s q l, integerClaim i = some q ∧ q.x.named = (.k 0, 1) :: l ∧ q.Runs s :=
  ⟨.iadd ⟨false, .em⟩ (.k 0) (.k 4) (.k 5), machine warp1, _, _, rfl, rfl, witness_clear _ _ (by decide) (by decide) (by decide),
    by decide⟩

/-! ### Traps, frames and causes -/

theorem test_witness_TrapWord : (machine warp1).Clear { h := { sw := false, g := .em } } :=
  witness_clear _ _ (by decide) (by decide) (by decide)
theorem test_witness_RegisterWordFrame : ∃ i s q,
    (integerClaim i <|> floatClaim i <|> moveClaim i) = some q ∧ wf s.me.unit i = true ∧ q.Runs s :=
  ⟨.iadd ⟨false, .em⟩ (.v 1) (.v 1) (.v 2), machine warp1, _, rfl, by decide, witness_clear _ _ (by decide) (by decide) (by decide),
    by decide⟩
theorem test_witness_PairWordFrame : ∃ i s q, pairClaim i = some q ∧ wf s.me.unit i = true ∧ q.Runs s :=
  ⟨.pairIadd false ⟨false, 4, .imm 1⟩ ⟨.shl, ⟨false, 5, .v 1⟩⟩, machine warp1, _, rfl, by decide,
    witness_clear _ _ (by decide) (by decide) (by decide), by decide⟩
theorem test_witness_BranchFrame : ∃ i s q, controlClaim s i = some q ∧ isBranch i = true ∧ q.Runs s :=
  ⟨.jmpi ⟨false, .em⟩ (.k 6), machine warp1, _, rfl, rfl, witness_clear _ _ (by decide) (by decide) (by decide), by decide⟩
theorem test_witness_LoadFrame : ∃ i s q, memoryClaim s i = some q ∧ storeOf i = none ∧ q.Runs s :=
  ⟨.ldStrong ⟨false, .em⟩ 0 .dev 0 (.v 4) (.k 2) (.k 6), machine warp1, _, rfl, rfl,
    witness_clear _ _ (by decide) (by decide) (by decide), by decide⟩
theorem test_witness_StoreFrame : ∃ i s q l, memoryClaim s i = some q ∧ storeOf i = some l ∧ q.Runs s :=
  ⟨.stStrong ⟨false, .em⟩ 0 .dev false false 0 (.k 2) (.k 6) (.v 2), machine warp1, _, _, rfl, rfl,
    witness_clear _ _ (by decide) (by decide) (by decide), by decide⟩
/-- A weak store and one at `.dev`, at the places of their words; and one to the stash. -/
theorem test_witness_StoreFrame_performed : (∀ sc ∈ [none, some Scope.dev], let s := storeMachine 2 sc
    (∃ r, (s.warp 0 0).reqOf 0 = some r ∧ r.strong = sc ∧ (s.warp 0 0).loadOf 0 = none ∧ s.canGo 0 0 r ∧ r.obj ≠ stashObj ∧
      s.placeFrom 0 { s.warp 0 0 with under := r.old, wants := r.right } 1 2 64 4 = .found 0x30040 ∧
      (s.cluster 0).takes (wordKey 1 2 16) = true)) ∧
    ∃ r, ((storeMachine stashObj none).warp 0 0).reqOf 0 = some r ∧ (storeMachine stashObj none).canGo 0 0 r ∧
      ((storeMachine stashObj none).wg 0 0).mapAt 64 = none ∧
      ∀ j ∈ wordList (((storeMachine stashObj none).wg 0 0).stashAt 64) 4, ((storeMachine stashObj none).cluster 0).globalOf j = none := by
  refine ⟨?_, _, rfl, ?_, by decide, by decide⟩
  · intro sc h
    simp only [List.mem_cons, List.not_mem_nil, or_false] at h
    rcases h with rfl | rfl
    · exact ⟨_, rfl, rfl, by decide, show _ ∧ _ ∧ _ ∧ _ by decide, by decide, by decide, by decide⟩
    · exact ⟨_, rfl, rfl, by decide, show _ ∧ _ ∧ _ ∧ _ by decide, by decide, by decide, by decide⟩
  · exact show _ ∧ _ ∧ _ ∧ _ by decide
theorem test_witness_DecodeCauseStopsTheRun : ∃ i s q c, wordClaimOf s i = some q ∧ decodeCause s q.x = some c :=
  ⟨.iadd ⟨false, .em⟩ (.v 40) (.v 1) (.v 2), machine warp1, _, _, rfl, rfl⟩
theorem test_witness_DecodeCauseStopsTheRun_run : ∃ i s q c, runClaimOf s i = some q ∧ decodeCause s q.x = some c :=
  ⟨.rdln ⟨false, .em⟩ false (.v 40), machine warp1, _, _, rfl, rfl⟩
theorem test_witness_DecodeCauseStopsTheRun_bench : ∃ (i : Instr) (s b : State) (q : WordClaim) (c : Byte × Dword), s.myWg.ae = true ∧ s.turnOf q.x i = some b ∧
    anvilBenchClaim b i = some q ∧ decodeCause b q.x = some c :=
  ⟨.accrd ⟨false, .em⟩ (.v 40) (.k 4) (.k 5), machine warp1, ((machine warp1).inPlace 40).getD {}, _, _, rfl, rfl, rfl, rfl⟩
theorem test_witness_DecodeCauseStopsTheRun_fill : ∃ i s q c, s.myWg.ae = true ∧ s.turnOf q.x i = some s ∧
    anvilFillClaim s i = some q ∧ decodeCause s q.x = some c :=
  ⟨.ofill ⟨false, .em⟩ false false false 0 7 (.k 4) (.v 40) (.k 5), machine warp1, _, _, rfl, rfl, rfl, rfl⟩
/-- The workgroup has no part in the Anvil. -/
def plainMachine : State := (machine warp1).modMyCluster fun x => { x with wgs := [(0, { ctx := 1, threads := 1, warps := 1, alloc := 32 })] }
theorem test_witness_DecodeCauseStopsTheRun_noAnvil : plainMachine.myWg.ae = false ∧
    (anvilBenchClaim plainMachine (.awset ⟨false, .em⟩ 0 4 6)).isSome = true := by decide
/-- REP before a NOP. -/
def badRep : State := { State.reset.withFetchWord 64 0x0040000000000003 with cur := { run := [0] } }
theorem test_witness_DecodeCauseStopsTheRun_rep : repCheck badRep 0 0 0 0 = .illegal 0 := by decide
theorem test_witness_DecodeCauseStopsTheRun_trap : ∃ c,
    decodeCause (machine { warp1 with cmPend := 1 }) { h := { sw := false, g := .cm } } = some c := ⟨_, rfl⟩
theorem test_witness_FaultingLanesStandAside : ∃ i s q, storeOf i = none ∧
    (plainClaim s i <|> memoryClaim s i <|> atomicClaim s i <|> tarnishClaim s i) = some q ∧ s.Opens q.x ∧
    (q.outcome (s.begun q.x) [0]).2 ≠ [] :=
  ⟨.iadd ⟨false, .em⟩ (.v 4) (.v 1) (.v 9), machine warp1, _, rfl, rfl, ⟨by decide, by decide, by decide⟩, by decide⟩
/-- Thread 0 has a handler, and thread 1, within its own, has none. -/
def warp2 : Warp := { warp1 with tvec := 1, threads := [(0, { st := .ready }), (1, { st := .ready, tcause := 0x80000000 })] }
def hits2 : List Hit := [{ t := 0, cause := 6, addr := 0, pc := 8 }, { t := 1, cause := 6, addr := 0, pc := 8 }]
theorem test_witness_HandlerEntry : (hits2.map Hit.t).Nodup ∧ (∀ h ∈ hits2, h.t < 32 ∧ h.cause = 6) ∧
    (∃ h ∈ hits2, warp2.tvec.getLsbD 0 = true ∧ (warp2.thread h.t).tcause.getLsbD 31 = false) ∧
    ∃ h ∈ hits2, warp2.tvec.getLsbD 0 = false ∨ (warp2.thread h.t).tcause.getLsbD 31 = true :=
  ⟨by decide, by decide, ⟨_, List.mem_cons_self, by decide⟩, ⟨_, List.mem_cons_of_mem _ List.mem_cons_self, by decide⟩⟩
theorem test_witness_ParkingPostsARecord : ((machine warp1).pd 0 0).getLsbD 63 = false ∧ warp1.handles 0 = false := by decide
theorem test_witness_SwitchMarkerParks : 0 ∈ (machine warp1).cur.run ∧ ((machine warp1).me.thread 0).st = .ready ∧
    (machine warp1).me.heldAtPort 0 = false ∧ ∀ d ∈ ((machine warp1).me.thread 0).deferred, d.reg = none := by decide
/-- v2 is plated, and the handler is there. -/
def plated : State := machine { warp1 with tvec := 1, v := [(64, { data := 10, tag := 0, plate := true })] }
theorem test_witness_PlatedDataDoesNotLeave : ∃ q,
    memoryClaim plated (.st ⟨false, .em⟩ 0 false false 0 (.k 2) (.k 6) (.v 2)) = some q ∧ plated.Clear q.x ∧ plated.acting q.x = [0] ∧
    plated.me.handles 0 = true ∧
    memCause (plated.begun q.x) 0 ⟨.k 2, .k 6, 0⟩ [] { rights := 4, kinds := [0, 3, 5, 8], size := 4 } = none ∧
    checkSrcs plated.me 0 [dataSrc (.v 2) 0] = none ∧ ((dataSrc (.v 2) 0).plated plated.me 0 || (plated.me.thread 0).tt) = true :=
  ⟨_, rfl, witness_clear _ _ (by decide) (by decide) (by decide), by decide, by decide, by decide, by decide, by decide⟩

/-! ### Single instructions -/

theorem test_witness_PopcClzBrevValues : decode .bench 0x0B00010200000000 = .ok (.popc ⟨false, .em⟩ (.v 1) (.v 2)) ∧
    (claim1 ⟨false, .em⟩ .bits (.v 1) (.v 2) id).Runs (machine warp1) :=
  ⟨by decide, witness_clear _ _ (by decide) (by decide) (by decide), by decide⟩
theorem test_witness_TclrClearsTaint : decode .bench 0x1F80000000000000 = .ok (.tclr ⟨false, .em⟩) ∧
    (machine warp1).Clear { h := ⟨false, .em⟩ } := ⟨by decide, witness_clear _ _ (by decide) (by decide) (by decide)⟩
theorem test_witness_TplReadsPlates : decode .bench 0x1E00000200000000 = .ok (.tpl ⟨false, .em⟩ (.v 2)) ∧
    decode .bench 0x1E04000000000000 = .ok (.tplT ⟨false, .em⟩) ∧
    (machine warp1).Clear { h := ⟨false, .em⟩, named := [(.v 2, 1)], cm := true, once := uniform [.v 2] } ∧
    (machine warp1).Clear { h := ⟨false, .em⟩, cm := true } :=
  ⟨by decide, by decide, witness_clear _ _ (by decide) (by decide) (by decide), witness_clear _ _ (by decide) (by decide) (by decide)⟩
theorem test_witness_FclassWritesOneBit : decode .bench 0x1180010300000000 = .ok (.fclass ⟨false, .em⟩ (.v 1) (.v 3)) ∧
    ∃ s, (regClaim ⟨false, .em⟩ (.v 1) [srcA (.v 3) (.tagged 1)] 0 fun w t => w.val t (.v 3)).Runs s :=
  ⟨by decide, machine warp1, witness_clear _ _ (by decide) (by decide) (by decide), by decide⟩
theorem test_witness_RdlnGivesThreadNumber : decode .bench 0x1940010000000001 = .ok (.rdln ⟨false, .em⟩ true (.v 1)) ∧
    (machine warp1).Clear { h := ⟨false, .em⟩, named := [(.v 1, 1)] } :=
  ⟨by decide, witness_clear _ _ (by decide) (by decide) (by decide)⟩
theorem test_witness_RoundsToNearest : (FVal.fin false 3 0).ratio = some ((if false then -1 else 1) * 3 * (2 : ℚ) ^ (0 : Int)) ∧
    fp32.decode (fp32.finish .rn (.fin false 3 0)).1 = .fin false 0xC00000 (-22) ∧ fp32.decode 0x40400000 = .fin false 0xC00000 (-22) :=
  ⟨rfl, by decide, by decide⟩

end Sys2Proof.Tests
end

section
/-! SUPPORT. Time that passes can change memory: the lanes of a cycle that ends act in it, a lane whose row of ACC is busy meets
ACCBUSY (R232, R237), and where no handler is enabled its FAULT record goes to the ring in memory (R289, R290). -/

namespace Sys2Proof.Machine

/-- A lane of an ACCWR is to write row 0 of ACC in the cycle under way, in which an ACCZ of rows 0 to 63 waits in the array's
queue; its warp has no handler, and the fault ring of its context lies at address 0. -/
def accwrOnBusyRow : State :=
  { clusters := [(0,
      { wgs := [(0, { ctx := 1, ae := true })]
        warps := [(0, { threads := [(0, { st := .ready })] })]
        queue := [{ op := .accz 0 64 }]
        acts := [{ cyc := 0, last := 0, slot := 0, entry := 0, num := 0, t := 0, threads := [0], pc := 0, repc := none
                   act := .accwr 0 0 {} }] })]
    ctxs := [(1, {})] }

/-- After one tick the first double word of the ring holds the record of ACCBUSY. -/
theorem accwrOnBusyRow_posts :
    accwrOnBusyRow.mem = [] ∧ (accwrOnBusyRow.passTicks 1).mem = [(6, 66), (7, 128), (24, 1), (28, 1)] := by decide

end Sys2Proof.Machine

open Sys2Proof.Machine

/-- Refutes O8: in the tick that ends its cycle, a lane that meets ACCBUSY without a handler posts a FAULT record, so memory
does not stay as it was. -/
theorem not_timePasses : ¬ Obligations.TimePasses := by
  unfold Obligations.TimePasses
  intro h
  obtain ⟨-, -, hmem, -⟩ := h accwrOnBusyRow 1
  obtain ⟨hbefore, hafter⟩ := accwrOnBusyRow_posts
  rw [hbefore, hafter] at hmem
  exact List.cons_ne_nil _ _ hmem
end

section
/-! SUPPORT. What every step keeps: the time base, and the canonical form of memory. The relation, and what carries it through
folds, choices and the outcomes that hold a state. -/

namespace Sys2Proof.Machine

-- One proof after another, in this section and the next seven: side by side they want more threads than check.sh's memory limit
-- allows.
set_option Elab.async false

/-- `s` shows the time base of `s₀`, and its memory is canonical if that of `s₀` is. -/
structure Keeps (s₀ s : State) : Prop where
  tick : s.tick = s₀.tick
  wf : Memory.wf s₀.mem = true → Memory.wf s.mem = true

/-- Where there is an outcome, `Q` holds of it. -/
def Within {α : Type} (Q : α → Prop) : Option α → Prop
  | some x => Q x
  | none => True
/-- The state that an access leaves, where it is done; the next six say the same of the other outcomes that hold a state. -/
def GotKeeps {α : Type} (s₀ : State) : Got α → Prop
  | .ok s _ => Keeps s₀ s
  | .waits _ | .fails _ => True
def GoKeeps (s₀ : State) : Go → Prop
  | .sent s => Keeps s₀ s
  | .waits | .fails _ _ => True
def LookKeeps (s₀ : State) : Look → Prop
  | .value s _ | .waits s | .fails _ _ s => Keeps s₀ s
def MadeKeeps (s₀ : State) : Made → Prop
  | .ok s => Keeps s₀ s
  | .waits | .fails _ _ => True
def LaunchedKeeps (s₀ : State) : Launched → Prop
  | .done s _ => Keeps s₀ s
  | .waits | .fails _ _ => True
def LaneKeeps (s₀ : State) : LaneOut → Prop
  | .ok s | .hit _ _ s => Keeps s₀ s
def PrepKeeps (s₀ : State) : Prep → Prop
  | .done s | .go _ s => Keeps s₀ s

variable {s₀ s t : State} {α β : Type}

theorem Keeps.refl (s : State) : Keeps s s := ⟨rfl, id⟩
theorem Keeps.trans (hs : Keeps s₀ s) (ht : Keeps s t) : Keeps s₀ t := ⟨ht.tick.trans hs.tick, fun h => ht.wf (hs.wf h)⟩
/-- An update of other fields. -/
theorem Keeps.same (hs : Keeps s₀ s) (ht : t.tick = s.tick := by rfl) (hm : t.mem = s.mem := by rfl) : Keeps s₀ t :=
  ⟨ht.trans hs.tick, fun h => hm ▸ hs.wf h⟩
theorem Keeps.ite {p : Prop} [Decidable p] (hs : Keeps s₀ s) (ht : Keeps s₀ t) : Keeps s₀ (if p then s else t) := by
  split <;> assumption
theorem Keeps.foldl {f : State → β → State} {l : List β} (hs : Keeps s₀ s) (hf : ∀ y x, Keeps s₀ y → Keeps s₀ (f y x)) :
    Keeps s₀ (l.foldl f s) :=
  List.foldlRecOn (motive := Keeps s₀) l f hs fun y hy x _ => hf y x hy
theorem Keeps.foldl_fst {f : State × α → β → State × α} {l : List β} {p : State × α} (hp : Keeps s₀ p.1)
    (hf : ∀ q x, Keeps s₀ q.1 → Keeps s₀ (f q x).1) : Keeps s₀ (l.foldl f p).1 :=
  List.foldlRecOn (motive := fun q => Keeps s₀ q.1) l f hp fun q hq x _ => hf q x hq
theorem Keeps.foldl_snd {f : α × State → β → α × State} {l : List β} {p : α × State} (hp : Keeps s₀ p.2)
    (hf : ∀ q x, Keeps s₀ q.2 → Keeps s₀ (f q x).2) : Keeps s₀ (l.foldl f p).2 :=
  List.foldlRecOn (motive := fun q => Keeps s₀ q.2) l f hp fun q hq x _ => hf q x hq
theorem LaneKeeps.ite {p : Prop} [Decidable p] {x y : LaneOut} (hx : LaneKeeps s₀ x) (hy : LaneKeeps s₀ y) :
    LaneKeeps s₀ (if p then x else y) := by
  split <;> assumption
theorem GotKeeps.ite {p : Prop} [Decidable p] {x y : Got α} (hx : GotKeeps s₀ x) (hy : GotKeeps s₀ y) :
    GotKeeps s₀ (if p then x else y) := by
  split <;> assumption
theorem Keeps.snd {x : α} (hs : Keeps s₀ s) : Keeps s₀ (x, s).2 := hs
theorem Keeps.next (hs : Keeps s₀ s) : NextWith (.next s) (Keeps s₀) := ⟨s, rfl, hs⟩

theorem Within.of_eq {Q : α → Prop} {o : Option α} {x : α} (ho : Within Q o) (e : o = some x) : Q x := by subst e; exact ho
theorem Within.getD {Q : α → Prop} {o : Option α} {x : α} (ho : Within Q o) (hx : Q x) : Q (o.getD x) := by
  cases o
  · exact hx
  · exact ho
theorem Within.map {P : β → Prop} {Q : α → Prop} {o : Option β} {f : β → α} (ho : Within P o) (hf : ∀ x, P x → Q (f x)) :
    Within Q (o.map f) := by
  cases o with
  | none => trivial
  | some x => exact hf x ho
theorem Within.bind {P : β → Prop} {Q : α → Prop} {o : Option β} {f : β → Option α} (ho : Within P o)
    (hf : ∀ x, P x → Within Q (f x)) : Within Q (o.bind f) := by
  cases o with
  | none => trivial
  | some x => exact hf x ho
theorem Within.any (o : Option α) : Within (fun _ => True) o := by cases o <;> trivial
theorem Within.ite {Q : α → Prop} {p : Prop} [Decidable p] {o o' : Option α} (ho : Within Q o) (ho' : Within Q o') :
    Within Q (if p then o else o') := by
  split <;> assumption
theorem Within.foldl {Q : α → Prop} {f : Option α → β → Option α} {l : List β} {o : Option α} (ho : Within Q o)
    (hf : ∀ o x, Within Q o → Within Q (f o x)) : Within Q (l.foldl f o) :=
  List.foldlRecOn (motive := Within Q) l f ho fun o ho x _ => hf o x ho
theorem Within.findSome? {Q : α → Prop} {f : β → Option α} {l : List β} (hf : ∀ x, Within Q (f x)) :
    Within Q (l.findSome? f) := by
  induction l with
  | nil => trivial
  | cons x r ih =>
    rw [List.findSome?_cons]
    split
    · exact (hf x).of_eq ‹_›
    · exact ih

theorem GotKeeps.of_eq {g : Got α} {x : α} (hg : GotKeeps s₀ g) (e : g = .ok t x) : Keeps s₀ t := by subst e; exact hg
theorem GotKeeps.of_pair {g : Got α × β} {x : α} {y : β} (hg : GotKeeps s₀ g.1) (e : g = (.ok t x, y)) : Keeps s₀ t := by
  subst e; exact hg
theorem GotKeeps.of_some {o : Option (Got α)} {x : α} (ho : Within (GotKeeps s₀) o) (e : o = some (.ok t x)) : Keeps s₀ t :=
  GotKeeps.of_eq (ho.of_eq e) rfl
theorem GoKeeps.of_eq {g : Go} (hg : GoKeeps s₀ g) (e : g = .sent t) : Keeps s₀ t := by subst e; exact hg
theorem MadeKeeps.of_eq {g : Made} (hg : MadeKeeps s₀ g) (e : g = .ok t) : Keeps s₀ t := by subst e; exact hg
theorem LaunchedKeeps.of_eq {g : Launched} {b : Bool} (hg : LaunchedKeeps s₀ g) (e : g = .done t b) : Keeps s₀ t := by
  subst e; exact hg
theorem LookKeeps.value {g : Look} {v : Word} (hg : LookKeeps s₀ g) (e : g = .value t v) : Keeps s₀ t := by subst e; exact hg
theorem LookKeeps.waits {g : Look} (hg : LookKeeps s₀ g) (e : g = .waits t) : Keeps s₀ t := by subst e; exact hg
theorem LookKeeps.fails {g : Look} {q : Byte} {d : Dword} (hg : LookKeeps s₀ g) (e : g = .fails q d t) : Keeps s₀ t := by
  subst e; exact hg

end Sys2Proof.Machine
end

section
/-! SUPPORT. The operations on the state, the ports and the frame of issue keep the time base and the canonical memory. -/

namespace Sys2Proof.Machine

set_option Elab.async false

variable {s₀ s t : State} {α β : Type}

theorem Keeps.setPd (hs : Keeps s₀ s) {a i : Nat} {d : Dword} : Keeps s₀ (s.setPd a i d) :=
  ⟨hs.tick, fun h => setPd_wf a i d (hs.wf h)⟩
theorem Keeps.setCluster (hs : Keeps s₀ s) {c : Nat} {x : Cluster} : Keeps s₀ (s.setCluster c x) := hs.same
theorem Keeps.modCluster (hs : Keeps s₀ s) {c : Nat} {f : Cluster → Cluster} : Keeps s₀ (s.modCluster c f) := hs.setCluster
theorem Keeps.setWarp (hs : Keeps s₀ s) {c w : Nat} {y : Warp} : Keeps s₀ (s.setWarp c w y) := hs.setCluster
theorem Keeps.modWarp (hs : Keeps s₀ s) {c w : Nat} {f : Warp → Warp} : Keeps s₀ (s.modWarp c w f) := hs.setWarp
theorem Keeps.setWg (hs : Keeps s₀ s) {c e : Nat} {y : Wg} : Keeps s₀ (s.setWg c e y) := hs.setCluster
theorem Keeps.modWg (hs : Keeps s₀ s) {c e : Nat} {f : Wg → Wg} : Keeps s₀ (s.modWg c e f) := hs.setWg
theorem Keeps.modThread (hs : Keeps s₀ s) {c w t : Nat} {f : Thread → Thread} : Keeps s₀ (s.modThread c w t f) := hs.modWarp
theorem Keeps.setMe (hs : Keeps s₀ s) {w : Warp} : Keeps s₀ (s.setMe w) := hs.setWarp
theorem Keeps.modMe (hs : Keeps s₀ s) {f : Warp → Warp} : Keeps s₀ (s.modMe f) := hs.setMe
theorem Keeps.setMyWg (hs : Keeps s₀ s) {x : Wg} : Keeps s₀ (s.setMyWg x) := hs.setWg
theorem Keeps.modMyCluster (hs : Keeps s₀ s) {f : Cluster → Cluster} : Keeps s₀ (s.modMyCluster f) := hs.modCluster
theorem Keeps.count (hs : Keeps s₀ s) {u : Nat} {c : Ctr} {n : Nat} : Keeps s₀ (s.count u c n) :=
  hs.same (s.count_tick u c n) (s.count_mem u c n)
theorem Keeps.writeReg (hs : Keeps s₀ s) {t : Nat} {d : Dst} {x : Word} {tag : BitVec 2} {plate : Bool} :
    Keeps s₀ (s.writeReg t d x tag plate) := hs.setMe.count
theorem Keeps.writeCm (hs : Keeps s₀ s) {t : Nat} {c p : Bool} : Keeps s₀ (s.writeCm t c p) := hs.modMe
theorem Keeps.orSt (hs : Keeps s₀ s) {f : Word} : Keeps s₀ (s.orSt f) := .ite hs hs.modMe
theorem Keeps.pend (hs : Keeps s₀ s) {t : Nat} {d : Dst} : Keeps s₀ (s.pend t d) := hs.setMe.count
theorem Keeps.setCtx (hs : Keeps s₀ s) {n : Nat} {x : Ctx} : Keeps s₀ (s.setCtx n x) := hs.same
theorem Keeps.putRing (hs : Keeps s₀ s) {ctx die : Nat} {d : Dword × Dword × Dword × Dword} : Keeps s₀ (s.putRing ctx die d) :=
  hs.setPd.setPd.setPd.setPd.setCtx
theorem Keeps.postWords (hs : Keeps s₀ s) {ctx die : Nat} {d : Dword × Dword × Dword × Dword} :
    Keeps s₀ (s.postWords ctx die d) := .ite hs.same hs.putRing
theorem Keeps.post (hs : Keeps s₀ s) {ctx : Nat} {r : Record} : Keeps s₀ (s.post ctx r) := hs.postWords
theorem Keeps.portRecord (hs : Keeps s₀ s) {c k : Nat} {cause : Byte} {obj off : Nat} {pc : BitVec 40} {lanes : Word} :
    Keeps s₀ (s.portRecord c k cause obj off pc lanes).2 := hs.post
theorem Keeps.askPage (hs : Keeps s₀ s) {ctx cl obj off : Nat} {cause : Byte} : Keeps s₀ (s.askPage ctx cl obj off cause) :=
  .ite hs hs.post.same
theorem Keeps.tell (hs : Keeps s₀ s) {what who : Nat} : Keeps s₀ (s.tell what who) := hs.same
theorem Keeps.park (hs : Keeps s₀ s) {c e : Nat} : Keeps s₀ (s.park c e) := hs.modCluster.tell
theorem Keeps.takeOne (hs : Keeps s₀ s) {c k : Nat} {cause : Byte} {hits : List Hit} :
    Keeps s₀ (s.takeOne c k cause hits) := by
  have hset {w : Warp} : Keeps s₀ (s.setWarp c k w) := hs.setWarp
  unfold State.takeOne
  extract_lets w mask w' s1 s2
  have h2 : Keeps s₀ s2 := by
    unfold s2
    split
    · exact hset.count
    · exact .ite hset.count hset
  split
  · exact h2
  · exact h2.park.post
theorem Keeps.take (hs : Keeps s₀ s) {c k : Nat} {hits : List Hit} : Keeps s₀ (s.take c k hits) :=
  hs.foldl fun _ _ h => h.takeOne
theorem Keeps.wake (hs : Keeps s₀ s) {c k : Nat} : Keeps s₀ (s.wake c k) := hs.setWarp.take
theorem Keeps.advance (hs : Keeps s₀ s) {run : List Nat} : Keeps s₀ (s.advance run) := hs.modMe
theorem Keeps.holdRepc (hs : Keeps s₀ s) {ts : List Nat} : Keeps s₀ (s.holdRepc ts) := by
  unfold State.holdRepc
  split
  · exact hs
  · exact hs.modMe
theorem Keeps.mark (hs : Keeps s₀ s) {ts : List Nat} : Keeps s₀ (s.mark ts) := hs.modMe.wake
theorem Keeps.holdLane (hs : Keeps s₀ s) {n : Nat} : Keeps s₀ (s.holdLane n) := hs.modMyCluster
theorem Keeps.issued (hs : Keeps s₀ s) : Keeps s₀ s.issued := .ite hs hs.modMe

/-- A word keeps what its body keeps. -/
theorem issue_keeps (hs : Keeps s₀ s) {x : Shape} {body : State → List Nat → State × List Hit}
    (hb : ∀ y l, Keeps s₀ y → Keeps s₀ (body y l).1) : Keeps s₀ (issue s x body) := by
  unfold issue
  split
  · exact hs.issued.holdLane.holdRepc.take
  · extract_lets u w held run s0 s1 first s2 active p hits s3
    have h2 : Keeps s₀ s2 := hs.issued.modMe.advance.holdLane.modMe
    have h3 : Keeps s₀ s3 := (hb s2 active h2).holdRepc.take
    exact .ite h3.mark h3
theorem Keeps.noWord (hs : Keeps s₀ s) {addr : Nat} : Keeps s₀ (s.noWord addr) := hs.issued.holdRepc.holdLane.take

theorem perLane_keeps {f : State → Nat → LaneOut} (hf : ∀ y t, Keeps s₀ y → LaneKeeps s₀ (f y t)) (y : State) (l : List Nat)
    (hy : Keeps s₀ y) : Keeps s₀ (perLane f y l).1 :=
  Keeps.foldl_fst hy fun q t hq => by
    have ht := hf q.1 t hq
    split <;> rename_i e <;> rw [e] at ht <;> exact ht
theorem perRun_keeps {f : State → List Nat → LaneOut} (hf : ∀ y ts, Keeps s₀ y → LaneKeeps s₀ (f y ts)) (y : State)
    (l : List Nat) (hy : Keeps s₀ y) : Keeps s₀ (perRun f y l).1 := by
  cases l with
  | nil => exact hy
  | cons t r =>
    have ht := hf y (t :: r) hy
    unfold perRun
    dsimp only
    split <;> rename_i e <;> rw [e] at ht <;> exact ht
theorem lanes_keeps {once : Bool} {f : State → Nat → List Nat → LaneOut} (hf : ∀ y t ts, Keeps s₀ y → LaneKeeps s₀ (f y t ts))
    (y : State) (l : List Nat) (hy : Keeps s₀ y) : Keeps s₀ (lanes once f y l).1 := by
  cases once
  · exact perLane_keeps (fun y t => hf y t [t]) y l hy
  · exact perRun_keeps (fun y ts => hf y (ts.headD 0) ts) y l hy

theorem Keeps.freshId (hs : Keeps s₀ s) : Keeps s₀ s.freshId.2 := by
  unfold State.freshId
  exact hs.same
theorem Keeps.long (hs : Keeps s₀ s) {ws : List LWrite} {flags : Word} : Keeps s₀ (s.long ws flags) := by
  unfold State.long
  exact (hs.freshId.foldl fun _ _ h => h.pend).modMe
theorem Keeps.free (hs : Keeps s₀ s) : Keeps s₀ s.free.2 := hs.same
theorem Keeps.await (hs : Keeps s₀ s) {ts : List Nat} {why : WaitFor} {once : Bool} : Keeps s₀ (s.await ts why once) := by
  unfold State.await
  exact hs.freshId.modMe
theorem Keeps.resume (hs : Keeps s₀ s) {c k : Nat} {ts : List Nat} : Keeps s₀ (s.resume c k ts) := hs.modWarp.wake
theorem Keeps.idleMark (hs : Keeps s₀ s) {c : Nat} {old : Bool} : Keeps s₀ (s.idleMark c old) := .ite hs.modCluster hs
theorem Keeps.send (hs : Keeps s₀ s) {r : Req} {once : Bool} : Keeps s₀ (s.send r once) := hs.modMe
theorem Keeps.jump (hs : Keeps s₀ s) {t : Nat} {pc : BitVec 40} : Keeps s₀ (s.jump t pc) := hs.modMe
theorem Keeps.taint (hs : Keeps s₀ s) {t : Nat} : Keeps s₀ (s.taint t) := hs.modMe
theorem Keeps.pendWide (hs : Keeps s₀ s) {t : Nat} {d : Dst} {n : Nat} : Keeps s₀ (s.pendWide t d n) :=
  hs.foldl fun _ _ h => h.pend
theorem Keeps.endWait (hs : Keeps s₀ s) {c k : Nat} {x : Wait} : Keeps s₀ (s.endWait c k x) := hs.modWarp.resume
theorem Keeps.failWait (hs : Keeps s₀ s) {c k : Nat} {x : Wait} {cause : Byte} {addr : Dword} :
    Keeps s₀ (s.failWait c k x cause addr) := hs.modWarp.take

/-! ### Barriers and the ways a thread leaves (R28 to R32) -/

theorem Keeps.joinCheck (hs : Keeps s₀ s) {c k : Nat} : Keeps s₀ (s.joinCheck c k) :=
  hs.foldl fun _ _ h => .ite (.ite h.resume h) h
theorem Keeps.setBar (hs : Keeps s₀ s) {c e b : Nat} {x : Bar} : Keeps s₀ (s.setBar c e b x) := hs.modWg
theorem Keeps.barComplete (hs : Keeps s₀ s) {c e b : Nat} : Keeps s₀ (s.barComplete c e b) := .ite hs hs.setBar
theorem Keeps.barRelease (hs : Keeps s₀ s) {c e b : Nat} : Keeps s₀ (s.barRelease c e b) :=
  Keeps.foldl (.ite hs hs.setBar) fun _ _ h => by
    split
    · exact h
    · exact h.resume
theorem Keeps.barCheck (hs : Keeps s₀ s) {c e : Nat} : Keeps s₀ (s.barCheck c e) :=
  hs.foldl fun _ _ h => h.barComplete.barRelease
theorem Keeps.stir (hs : Keeps s₀ s) {c k : Nat} : Keeps s₀ (s.stir c k) := hs.wake.joinCheck.barCheck
theorem Keeps.arrive (hs : Keeps s₀ s) {c k t b : Nat} : Keeps s₀ (s.arrive c k t b) := (Keeps.ite hs hs.setBar).modThread
theorem Keeps.exitThread (hs : Keeps s₀ s) {c k t : Nat} : Keeps s₀ (s.exitThread c k t) :=
  (hs.foldl fun _ _ h => .ite h.setBar h).modThread
theorem Keeps.discard (hs : Keeps s₀ s) {c k : Nat} : Keeps s₀ (s.discard c k) := hs.setWarp.count
theorem Keeps.release (hs : Keeps s₀ s) {c k : Nat} : Keeps s₀ (s.release c k) :=
  .ite hs (hs.foldl fun _ _ h => by
    dsimp only
    split
    · exact .ite h h.modWarp.modCluster
    · exact h)
theorem Keeps.releaseAll (hs : Keeps s₀ s) {c : Nat} : Keeps s₀ (s.releaseAll c) := hs.foldl fun _ _ h => h.release
theorem Keeps.retireByExit (hs : Keeps s₀ s) {c k : Nat} : Keeps s₀ (s.retireByExit c k) := .ite hs.discard.release.modWarp hs
theorem Keeps.retireByTail (hs : Keeps s₀ s) {c k : Nat} : Keeps s₀ (s.retireByTail c k) :=
  .ite hs.discard.release.modCluster hs
theorem Keeps.exitAll (hs : Keeps s₀ s) {c k : Nat} {ts : List Nat} : Keeps s₀ (s.exitAll c k ts) :=
  (hs.foldl fun _ _ h => h.exitThread).joinCheck.barCheck
theorem Keeps.waitBar (hs : Keeps s₀ s) {ts : List Nat} {b : BitVec 4} : Keeps s₀ (s.waitBar ts b) := hs.modMe

/-! ### Memory, its caches and their owners (R164 to R170, R184, R190) -/

/-- A memory from which entries are taken away stays canonical. -/
theorem memFilter_wf {m : List Host.Cell} (p : Host.Cell → Bool) (h : Memory.wf m = true) : Memory.wf (m.filter p) = true := by
  induction m with
  | nil => exact h
  | cons c r ih =>
    simp only [Memory.wf, Bool.and_eq_true, List.all_cons, Tab.wf_cons] at h
    obtain ⟨⟨hr, hc⟩, hne, hall⟩ := h
    have ih := ih (by simp only [Memory.wf, Bool.and_eq_true]; exact ⟨hr, hall⟩)
    rw [List.filter_cons]
    split
    · simp only [Memory.wf, Bool.and_eq_true, List.all_cons, Tab.wf_cons] at ih ⊢
      exact ⟨⟨ih.1, fun q hq => hc q (List.mem_filter.mp hq).1⟩, hne, ih.2⟩
    · exact ih
theorem Keeps.mscFill (hs : Keeps s₀ s) {a : Nat} : Keeps s₀ (s.mscFill a) := hs.trans ⟨s.mscFill_tick a, State.mscFill_wf a⟩
theorem Keeps.usedAt (hs : Keeps s₀ s) {lvl : Nat} {hit : Prefetched → Bool} : Keeps s₀ (s.usedAt lvl hit) :=
  hs.same (s.usedAt_keeps lvl hit).2 (s.usedAt_keeps lvl hit).1
theorem Keeps.mscFetch (hs : Keeps s₀ s) {a : Nat} : Keeps s₀ (s.mscFetch a) :=
  hs.trans ⟨s.mscFetch_tick a, State.mscFetch_wf a⟩
theorem Keeps.mscServe (hs : Keeps s₀ s) {a : Nat} : Keeps s₀ (s.mscServe a) :=
  hs.trans ⟨s.mscServe_tick a, State.mscServe_wf a⟩
theorem Keeps.mscReads (hs : Keeps s₀ s) {a n : Nat} : Keeps s₀ (s.mscReads a n) := hs.foldl fun _ _ h => h.mscServe
theorem Keeps.putPhys (hs : Keeps s₀ s) {a : Nat} {b : Byte} : Keeps s₀ (s.putPhys a b) :=
  hs.trans ⟨s.putPhys_tick a b, State.putPhys_wf a b⟩
theorem Keeps.putPhysBytes (hs : Keeps s₀ s) {a : Nat} {l : List Byte} : Keeps s₀ (s.putPhysBytes a l) :=
  hs.trans ⟨s.putPhysBytes_tick a l, State.putPhysBytes_wf a l⟩
theorem Keeps.l2Drop (hs : Keeps s₀ s) {gone : Nat → Nat → Bool} : Keeps s₀ (s.l2Drop gone) := .ite hs hs.same
theorem Keeps.zeroAt (hs : Keeps s₀ s) {a n : Nat} : Keeps s₀ (s.zeroAt a n) :=
  ⟨hs.l2Drop.tick, fun h => memFilter_wf _ (hs.wf h)⟩
theorem Keeps.l2Room (hs : Keeps s₀ s) {line : Nat} : Keeps s₀ (s.l2Room line) :=
  .ite hs (.ite hs (.ite hs.free hs.free.l2Drop))
theorem Keeps.l2Keep (hs : Keeps s₀ s) {ctx obj off n a : Nat} : Keeps s₀ (s.l2Keep ctx obj off n a) :=
  .ite hs (hs.foldl fun _ _ h => h.l2Room.same)
theorem Keeps.l2Used (hs : Keeps s₀ s) {ctx obj off n : Nat} : Keeps s₀ (s.l2Used ctx obj off n) := hs.usedAt
theorem Keeps.slice (hs : Keeps s₀ s) {c : Nat} {w : Warp} {ctx obj off n : Nat} {write : Bool} :
    GotKeeps s₀ (s.slice c w ctx obj off n write) := by
  unfold State.slice
  extract_lets kept serve x
  have hserve : GotKeeps s₀ serve := hs.free.l2Used
  have hx : Keeps s₀ x := .ite hs.free.l2Drop hs
  split
  · exact hserve
  · split
    · exact Keeps.ite hx.l2Used hx.mscReads.l2Keep
    all_goals
      split
      · exact hserve
      · trivial
theorem Keeps.dropOwners (hs : Keeps s₀ s) {c ctx obj i : Nat} : Keeps s₀ (s.dropOwners c ctx obj i) :=
  Keeps.foldl hs.same fun _ _ h => .ite h h.count
theorem Keeps.homeNext (hs : Keeps s₀ s) {c : Nat} {rs : List (Nat × Nat)} : Keeps s₀ (s.homeNext c rs) := by
  unfold State.homeNext
  exact Keeps.modCluster hs.same
theorem Keeps.acquireKeys (hs : Keeps s₀ s) {c lo hi : Nat} {rs : List (Nat × Nat)} : Keeps s₀ (s.acquireKeys c lo hi rs) :=
  hs.modCluster.homeNext
theorem Keeps.acquireIn (hs : Keeps s₀ s) {c : Nat} {g : Wg} {rs : List (Nat × Nat)} : Keeps s₀ (s.acquireIn c g rs) :=
  hs.acquireKeys
theorem Keeps.dropUps (hs : Keeps s₀ s) {ctx obj i : Nat} : Keeps s₀ (s.dropUps ctx obj i) := hs.same
theorem Keeps.holdGlobal (hs : Keeps s₀ s) {ctx obj off : Nat} : Keeps s₀ (s.holdGlobal ctx obj off) := .ite hs hs.same
theorem Keeps.freeGlobal (hs : Keeps s₀ s) {ctx obj off : Nat} : Keeps s₀ (s.freeGlobal ctx obj off) := hs.same
theorem Keeps.putWord (hs : Keeps s₀ s) {ctx obj i a : Nat} {v : Word} : Keeps s₀ (s.putWord ctx obj i a v) :=
  .ite hs.same (Keeps.putPhysBytes hs.same)
theorem Keeps.wash (hs : Keeps s₀ s) : Keeps s₀ s.wash :=
  hs.foldl fun _ _ h => by
    split
    · exact h.putWord
    · exact h
theorem Keeps.homePut (hs : Keeps s₀ s) {ctx obj off size a v : Nat} : Keeps s₀ (s.homePut ctx obj off size a v) :=
  hs.foldl fun _ _ h => h.dropOwners.dropUps.putWord
theorem Keeps.forget (hs : Keeps s₀ s) {c ctx obj off size : Nat} : Keeps s₀ (s.forget c ctx obj off size) :=
  hs.modCluster.homeNext
theorem Keeps.evict (hs : Keeps s₀ s) {c line : Nat} : Within (Keeps s₀) (s.evict c line) :=
  .ite trivial (hs.foldl fun _ _ h => h.putWord).modCluster
theorem Keeps.room (hs : Keeps s₀ s) {c key : Nat} : Within (Keeps s₀) (s.room c key) :=
  .ite hs (.findSome? fun _ => hs.free.evict)
theorem Keeps.fillSector (hs : Keeps s₀ s) {seen : State} {c ctx obj off a : Nat} :
    Keeps s₀ (s.fillSector seen c ctx obj off a) := by
  unfold State.fillSector
  dsimp only
  split
  · exact (hs.room.of_eq ‹_›).modCluster
  · exact hs
theorem Keeps.filled (hs : Keeps s₀ s) {seen : State} {c : Nat} {w : Warp} {ctx obj off a : Nat} :
    Keeps s₀ (s.filled seen c w ctx obj off a) := .ite hs hs.fillSector
theorem Keeps.fillFromPeer (hs : Keeps s₀ s) {c peer ctx obj off : Nat} : Keeps s₀ (s.fillFromPeer c peer ctx obj off) := by
  unfold State.fillFromPeer
  dsimp only
  split
  · exact (hs.room.of_eq ‹_›).modCluster
  · exact hs
theorem Keeps.probeMiss (hs : Keeps s₀ s) {c ctx obj off : Nat} : Keeps s₀ (s.probeMiss c ctx obj off) :=
  .ite hs (.ite hs.modCluster (by
    dsimp only
    split
    · exact hs.free.count.count
    · exact hs))
theorem Keeps.ownWord (hs : Keeps s₀ s) {c ctx obj i : Nat} {v : Word} {by_ : Option (Nat × Nat)} {late both : Bool} :
    Keeps s₀ (s.ownWord c ctx obj i v by_ late both) := by
  unfold State.ownWord
  exact hs.dropOwners.dropUps.homeNext.modCluster
theorem Keeps.loseMates (hs : Keeps s₀ s) {c ctx obj off size : Nat} : Keeps s₀ (s.loseMates c ctx obj off size) :=
  hs.modCluster
theorem Keeps.l1Put (hs : Keeps s₀ s) {c ctx obj off size a v : Nat} {by_ : Option (Nat × Nat)} {late : Bool} :
    Keeps s₀ (s.l1Put c ctx obj off size a v by_ late) := hs.foldl fun _ _ h => h.ownWord
theorem Keeps.l1Store (hs : Keeps s₀ s) {c ctx obj off size a v : Nat} {by_ : Option (Nat × Nat)} :
    Keeps s₀ (s.l1Store c ctx obj off size a v by_) := .ite hs.free.l1Put hs.l1Put
theorem Keeps.tellKeys (hs : Keeps s₀ s) {sel : Nat → Bool} : Keeps s₀ (s.tellKeys sel) := .ite hs.same hs
theorem Keeps.telling (hs : Keeps s₀ s) {ctx obj off size : Nat} : Keeps s₀ (s.telling ctx obj off size) := hs.tellKeys
theorem Keeps.weakSlice (hs : Keeps s₀ s) {c : Nat} {w : Warp} {ctx obj off n : Nat} :
    GotKeeps s₀ (s.weakSlice c w ctx obj off n) := by
  unfold State.weakSlice
  dsimp only
  split
  · exact (Keeps.ite hs.free.tellKeys hs).slice.of_eq ‹_›
  · trivial
  · trivial
theorem Keeps.demand (hs : Keeps s₀ s) {c : Nat} {w : Warp} {obj off size : Nat} : Keeps s₀ (s.demand c w obj off size) :=
  .ite hs hs.modCluster.count.count
theorem Keeps.touch (hs : Keeps s₀ s) {c : Nat} {w : Warp} {off : Nat} : GotKeeps s₀ (s.touch c w off) := by
  unfold State.touch
  dsimp only
  split
  · exact hs
  · split
    · exact hs
    · split
      · trivial
      · trivial
      · exact (hs.demand.weakSlice.of_eq ‹_›).modCluster.count
theorem Keeps.stashRead (hs : Keeps s₀ s) {c : Nat} {w : Warp} {off size : Nat} : GotKeeps s₀ (s.stashRead c w off size) := by
  unfold State.stashRead
  split
  · exact hs.touch.of_eq ‹_›
  · trivial
  · trivial
theorem Keeps.ownMapped (hs : Keeps s₀ s) {c j : Nat} {by_ : Option (Nat × Nat)} {late both : Bool} :
    Keeps s₀ (s.ownMapped c j by_ late both) := by
  unfold State.ownMapped
  split
  · exact hs
  · exact hs.dropOwners.dropUps.homeNext.modCluster
theorem Keeps.freshen (hs : Keeps s₀ s) {c : Nat} {w : Warp} {j : Nat} : GotKeeps s₀ (s.freshen c w j) := by
  unfold State.freshen
  split
  · exact hs
  · split
    · exact hs
    · split
      · trivial
      · trivial
      · exact (hs.telling.slice.of_eq ‹_›).loseMates.modCluster
theorem Keeps.stashWrite (hs : Keeps s₀ s) {c : Nat} {w : Warp} {off size v : Nat} {by_ : Option (Nat × Nat)} :
    GotKeeps s₀ (s.stashWrite c w off size v by_) := by
  have hfresh {x : State} {j : Nat} (h : Keeps s₀ x) : GotKeeps s₀ (if size < 4 then x.freshen c w j else .ok x ()) := by
    split
    · exact h.freshen
    · exact h
  unfold State.stashWrite
  split
  · trivial
  · split
    · trivial
    · trivial
    · have hx := hs.touch.of_eq ‹_›
      dsimp only
      split
      · trivial
      · trivial
      · have hy := (hfresh hx).of_eq ‹_›
        exact Keeps.foldl (Keeps.ite hy.free hy).modCluster fun _ _ h => h.ownMapped
theorem Keeps.weakRead (hs : Keeps s₀ s) {c : Nat} {w : Warp} {obj off size : Nat} {via : Via} :
    Within (GotKeeps s₀) (s.weakRead c w obj off size via) := by
  unfold State.weakRead
  split
  · exact hs.stashRead
  · dsimp only
    split
    · trivial
    · split
      · exact (Within.any _).map fun _ _ => hs
      · split
        · exact hs.fillFromPeer.count.count
        · trivial
      · split
        · trivial
        · trivial
        · exact (hs.weakSlice.of_eq ‹_›).probeMiss.filled
theorem Keeps.anyRead (hs : Keeps s₀ s) {c : Nat} {w : Warp} {obj off size : Nat} :
    GotKeeps s₀ (s.anyRead c w obj off size) := by
  unfold State.anyRead
  split
  · exact hs.weakRead.of_eq ‹_›
  · exact hs.weakRead.getD trivial
theorem Keeps.putNear (hs : Keeps s₀ s) {c : Nat} {w : Warp} {ctx obj off size v : Nat} {by_ : Option (Nat × Nat)} :
    GotKeeps s₀ (s.putNear c w ctx obj off size v by_) := by
  unfold State.putNear
  split
  · trivial
  · split
    · trivial
    · split
      · exact (hs.room.of_eq ‹_›).l1Store
      · trivial
theorem Keeps.modNear (hs : Keeps s₀ s) {c : Nat} {w : Warp} {ctx obj off size : Nat} {f : Nat → Option Nat}
    {by_ : Option (Nat × Nat)} : GotKeeps s₀ (s.modNear c w ctx obj off size f by_) := by
  unfold State.modNear
  extract_lets step
  have hstep {x : State} {a : Nat} (h : Keeps s₀ x) : GotKeeps s₀ (step x a) := by
    unfold step
    dsimp only
    split
    · exact (h.room.of_eq ‹_›).l1Store
    · trivial
  split
  · split
    · trivial
    · exact hstep hs
  · split
    · trivial
    · trivial
    · exact hstep (hs.telling.slice.of_eq ‹_›).loseMates

theorem Got.done_keeps {g : Got α} (hg : GotKeeps s₀ g) : GotKeeps s₀ g.done := by
  cases g <;> exact hg

theorem Keeps.weakWrite (hs : Keeps s₀ s) {c : Nat} {w : Warp} {t obj off size v : Nat} :
    GotKeeps s₀ (s.weakWrite c w t obj off size v) := by
  unfold State.weakWrite
  dsimp only
  split
  · exact hs.stashWrite
  · split
    · exact Got.done_keeps hs.modNear
    · exact hs.putNear
theorem Keeps.strongNear (hs : Keeps s₀ s) {c : Nat} {w : Warp} {ctx obj off size : Nat} {rmw : Bool}
    {f : Nat → Option Nat} : GotKeeps s₀ (s.strongNear c w ctx obj off size rmw f) := by
  unfold State.strongNear
  split
  · split
    · split
      · exact hs.putNear.of_eq ‹_›
      · trivial
      · trivial
    · exact hs.modNear
  · split
    · exact hs.modNear
    · split
      · trivial
      · split
        · exact hs
        · split
          · trivial
          · trivial
          · exact (hs.weakSlice.of_eq ‹_›).filled
theorem Keeps.strongFar (hs : Keeps s₀ s) {c : Nat} {w : Warp} {ctx obj off size : Nat} {sc : Scope}
    {f : Nat → Option Nat} : GotKeeps s₀ (s.strongFar c w ctx obj off size sc f) := by
  unfold State.strongFar
  dsimp only
  split
  · trivial
  · trivial
  · have hy := (Keeps.ite hs.telling.l2Drop hs.telling).slice.of_eq ‹_›
    split
    · exact hy
    · exact hy.homePut.forget
theorem Keeps.strongStep (hs : Keeps s₀ s) {c : Nat} {w : Warp} {obj off size : Nat} {sc : Scope} {rmw : Bool}
    {f : Nat → Option Nat} : GotKeeps s₀ (s.strongStep c w obj off size sc rmw f) := by
  unfold State.strongStep
  dsimp only
  split
  · split
    · have hx := hs.stashRead.of_eq ‹_›
      split
      · exact hx
      · split
        · exact hx.stashWrite.of_eq ‹_›
        · trivial
        · trivial
    · exact hs.stashRead
  · split
    · exact hs.strongNear
    · exact hs.strongFar
theorem Keeps.strongRead (hs : Keeps s₀ s) {c : Nat} {w : Warp} {obj off size : Nat} {sc : Scope} :
    GotKeeps s₀ (s.strongRead c w obj off size sc) := hs.strongStep
theorem Keeps.strongWrite (hs : Keeps s₀ s) {c : Nat} {w : Warp} {obj off size : Nat} {sc : Scope} {v : Nat} :
    GotKeeps s₀ (s.strongWrite c w obj off size sc v) := hs.strongStep
theorem Keeps.served (hs : Keeps s₀ s) {ctx obj off size : Nat} : Keeps s₀ (s.served ctx obj off size) :=
  hs.telling.foldl fun _ _ h => by
    split
    · exact h.mscServe
    · exact h
theorem Keeps.objWrite (hs : Keeps s₀ s) {ctx obj off size v : Nat} : Within (Keeps s₀) (s.objWrite ctx obj off size v) :=
  (Within.any _).map fun _ _ => hs.homePut
theorem Keeps.dwWrite (hs : Keeps s₀ s) {ctx obj off : Nat} {d : Dword} : Within (Keeps s₀) (s.dwWrite ctx obj off d) :=
  hs.objWrite
theorem Keeps.setFl (hs : Keeps s₀ s) {ctx obj off : Nat} : Keeps s₀ (s.setFl ctx obj off) := by
  unfold State.setFl
  split
  · exact hs.dwWrite.getD hs
  · exact hs
theorem Keeps.flushWord (hs : Keeps s₀ s) {c : Nat} {w : Warp} {ctx obj i : Nat} {v : Word} :
    GotKeeps s₀ (s.flushWord c w ctx obj i v) := by
  unfold State.flushWord
  split
  · exact (hs.slice.of_eq ‹_›).putWord.modCluster
  · trivial
  · trivial
theorem Keeps.flushL1 (hs : Keeps s₀ s) {c : Nat} {w : Warp} {sel : Nat → Nat → Nat → L1Word → Bool}
    {l : List (Nat × L1Word)} : GotKeeps s₀ (s.flushL1 c w sel l).1 := by
  induction l generalizing s with
  | nil => exact hs
  | cons e r ih =>
    unfold State.flushL1
    split
    · split
      · exact ih (hs.flushWord.of_eq ‹_›).modCluster
      · trivial
      · trivial
    · exact ih hs
theorem Keeps.flushMapped (hs : Keeps s₀ s) {c : Nat} {w : Warp} {sel : Nat → Nat → Nat → L1Word → Bool}
    {l : List (Nat × L1Word)} : GotKeeps s₀ (s.flushMapped c w sel l).1 := by
  induction l generalizing s with
  | nil => exact hs
  | cons e r ih =>
    unfold State.flushMapped
    split
    · exact ih hs
    · split
      · split
        · exact ih (hs.flushWord.of_eq ‹_›).modCluster.count
        · trivial
        · trivial
      · exact ih hs
theorem Keeps.flush (hs : Keeps s₀ s) {c : Nat} {w : Warp} {sel : Nat → Nat → Nat → L1Word → Bool} :
    GotKeeps s₀ (s.flush c w sel).1 := by
  unfold State.flush
  split
  · exact (hs.flushL1.of_pair ‹_›).flushMapped
  · exact hs.flushL1
theorem Keeps.recallWord (hs : Keeps s₀ s) {c ctx obj i : Nat} : Keeps s₀ (s.recallWord c ctx obj i) := by
  unfold State.recallWord
  dsimp only
  split
  · exact hs.putWord.modCluster.count
  · exact hs
theorem Keeps.recallAt (hs : Keeps s₀ s) {a n : Nat} : Keeps s₀ (s.recallAt a n) := hs.foldl fun _ _ h => h.recallWord
theorem Keeps.readLoad (hs : Keeps s₀ s) {c : Nat} {w : Warp} {l : Load} {via : Option Via} :
    Within (GotKeeps s₀) (s.readLoad c w l via) := by
  unfold State.readLoad
  extract_lets v x
  have hx : Keeps s₀ x := .ite hs.demand hs
  split
  · trivial
  · split
    · split
      · exact hx.weakRead
      · exact hx.anyRead
    · exact hx.strongRead
theorem Keeps.fixLoad (hs : Keeps s₀ s) {c k : Nat} {l : Load} : Keeps s₀ (s.fixLoad c k l) :=
  .ite hs (by
    split
    · exact (GotKeeps.of_some (Keeps.ite hs hs.free).readLoad ‹_›).modWarp
    · exact hs)
theorem Keeps.performAt {s0 : State} (hs : Keeps s₀ s0) {c : Nat} {w0 : Warp} {r : Req} :
    GotKeeps s₀ (s0.performAt c w0 r) := by
  unfold State.performAt
  extract_lets s w
  have h : Keeps s₀ s := .ite hs.demand hs
  split
  · trivial
  · split
    · split
      · split
        · exact h.weakWrite.of_eq ‹_›
        · trivial
        · trivial
      · exact h.strongWrite
    · exact h.strongStep
    · exact h

end Sys2Proof.Machine
end

section
/-! SUPPORT. The words of the processor keep the time base and the canonical memory: those that write registers, masks and the
array's rows. -/

namespace Sys2Proof.Machine

set_option Elab.async false

variable {s₀ s t : State} {α β : Type}

/-! ### Registers, branches and masks -/

theorem regWord_keeps (hs : Keeps s₀ s) {h : Hdr} {d : Opd} {l : List Src} {tag : BitVec 2} {value : Warp → Nat → Word} :
    Keeps s₀ (regWord s h d l tag value) :=
  issue_keeps hs (lanes_keeps fun _ _ _ h => by
    split
    · exact h
    · exact h.writeReg)
theorem alu2_keeps (hs : Keeps s₀ s) {h : Hdr} {disc : Disc} {d a b : Opd} {op : Word → Word → Word} :
    Keeps s₀ (alu2 s h disc d a b op) := regWord_keeps hs
theorem alu1_keeps (hs : Keeps s₀ s) {h : Hdr} {disc : Disc} {d a : Opd} {op : Word → Word} : Keeps s₀ (alu1 s h disc d a op) :=
  regWord_keeps hs
theorem alu3_keeps (hs : Keeps s₀ s) {h : Hdr} {disc : Disc} {d a b c : Opd} {op : Word → Word → Word → Word} :
    Keeps s₀ (alu3 s h disc d a b c op) := regWord_keeps hs
theorem carryWord_keeps (hs : Keeps s₀ s) {h : Hdr} {d a b : Opd} {op : Word → Word → Bool → Word × Bool} :
    Keeps s₀ (carryWord s h d a b op) :=
  issue_keeps hs (lanes_keeps fun _ _ _ h => by
    dsimp only
    split
    · exact h
    · exact h.writeReg.foldl fun _ _ h => h.writeCm)
theorem compareWord_keeps (hs : Keeps s₀ s) {h : Hdr} {d : Option Opd} {l : List Src} {f : State → Nat → Bool × State}
    (hf : ∀ y t, Keeps s₀ y → Keeps s₀ (f y t).2) : Keeps s₀ (compareWord s h d l f) :=
  issue_keeps hs (lanes_keeps fun _ _ _ h => by
    split
    · exact h
    · dsimp only
      split
      · exact (Keeps.foldl (hf _ _ h) fun _ _ h => h.writeCm).writeReg
      · exact Keeps.foldl (hf _ _ h) fun _ _ h => h.writeCm)
theorem execSel_keeps (hs : Keeps s₀ s) {h : Hdr} {d a b : Opd} : NextWith (execSel h d a b s) (Keeps s₀) :=
  Keeps.next (issue_keeps hs (lanes_keeps fun _ _ _ h => h.writeReg))
theorem execSelZ_keeps (hs : Keeps s₀ s) {h : Hdr} {d a b c : Opd} : NextWith (execSelZ h d a b c s) (Keeps s₀) :=
  Keeps.next (issue_keeps hs (lanes_keeps fun _ _ _ h => by
    dsimp only
    split
    · exact h
    · exact h.writeReg))
theorem execMov_keeps (hs : Keeps s₀ s) {h : Hdr} {d a : Opd} : NextWith (execMov h d a s) (Keeps s₀) :=
  Keeps.next (issue_keeps hs (lanes_keeps fun _ _ _ h => h.writeReg))
theorem pairWord_keeps (hs : Keeps s₀ s) {h : Hdr} {d : Opd} {l : List Src} {extra : Warp → Nat → Option (Byte × Dword)}
    {value : State → Nat → Dword} : Keeps s₀ (pairWord s h d l extra value) :=
  issue_keeps hs (lanes_keeps fun _ _ _ h => by
    split
    · exact h
    · split
      · exact h
      · exact h.writeReg.writeReg)
theorem execNop_keeps (hs : Keeps s₀ s) {h : Hdr} : NextWith (execNop h s) (Keeps s₀) :=
  Keeps.next (issue_keeps hs fun _ _ h => h)
theorem execBra_keeps (hs : Keeps s₀ s) {h : Hdr} {w : BitVec 32} : NextWith (execBra h w s) (Keeps s₀) :=
  Keeps.next (issue_keeps hs fun _ _ h => h.foldl fun _ _ h => h.jump)
theorem execBrc_keeps (hs : Keeps s₀ s) {h : Hdr} {neg gf : Bool} {w : BitVec 32} :
    NextWith (execBrc h neg gf w s) (Keeps s₀) :=
  Keeps.next (issue_keeps hs (perLane_keeps fun _ _ h =>
    .ite h (Keeps.ite (Keeps.ite h.taint h).jump (Keeps.ite h.taint h))))
theorem jumpTo_keeps (hs : Keeps s₀ s) {h : Hdr} {a : Opd} : Keeps s₀ (jumpTo h a s) :=
  issue_keeps hs (lanes_keeps fun _ _ _ h => by
    split
    · exact h
    · exact .ite h (.ite h (h.foldl fun _ _ h => h.jump)))
theorem execCall_keeps (hs : Keeps s₀ s) {h : Hdr} {d : Opd} {w : BitVec 32} : NextWith (execCall h d w s) (Keeps s₀) :=
  Keeps.next (issue_keeps hs (lanes_keeps fun _ _ _ h => h.writeReg.foldl fun _ _ h => h.jump))
theorem execJoin_keeps (hs : Keeps s₀ s) {h : Hdr} {tile : Bool} : NextWith (execJoin h tile s) (Keeps s₀) :=
  Keeps.next (issue_keeps hs fun _ _ h => h.modMe.joinCheck)
theorem execBarArriveWait_keeps (hs : Keeps s₀ s) {h : Hdr} {id : BitVec 4} : NextWith (execBarArriveWait h id s) (Keeps s₀) :=
  Keeps.next (issue_keeps hs fun _ _ h => (h.foldl fun _ _ h => h.arrive).waitBar.barCheck)
theorem execBarArrive_keeps (hs : Keeps s₀ s) {h : Hdr} {id : BitVec 4} : NextWith (execBarArrive h id s) (Keeps s₀) :=
  Keeps.next (issue_keeps hs fun _ _ h => (h.foldl fun _ _ h => h.arrive).barCheck)
theorem execBarWait_keeps (hs : Keeps s₀ s) {h : Hdr} {id : BitVec 4} : NextWith (execBarWait h id s) (Keeps s₀) :=
  Keeps.next (issue_keeps hs fun _ _ h => h.waitBar.barCheck)
theorem execExit_keeps (hs : Keeps s₀ s) {h : Hdr} : NextWith (execExit h s) (Keeps s₀) :=
  Keeps.next (issue_keeps hs fun _ _ h => .ite h h.exitAll.retireByExit)
theorem execTail_keeps (hs : Keeps s₀ s) {h : Hdr} : NextWith (execTail h s) (Keeps s₀) :=
  Keeps.next (issue_keeps hs fun _ _ h => by
    dsimp only
    split
    · exact h
    · split <;> dsimp only
      · exact h.exitAll.modMe
      · exact h.exitAll.exitAll.retireByTail)
theorem execTrap_keeps (hs : Keeps s₀ s) {h : Hdr} {code : BitVec 16} : NextWith (execTrap h code s) (Keeps s₀) :=
  Keeps.next (issue_keeps hs (perLane_keeps fun _ _ h => h))
theorem execTretReplay_keeps (hs : Keeps s₀ s) {h : Hdr} : NextWith (execTretReplay h s) (Keeps s₀) :=
  Keeps.next (issue_keeps hs (perLane_keeps fun _ _ h => .ite h h.modMe))
theorem execTretResume_keeps (hs : Keeps s₀ s) {h : Hdr} : NextWith (execTretResume h s) (Keeps s₀) :=
  Keeps.next (Keeps.ite hs (issue_keeps hs (perLane_keeps fun _ _ h => .ite h (.ite h.modMe h.modMe))))
theorem execRep_keeps (hs : Keeps s₀ s) {sw : Bool} {sd sa sb sc : BitVec 2} {cnt : BitVec 6} :
    NextWith (execRep sw sd sa sb sc cnt s) (Keeps s₀) := by
  unfold execRep
  dsimp only
  split
  · exact hs.next
  · exact hs.issued.holdLane.take.next
  · exact hs.issued.holdLane.modMe.take.modMe.wake.next
theorem execRdsr_keeps (hs : Keeps s₀ s) {h : Hdr} {d : Opd} {sr : Sr} : NextWith (execRdsr h d sr s) (Keeps s₀) :=
  Keeps.next (issue_keeps hs (lanes_keeps fun _ _ _ h => Keeps.ite h.writeReg.writeReg h.writeReg))
theorem Keeps.loadEm (hs : Keeps s₀ s) {r : List Nat} {v : Word} : Keeps s₀ (s.loadEm r v) := hs.modMe
theorem Keeps.loadCm (hs : Keeps s₀ s) {r : List Nat} {f : Nat → Bool} {p : Nat → Bool} : Keeps s₀ (s.loadCm r f p) :=
  hs.foldl fun _ _ h => h.writeCm
theorem Keeps.loadCpm (hs : Keeps s₀ s) {r : List Nat} {v : Word} : Keeps s₀ (s.loadCpm r v) := hs.foldl fun _ _ h => h.modMe
theorem Keeps.setSr (hs : Keeps s₀ s) {r ts : List Nat} {sr : Sr} {v : Dword} {plate : Bool} :
    Keeps s₀ (s.setSr r ts sr v plate) := by
  unfold State.setSr
  dsimp only
  cases sr with
  | em => exact hs.loadEm
  | cm => exact hs.loadCm
  | cpm => exact hs.loadCpm
  | pt => exact hs.modMe.joinCheck
  | xi | st | tvec | repc | tpc | taddr => exact hs.modMe
  | awb | awl | tt | tcause | tlanes | tb => exact hs
theorem execWrsr_keeps (hs : Keeps s₀ s) {h : Hdr} {sr : Sr} {a : Opd} : NextWith (execWrsr h sr a s) (Keeps s₀) :=
  Keeps.next (issue_keeps hs (lanes_keeps fun _ _ _ h => by
    split
    · exact h
    · dsimp only
      split
      · exact h
      · exact .ite h h.setSr))
theorem maskWord_keeps (hs : Keeps s₀ s) {sw : Bool} {cm : Bool} {named : List (Opd × Nat)}
    {f : State → List Nat → State × List Hit} (hf : ∀ y l, Keeps s₀ y → Keeps s₀ (f y l).1) :
    Keeps s₀ (maskWord s sw cm named f) := by
  unfold maskWord
  exact issue_keeps hs fun _ _ h => by
    split
    · exact h
    · exact hf _ _ h
theorem maskSource_keeps {x : State} (hs : Keeps s₀ x) {run : List Nat} {ka : Nat} {f : Reg → State × List Hit}
    (hf : ∀ q, Keeps s₀ (f q).1) : Keeps s₀ (maskSource x run ka f).1 := by
  unfold maskSource
  split
  · exact hs
  · exact hf _
theorem execEms_keeps (hs : Keeps s₀ s) {sw : Bool} {kd : Nat} : NextWith (execEms sw kd s) (Keeps s₀) :=
  Keeps.next (maskWord_keeps hs fun _ _ h => by dsimp only; exact h.writeReg)
theorem execEml_keeps (hs : Keeps s₀ s) {sw gf : Bool} {ka : Nat} : NextWith (execEml sw gf ka s) (Keeps s₀) :=
  Keeps.next (maskWord_keeps hs fun _ _ h => maskSource_keeps h fun _ => by
    split
    · split
      · exact h.loadEm.foldl fun _ _ h => h.taint
      · exact h
    · exact h.loadEm)
theorem steer_keeps (hs : Keeps s₀ s) {sw gf : Bool} {f : Bool → Bool → Bool} : Keeps s₀ (steer s sw gf f) :=
  maskWord_keeps hs fun _ _ h => h.foldl fun _ _ h => .ite h (.ite h.modMe.taint h.modMe)
theorem execCms_keeps (hs : Keeps s₀ s) {sw p : Bool} {kd : Nat} : NextWith (execCms sw p kd s) (Keeps s₀) :=
  Keeps.next (maskWord_keeps hs fun _ _ h => by dsimp only; exact h.writeReg)
theorem execCml_keeps (hs : Keeps s₀ s) {sw p : Bool} {ka : Nat} : NextWith (execCml sw p ka s) (Keeps s₀) :=
  Keeps.next (maskWord_keeps hs fun _ _ h => maskSource_keeps h fun _ => .ite h.loadCpm h.loadCm)
theorem execCmx_keeps (hs : Keeps s₀ s) {sw : Bool} {op : BitVec 2} {ka : Nat} : NextWith (execCmx sw op ka s) (Keeps s₀) :=
  Keeps.next (maskWord_keeps hs fun _ _ h => maskSource_keeps h fun _ => h.loadCm)
theorem execPart_keeps (hs : Keeps s₀ s) {h : Hdr} {size : BitVec 3} : NextWith (execPart h size s) (Keeps s₀) :=
  Keeps.next (issue_keeps hs (perRun_keeps fun _ _ h => h.modMe.joinCheck))
theorem execXiset_keeps (hs : Keeps s₀ s) {h : Hdr} {src : XiSrc} : NextWith (execXiset h src s) (Keeps s₀) := by
  cases src with
  | imm v => exact Keeps.next (issue_keeps hs (perRun_keeps fun _ _ h => h.modMe))
  | k n => exact Keeps.next (issue_keeps hs (perRun_keeps fun _ _ h => .ite h (.ite h h.modMe)))
theorem execMovwWrite_keeps (hs : Keeps s₀ s) {h : Hdr} {w k : Nat} : NextWith (execMovwWrite h w k s) (Keeps s₀) :=
  Keeps.next (issue_keeps hs (perRun_keeps fun _ _ h => .ite h h.setMyWg))
theorem execMovwRead_keeps (hs : Keeps s₀ s) {h : Hdr} {k w : Nat} : NextWith (execMovwRead h k w s) (Keeps s₀) :=
  Keeps.next (issue_keeps hs (perRun_keeps fun _ _ h => h.writeReg))

/-! ### Floating point, long results and lanes together -/

theorem floatWord_keeps (hs : Keeps s₀ s) {h : Hdr} {d : Opd} {width : Nat} {l : List Src} {tag : BitVec 2}
    {op : Warp → Nat → List Word × Word} : Keeps s₀ (floatWord s h d width l tag op) :=
  issue_keeps hs (lanes_keeps fun _ _ _ h => by
    split
    · exact h
    · exact (h.foldl fun _ _ h => h.writeReg).orSt)
theorem float1_keeps (hs : Keeps s₀ s) {h : Hdr} {d a : Opd} {op : Word → Word × Word} : Keeps s₀ (float1 s h d a op) :=
  floatWord_keeps hs
theorem float2_keeps (hs : Keeps s₀ s) {h : Hdr} {d a b : Opd} {op : FVal → FVal → Word × Word} :
    Keeps s₀ (float2 s h d a b op) := floatWord_keeps hs
theorem minmax2_keeps (hs : Keeps s₀ s) {h : Hdr} {mx prop : Bool} {d a b : Opd} : Keeps s₀ (minmax2 s h mx prop d a b) :=
  floatWord_keeps hs
theorem bf2_keeps (hs : Keeps s₀ s) {h : Hdr} {d a b : Opd} {op : Word → Word → Word × Word} : Keeps s₀ (bf2 s h d a b op) :=
  floatWord_keeps hs
theorem longFloat_keeps (hs : Keeps s₀ s) {h : Hdr} {cost : Nat} {d : Opd} {l : List Src}
    {op : State → Nat → (Word × Word) × State} (hop : ∀ y t, Keeps s₀ y → Keeps s₀ (op y t).2) :
    Keeps s₀ (longFloat s h cost d l op) :=
  issue_keeps hs (lanes_keeps fun _ _ _ h => by
    split
    · exact h
    · exact (hop _ _ h).long)
theorem sfu_keeps (hs : Keeps s₀ s) {h : Hdr} {fn : Nat} {d a : Opd} : Keeps s₀ (sfu s h fn d a) :=
  longFloat_keeps hs fun _ _ h => h.free
theorem longLanes_keeps (hs : Keeps s₀ s) {active : List Nat} {f : Warp → Nat → LongOut} : Keeps s₀ (longLanes s active f).1 :=
  .foldl_fst hs fun _ _ h => by
    split
    · exact h.long
    · exact h
theorem shuffle_keeps (hs : Keeps s₀ s) {h : Hdr} {d a b : Opd} {sel : Nat → Nat → Nat → Nat} :
    Keeps s₀ (shuffle s h d a b sel) := issue_keeps hs fun _ _ h => longLanes_keeps h
theorem collective_keeps (hs : Keeps s₀ s) {h : Hdr} {d a : Opd} {c : Collective} : Keeps s₀ (collective s h d a c) := by
  unfold collective
  extract_lets k shape
  refine issue_keeps hs fun _ _ h => ?_
  dsimp only
  split
  · split
    · split
      · exact h
      · exact h.long
    · exact h
    · exact h.long
  · exact .ite h h.long
theorem redux_keeps (hs : Keeps s₀ s) {h : Hdr} {d a : Opd} {op : RedOp} : Keeps s₀ (redux s h d a op) := collective_keeps hs

/-! ### The array, its operands and its rows (R217 to R239) -/

theorem Keeps.anvilView (hs : Keeps s₀ s) {c : Nat} : Keeps s₀ (s.anvilView c).2 := .foldl_snd hs fun _ _ h => h.free
theorem Keeps.markRows (hs : Keeps s₀ s) {c n : Nat} {rows : List Nat} : Keeps s₀ (s.markRows c n rows) := hs.modCluster
theorem Keeps.actLane (hs : Keeps s₀ s) {c : Nat} {a : LaneAct} : Keeps s₀ (s.actLane c a) := by
  unfold State.actLane
  split
  · exact hs.modCluster
  · exact hs.modCluster
  · exact .ite hs.count.modCluster hs.modCluster
  · exact hs
  · split
    · exact hs
    · exact .ite hs hs.setWarp
theorem Keeps.inLane (hs : Keeps s₀ s) {a : LaneAct} : Keeps s₀ (s.inLane a) := .ite hs.actLane hs.modMyCluster
theorem Keeps.takeBusy (hs : Keeps s₀ s) {c k : Nat} {l : List LaneAct} : Keeps s₀ (s.takeBusy c k l) := by
  unfold State.takeBusy
  split
  · exact hs
  · exact hs.setWarp.take
theorem Keeps.lanesDue (hs : Keeps s₀ s) {c : Nat} {sel : LaneAct → Bool} : Keeps s₀ (s.lanesDue c sel) :=
  .ite hs ((hs.modCluster.foldl fun _ _ h => h.actLane).modCluster.foldl fun _ _ h => h.takeBusy)
theorem Keeps.lanesTo (hs : Keeps s₀ s) {c n : Nat} : Keeps s₀ (s.lanesTo c n) := hs.lanesDue
theorem Keeps.fillsNow (hs : Keeps s₀ s) {c : Nat} : Keeps s₀ (s.fillsNow c) := hs.lanesDue
theorem Keeps.anvilEnd (hs : Keeps s₀ s) {c : Nat} {o : AOp} : Keeps s₀ (s.anvilEnd c o) := by
  unfold State.anvilEnd
  extract_lets p t u
  have ht : Keeps s₀ t := hs.anvilView.modCluster
  have hu : Keeps s₀ u := by
    unfold u
    split
    · exact ht.modCluster.count
    · exact ht.modCluster.count
    · exact ht
    · dsimp only
      split
      · exact ht
      · exact ht.setWarp.count.count.stir
    · exact ht.modCluster
    · exact ht.modCluster
  exact hu.count
theorem execAnvilOpBegin_keeps {s0 : State} (hs : Keeps s₀ s0) {cl : Nat} : NextWith (execAnvilOpBegin cl s0) (Keeps s₀) := by
  refine Keeps.next ?_
  split
  · exact hs
  · exact .ite hs hs.lanesTo.setCluster.count
theorem execMmahTileCommit_keeps {s0 : State} (hs : Keeps s₀ s0) {cl : Nat} :
    NextWith (execMmahTileCommit cl s0) (Keeps s₀) := by
  refine Keeps.next ?_
  split
  · split
    · exact .ite hs.lanesTo.anvilView.setCluster.count.count.count.releaseAll hs
    · exact hs
  · exact hs
theorem execAnvilOpCommit_keeps (hs : Keeps s₀ s) {cl : Nat} : NextWith (execAnvilOpCommit cl s) (Keeps s₀) := by
  refine Keeps.next ?_
  split
  · split
    · exact .ite hs.lanesTo.anvilEnd.releaseAll hs
    · exact hs
  · exact hs
theorem staged_keeps (hs : Keeps s₀ s) {n : Nat} {f : State → State} (hf : ∀ y, Keeps s₀ y → Keeps s₀ (f y)) :
    Keeps s₀ (staged s n f) := .ite (hf _ hs.lanesTo.modMyCluster) hs
theorem anvilWord_keeps (hs : Keeps s₀ s) {a : AnvilWord} : Keeps s₀ (anvilWord s a) :=
  .ite hs (issue_keeps hs fun _ _ h => by
    split
    · exact h
    · split <;> dsimp only
      · exact h.count
      · exact h.modMyCluster.foldl fun _ _ h => h.pend)
theorem rowsWord_keeps (hs : Keeps s₀ s) {h : Hdr} {a b : Nat} {op : Nat → Nat → AOp} : Keeps s₀ (rowsWord s h a b op) :=
  anvilWord_keeps hs
theorem execOclm_keeps (hs : Keeps s₀ s) {h : Hdr} {d : Nat} {n : BitVec 7} : NextWith (execOclm h d n s) (Keeps s₀) :=
  Keeps.next (issue_keeps hs fun _ _ h => by
    split
    · exact h
    · dsimp only
      exact h.setCluster.pend.pend)
theorem execOclmResult_keeps (hs : Keeps s₀ s) {cl id : Nat} : NextWith (execOclmResult cl id s) (Keeps s₀) := by
  refine Keeps.next ?_
  split
  · exact hs
  · dsimp only
    split
    · exact hs.modCluster
    · exact hs.modCluster.setWarp.stir
theorem slotWord_keeps (hs : Keeps s₀ s) {h : Hdr} {a n : Nat} {f : State → Word → State}
    (hf : ∀ y v, Keeps s₀ y → Keeps s₀ (f y v)) : Keeps s₀ (slotWord s h a n f) :=
  issue_keeps hs fun _ _ h => by
    split
    · exact h
    · exact hf _ _ h
theorem execOwait_keeps (hs : Keeps s₀ s) {h : Hdr} {a : Nat} {n : BitVec 7} : NextWith (execOwait h a n s) (Keeps s₀) :=
  Keeps.next (slotWord_keeps hs fun _ _ h => .ite h h.await)
theorem release_keeps (hs : Keeps s₀ s) {h : Hdr} {a : Nat} {n : BitVec 7} {re : Bool} : Keeps s₀ (release s h a n re) :=
  slotWord_keeps hs fun _ _ h => .ite h.await h.fillsNow.modMyCluster
theorem execOwaitWake_keeps (hs : Keeps s₀ s) {cl id : Nat} : NextWith (execOwaitWake cl id s) (Keeps s₀) := by
  refine Keeps.next ?_
  split
  · split
    · exact .ite hs.endWait hs
    · exact hs
  · exact hs
theorem execOrelAct_keeps (hs : Keeps s₀ s) {cl id : Nat} : NextWith (execOrelAct cl id s) (Keeps s₀) := by
  refine Keeps.next ?_
  split
  · split
    · exact .ite hs hs.fillsNow.modCluster.endWait
    · exact hs
  · exact hs
theorem hmWord_keeps (hs : Keeps s₀ s) {h : Hdr} {hnum : List Nat} {d : Nat} {f : Warp → BitVec 256} :
    Keeps s₀ (hmWord s h hnum d f) := issue_keeps hs (perRun_keeps fun _ _ h => h.modMe)
theorem execHmopCount_keeps (hs : Keeps s₀ s) {h : Hdr} {d a : Nat} {lo n1 : BitVec 8} :
    NextWith (execHmopCount h d a lo n1 s) (Keeps s₀) :=
  Keeps.next (issue_keeps hs (perRun_keeps fun _ _ h => h.writeReg.writeCm))
theorem accOnly_keeps (hs : Keeps s₀ s) {f : State → State} (hf : Keeps s₀ (f s)) : Keeps s₀ (accOnly s f) := .ite hf hs.noWord
theorem ofillLane_keeps {x : State} (hs : Keeps s₀ x) {conv : Nat} {ns sb : Bool} {d : Nat} {a b c : Opd} {t : Nat}
    {ts : List Nat} : LaneKeeps s₀ (ofillLane conv ns sb d a b c x t ts) := by
  unfold ofillLane
  dsimp only
  split
  · exact hs
  · exact .ite hs (.ite hs (.ite hs hs.orSt.inLane))
theorem Keeps.markLanes (hs : Keeps s₀ s) {n : Nat} {once : Bool} {row : Nat → Nat} {l : List Nat} :
    Keeps s₀ (s.markLanes n once row l) := by
  induction l generalizing s with
  | nil => exact hs
  | cons t r ih => exact ih (.ite hs hs.inLane)
theorem execOfill_keeps (hs : Keeps s₀ s) {h : Hdr} {rf ns sb : Bool} {conv : BitVec 5} {d : Nat} {a b c : Opd} :
    NextWith (execOfill h rf ns sb conv d a b c s) (Keeps s₀) :=
  Keeps.next (accOnly_keeps hs (.ite hs (issue_keeps hs fun x act h => by
    have hp := lanes_keeps (once := uniform [a, b, c]) (f := ofillLane conv.toNat ns sb d a b c)
      (fun _ _ _ h => ofillLane_keeps h) x act h
    exact .ite hp.markLanes hp)))
theorem execOfillAssay_keeps (hs : Keeps s₀ s) {h : Hdr} {d a : Nat} {c : Opd} :
    NextWith (execOfillAssay h d a c s) (Keeps s₀) :=
  Keeps.next (accOnly_keeps hs (.ite hs (issue_keeps hs fun _ _ h => by
    dsimp only
    split
    · exact h
    · exact h.modMyCluster.markRows.orSt)))
theorem execAwset_keeps (hs : Keeps s₀ s) {h : Hdr} {w : BitVec 5} {a b : Nat} : NextWith (execAwset h w a b s) (Keeps s₀) :=
  Keeps.next (accOnly_keeps hs (issue_keeps hs (perRun_keeps fun _ _ h => by
    dsimp only
    split
    · exact h
    · split
      · exact h.count
      · split
        · exact h.modWarp
        · exact h)))
theorem rowLane_keeps {x : State} (hs : Keeps s₀ x) {t n : Nat} {a : Opd} {b c : Option Opd}
    {f : State → Nat → Nat → LaneOut} (hf : ∀ row col, LaneKeeps s₀ (f x row col)) : LaneKeeps s₀ (rowLane x t n a b c f) := by
  unfold rowLane
  split
  · exact Keeps.ite hs.count hs
  · exact hf _ _
theorem execAccrd_keeps (hs : Keeps s₀ s) {h : Hdr} {d a b : Opd} : NextWith (execAccrd h d a b s) (Keeps s₀) :=
  Keeps.next (accOnly_keeps hs (staged_keeps hs fun _ h => issue_keeps h (lanes_keeps fun _ _ _ h => rowLane_keeps h fun _ _ =>
    h.pend.inLane)))
theorem execAccrdW_keeps (hs : Keeps s₀ s) {h : Hdr} {d a b : Opd} : NextWith (execAccrdW h d a b s) (Keeps s₀) :=
  Keeps.next (accOnly_keeps hs (issue_keeps hs (lanes_keeps fun _ _ _ h => rowLane_keeps h fun _ _ => h.freshId.pend.modMe)))
theorem execAccrdWWake_keeps (hs : Keeps s₀ s) {cl slot id : Nat} : NextWith (execAccrdWWake cl slot id s) (Keeps s₀) := by
  refine Keeps.next ?_
  split
  · split
    · exact .ite hs.lanesTo.modCluster.modWarp.release.stir hs
    · exact hs
  · exact hs
theorem execAccwr_keeps (hs : Keeps s₀ s) {h : Hdr} {a b c : Opd} : NextWith (execAccwr h a b c s) (Keeps s₀) :=
  Keeps.next (accOnly_keeps hs (staged_keeps hs fun _ h => issue_keeps h (lanes_keeps fun _ _ _ h => rowLane_keeps h fun _ _ =>
    .ite h (.ite h.count h.inLane))))
theorem execAccrel_keeps (hs : Keeps s₀ s) {h : Hdr} {a : Opd} : NextWith (execAccrel h a s) (Keeps s₀) :=
  Keeps.next (accOnly_keeps hs (staged_keeps hs fun _ h => issue_keeps h (lanes_keeps fun _ _ _ h => rowLane_keeps h fun _ _ =>
    h.freshId.modMe.release)))
theorem execRegisterWrite_keeps (hs : Keeps s₀ s) {cl slot i : Nat} {val : Word} :
    NextWith (execRegisterWrite cl slot i val s) (Keeps s₀) := by
  refine Keeps.next ?_
  split
  · exact .ite hs.modWarp hs
  · exact hs

end Sys2Proof.Machine
end

section
/-! SUPPORT. Loads, stores, atomics and waits, the pages of objects and their shadows keep the time base and the canonical
memory. -/

namespace Sys2Proof.Machine

set_option Elab.async false

variable {s₀ s t : State} {α β : Type}

/-! ### Commands, loads and stores at issue -/

theorem Keeps.releaseWarp (hs : Keeps s₀ s) {c k : Nat} : GotKeeps s₀ (s.releaseWarp c k).1 := by
  unfold State.releaseWarp
  dsimp only
  split
  · trivial
  · exact hs.flush
theorem Keeps.enqueue (hs : Keeps s₀ s) {c k : Nat} {m : Cmd} : Within (Keeps s₀) (s.enqueue c k m) := by
  unfold State.enqueue
  dsimp only
  split
  · trivial
  · exact (Keeps.modCluster hs.same).modWarp
theorem Keeps.go (hs : Keeps s₀ s) {c k : Nat} {m : Cmd} {rel : Bool} : GoKeeps s₀ (s.go c k m rel) := by
  have hr : GotKeeps s₀ (if rel then s.releaseWarp c k else (.ok s (), 0)).1 := by
    split
    · exact hs.releaseWarp
    · exact hs
  unfold State.go
  split
  · trivial
  · split
    · split
      · exact ((hr.of_pair ‹_›).enqueue.of_eq ‹_›).holdGlobal
      · trivial
    · trivial
    · trivial
theorem storeGo_keeps {x : State} (hs : Keeps s₀ x) {ts : List Nat} : LaneKeeps s₀ (storeGo x ts) := by
  unfold storeGo
  have h : Keeps s₀ (x.modMe Warp.drainWin) := hs.modMe
  dsimp only
  split
  · exact h
  · split
    · exact h.go.of_eq ‹_›
    · exact h.await
    · exact h
theorem execCwgo_keeps (hs : Keeps s₀ s) {cl slot : Nat} {run : List Nat} : NextWith (execCwgo cl slot run s) (Keeps s₀) := by
  refine Keeps.next ?_
  split
  · exact hs
  · split
    · split
      · exact (hs.go.of_eq ‹_›).endWait
      · exact hs
      · exact hs.failWait
    · exact hs
theorem Keeps.countGo (hs : Keeps s₀ s) {c m : Nat} : Keeps s₀ (s.countGo c m) := hs.count
theorem LoadWord.lane_keeps {x : State} (hs : Keeps s₀ x) {l : LoadWord} {group : Nat} {t : Nat} {ts : List Nat} :
    LaneKeeps s₀ (l.lane group x t ts) := by
  unfold LoadWord.lane
  dsimp only
  split
  · exact hs
  · exact hs.freshId.pendWide.modMe
theorem loadWord_keeps (hs : Keeps s₀ s) {l : LoadWord} : Keeps s₀ (loadWord s l) :=
  issue_keeps hs fun _ _ h => lanes_keeps (fun _ _ _ h => LoadWord.lane_keeps h) _ _ h
theorem execLdk_keeps (hs : Keeps s₀ s) {h : Hdr} {scl : BitVec 2} {mode : LdMode} {conv : BitVec 5} {d a b : Opd}
    {c : CRef} : NextWith (execLdk h scl mode conv d a b c s) (Keeps s₀) := by
  refine Keeps.next ?_
  split
  · exact loadWord_keeps hs
  · exact loadWord_keeps hs
theorem StoreWord.lane_keeps {x : State} (hs : Keeps s₀ x) {l : StoreWord} {t : Nat} {ts : List Nat} :
    LaneKeeps s₀ (l.lane x t ts) := by
  unfold StoreWord.lane
  dsimp only
  split
  · exact hs
  · split
    · exact hs
    · split
      · split
        · exact storeGo_keeps hs
        · exact hs.modMe
      · exact hs.orSt.freshId.count.send
theorem storeWordOf_keeps (hs : Keeps s₀ s) {l : StoreWord} : Keeps s₀ (storeWordOf s l) :=
  issue_keeps hs fun _ _ h => lanes_keeps (fun _ _ _ h => StoreWord.lane_keeps h) _ _ h
theorem ldhLane_keeps {x : State} (hs : Keeps s₀ x) {h : Hdr} {m : MemOpd} {conv q : Nat} {d : Opd} {group : Nat}
    {once : Bool} {t : Nat} {ts : List Nat} : LaneKeeps s₀ (ldhLane h m conv q d group once x t ts) := by
  unfold ldhLane
  dsimp only
  split
  · exact hs
  · exact hs.freshId.pendWide.send
theorem ldhWord_keeps (hs : Keeps s₀ s) {h : Hdr} {scl : BitVec 2} {conv : BitVec 5} {d a b : Opd} {q : Nat} :
    Keeps s₀ (ldhWord s h scl conv d a b q) := issue_keeps hs fun _ _ h => lanes_keeps (fun _ _ _ h => ldhLane_keeps h) _ _ h
theorem Keeps.sthStep (hs : Keeps s₀ s) {c k : Nat} {r : Req} {bytes : List Byte} {q : Nat} :
    Keeps s₀ (s.sthStep c k r bytes q) := by
  unfold State.sthStep
  dsimp only
  split
  · exact hs
  · split
    · exact (hs.stashWrite.of_eq ‹_›).modWarp.modCluster
    · exact hs
    · exact hs.modWarp
theorem sthLane_keeps {x : State} (hs : Keeps s₀ x) {l : StoreWord} {q group : Nat} {t : Nat} {ts : List Nat} :
    LaneKeeps s₀ (sthLane l q group x t ts) := by
  unfold sthLane
  dsimp only
  split
  · exact hs
  · split
    · exact hs
    · exact hs.freshId.count.send
theorem sthWord_keeps (hs : Keeps s₀ s) {h : Hdr} {scl : BitVec 2} {acc : Bool} {conv : BitVec 5} {a b c : Opd} {q : Nat} :
    Keeps s₀ (sthWord s h scl acc conv a b c q) :=
  issue_keeps hs fun _ _ h => lanes_keeps (fun _ _ _ h => sthLane_keeps h) _ _ h
theorem capWord_keeps (hs : Keeps s₀ s) {h : Hdr} {d : Opd} {l : List Src} {addr : Bool} {f : State → Warp → Nat → Dword} :
    Keeps s₀ (capWord s h d l addr f) :=
  issue_keeps hs (lanes_keeps fun _ _ _ h => by
    split
    · exact h
    · exact h.writeReg.writeReg)
theorem execTpl_keeps (hs : Keeps s₀ s) {h : Hdr} {a : Opd} : NextWith (execTpl h a s) (Keeps s₀) :=
  Keeps.next (issue_keeps hs (lanes_keeps fun _ _ _ h => h.foldl fun _ _ h => h.writeCm))
theorem execTplT_keeps (hs : Keeps s₀ s) {h : Hdr} : NextWith (execTplT h s) (Keeps s₀) :=
  Keeps.next (issue_keeps hs (perLane_keeps fun _ _ h => h.writeCm))
theorem execAcpt_keeps (hs : Keeps s₀ s) {h : Hdr} {d : Opd} : NextWith (execAcpt h d s) (Keeps s₀) :=
  Keeps.next (issue_keeps hs (lanes_keeps fun _ _ _ h => h.setMe.count))
theorem execTclr_keeps (hs : Keeps s₀ s) {h : Hdr} : NextWith (execTclr h s) (Keeps s₀) :=
  Keeps.next (issue_keeps hs (perLane_keeps fun _ _ h => h.modMe))
theorem Keeps.prefetch (hs : Keeps s₀ s) {c ctx obj off n lvl a : Nat} : Keeps s₀ (s.prefetch c ctx obj off n lvl a) := by
  unfold State.prefetch
  extract_lets come y ws p
  have hcome : Keeps s₀ come := (hs.foldl fun _ _ h => h.mscFetch).l2Keep
  have hy : Keeps s₀ y := by
    unfold y
    split
    · exact hcome.telling.foldl fun _ _ h => h.fillSector
    · exact .ite hs.mscFill hs
    · exact hcome
  exact hy.modCluster
theorem Keeps.prefetchGo (hs : Keeps s₀ s) {c : Nat} {w : Warp} {obj off n lvl : Nat} :
    Keeps s₀ (s.prefetchGo c w obj off n lvl) := by
  unfold State.prefetchGo
  dsimp only
  split
  · exact hs.count.prefetch
  · exact hs.count
  · exact hs.count
theorem pftLane_keeps {x : State} (hs : Keeps s₀ x) {m : MemOpd} {lvl : Nat} {line : Bool} {t : Nat} {ts : List Nat} :
    LaneKeeps s₀ (pftLane m lvl line x t ts) := by
  unfold pftLane
  dsimp only
  split
  · exact hs.count
  · exact Keeps.ite hs.modMyCluster hs.prefetchGo
theorem execPft_keeps (hs : Keeps s₀ s) {h : Hdr} {scl : BitVec 2} {lim : BitVec 4} {lvl : BitVec 2} {line : Bool} {a b : Opd} :
    NextWith (execPft h scl lim lvl line a b s) (Keeps s₀) :=
  Keeps.next (issue_keeps hs fun _ _ h => lanes_keeps (fun _ _ _ h => pftLane_keeps h) _ _ h.count)

/-! ### Replies, tickets and the ends of requests -/

theorem Keeps.lvtTrue (hs : Keeps s₀ s) {c : Nat} {cobj : Nat} {l : Load} {v : Word} : Keeps s₀ (s.lvtTrue c cobj l v) :=
  .ite hs.modCluster hs
theorem execLimitExpiry_keeps (hs : Keeps s₀ s) {cl slot id : Nat} : NextWith (execLimitExpiry cl slot id s) (Keeps s₀) := by
  refine Keeps.next ?_
  split
  · exact hs
  · dsimp only
    split
    · exact hs
    · split
      · exact hs.count.modWarp.count
      · exact hs.count.setWarp.count.stir
theorem redemLane_keeps {x : State} (hs : Keeps s₀ x) {d : Opd} {t : Nat} {ts : List Nat} :
    LaneKeeps s₀ (redemLane d x t ts) := by
  unfold redemLane
  dsimp only
  split
  · exact hs.long
  · split
    · exact hs.setMe
    · exact hs.setMe.count.long
    · exact hs.setMe.await
theorem execRedem_keeps (hs : Keeps s₀ s) {h : Hdr} {d : Opd} : NextWith (execRedem h d s) (Keeps s₀) :=
  Keeps.next (issue_keeps hs (lanes_keeps fun _ _ _ h => redemLane_keeps h))
theorem Keeps.redeemed (hs : Keeps s₀ s) {c k : Nat} : Keeps s₀ (s.redeemed c k) :=
  hs.foldl fun _ _ h => by
    split
    · dsimp only
      split
      · exact h
      · split
        · exact h
        · exact h.setWarp.failWait
        · exact h.setWarp.count.resume
    · exact h
theorem Keeps.replied (hs : Keeps s₀ s) {c k : Nat} {l : Load} {v : Nat} : Keeps s₀ (s.replied c k l v) := by
  unfold State.replied
  dsimp only
  split
  · exact hs.setWarp.lvtTrue.stir
  · exact hs.modWarp.count.lvtTrue.redeemed.stir
theorem Keeps.loadFailed (hs : Keeps s₀ s) {c k : Nat} {l : Load} {cause : Byte} : Keeps s₀ (s.loadFailed c k l cause) := by
  unfold State.loadFailed
  dsimp only
  split
  · exact hs.setWarp.stir
  · exact hs.modWarp.redeemed.stir
theorem execLoadReply_keeps (hs : Keeps s₀ s) {cl slot id : Nat} {via : Via} :
    NextWith (execLoadReply cl slot id via s) (Keeps s₀) := by
  refine Keeps.next ?_
  split
  · exact hs
  · split
    · exact hs
    · split
      · exact .ite hs hs.replied
      · split
        · exact hs
        · split
          · exact (GotKeeps.of_some hs.readLoad ‹_›).replied
          · exact hs.loadFailed
          · exact hs
theorem Keeps.drainError (hs : Keeps s₀ s) {c k : Nat} {cause : Byte} {addr : Dword} {pc : BitVec 40} {ts : List Nat} :
    Keeps s₀ (s.drainError c k cause addr pc ts) := hs.modWg.post.setFl
theorem Keeps.reqFailed (hs : Keeps s₀ s) {c k : Nat} {r : Req} {d : Dst} {conv : Nat} {cm : Bool} {cause : Byte} :
    Keeps s₀ (s.reqFailed c k r d conv cm cause) := (Keeps.ite hs.setWarp.drainError hs.setWarp).stir
theorem Keeps.atomStep (hs : Keeps s₀ s) {c k : Nat} {r : Req} {fn ty : Nat} {x : Dword} {d : Dst} :
    Keeps s₀ (s.atomStep c k r fn ty x d) := by
  unfold State.atomStep
  dsimp only
  split
  · exact hs
  · split
    · exact (hs.performAt.of_eq ‹_›).modWarp.stir
    · exact hs
    · exact hs.reqFailed
theorem Keeps.longDone (hs : Keeps s₀ s) {c k : Nat} {l : Long} : Keeps s₀ (s.longDone c k l) := hs.setWarp.stir
theorem execLdhWake_keeps (hs : Keeps s₀ s) {cl slot id : Nat} : NextWith (execLdhWake cl slot id s) (Keeps s₀) := by
  refine Keeps.next ?_
  split
  · exact hs
  · split
    · dsimp only
      split
      · exact hs
      · split
        · exact (hs.stashRead.of_eq ‹_›).modWarp.modCluster.stir
        · exact hs
        · exact hs.reqFailed
    · exact hs
theorem execSthWake_keeps (hs : Keeps s₀ s) {cl slot id : Nat} : NextWith (execSthWake cl slot id s) (Keeps s₀) := by
  refine Keeps.next ?_
  split
  · exact hs
  · split
    · exact hs.sthStep.stir
    · exact hs
theorem execStoreMemoryCause_keeps (hs : Keeps s₀ s) {cl slot id : Nat} :
    NextWith (execStoreMemoryCause cl slot id s) (Keeps s₀) := by
  refine Keeps.next ?_
  split
  · exact hs
  · split
    · exact (Keeps.ite hs.modWarp.drainError hs.modWarp.modWarp).stir
    · exact hs

/-! ### Maps of the stash, gathers and scatters -/

theorem Keeps.mapBack (hs : Keeps s₀ s) {c k t : Nat} {ts : List Nat} {m : Map} : Within (Keeps s₀) (s.mapBack c k t ts m) :=
  Within.foldl (o := some s) hs fun _ _ ho => ho.bind fun _ h => by
    split
    · exact h
    · dsimp only
      split
      · exact (h.flushWord.of_eq ‹_›).modCluster.count
      · exact h.room.map fun _ h => h.ownWord.modWarp
      · exact h.modCluster.modWarp
theorem afterMap_keeps (hs : Keeps s₀ s) {x : Shape} {id : Nat} {f : State → State} (hf : Keeps s₀ (f s)) :
    Keeps s₀ (afterMap s x id f) := .ite hs hf
theorem Keeps.unmap (hs : Keeps s₀ s) {c k t : Nat} {ts : List Nat} {id : Nat} : Keeps s₀ (s.unmap c k t ts id) :=
  .ite hs (hs.mapBack.getD hs).modCluster.modWg
theorem execSmap_keeps (hs : Keeps s₀ s) {h : Hdr} {id : BitVec 3} {a b c : Nat} :
    NextWith (execSmap h id a b c s) (Keeps s₀) :=
  Keeps.next (afterMap_keeps hs (issue_keeps hs (perRun_keeps fun _ _ h => by
    dsimp only
    split
    · exact h
    · exact h.unmap.setMyWg.modMyCluster)))
theorem execSunmap_keeps (hs : Keeps s₀ s) {h : Hdr} {id : BitVec 3} : NextWith (execSunmap h id s) (Keeps s₀) :=
  Keeps.next (afterMap_keeps hs (issue_keeps hs (perRun_keeps fun _ _ h => h.unmap)))
theorem execSflush_keeps (hs : Keeps s₀ s) {h : Hdr} {id : BitVec 3} : NextWith (execSflush h id s) (Keeps s₀) :=
  Keeps.next (afterMap_keeps hs (issue_keeps hs (perRun_keeps fun _ _ h => Keeps.ite (h.mapBack.getD h) h)))
theorem Slice.send_keeps {x : State} (hs : Keeps s₀ x) {g : Slice} {ts : List Nat} {op : Nat → ReqOp} :
    Keeps s₀ (g.send x ts op) := by
  unfold Slice.send
  exact hs.modMe
theorem sliceWord_keeps (hs : Keeps s₀ s) {g : Slice} {f : State → List Nat → State}
    (hf : ∀ y ts, Keeps s₀ y → Keeps s₀ (f y ts)) : Keeps s₀ (sliceWord s g f) :=
  .ite hs (issue_keeps hs (perRun_keeps fun _ _ h => by
    split
    · exact h
    · exact hf _ _ h))
theorem execGath_keeps (hs : Keeps s₀ s) {h : Hdr} {esz : BitVec 2} {d a b c : Nat} :
    NextWith (execGath h esz d a b c s) (Keeps s₀) :=
  Keeps.next (sliceWord_keeps hs fun _ _ h => (Slice.send_keeps h).modMyCluster.count)
theorem scatter_keeps (hs : Keeps s₀ s) {h : Hdr} {d a b c fn : Nat} : Keeps s₀ (scatter s h d a b c fn) :=
  sliceWord_keeps hs fun _ _ h => (Slice.send_keeps h).count
theorem execGathElementReply_keeps (hs : Keeps s₀ s) {cl slot id elem : Nat} :
    NextWith (execGathElementReply cl slot id elem s) (Keeps s₀) := by
  refine Keeps.next ?_
  split
  · exact hs
  · split
    · split
      · exact hs
      · extract_lets ctx failed read
        have hfailed (cause : Byte) : Keeps s₀ (failed cause) := hs.modWarp.count.stir
        have hread : GotKeeps s₀ read := .ite trivial hs.weakSlice
        clear_value read
        split
        · exact hs
        · exact hfailed _
        · have hz : Keeps s₀ _ := hread
          split
          · exact hs
          · exact hfailed _
          · exact (hz.stashWrite.of_eq ‹_›).modWarp.modCluster.count.stir
    · exact hs
theorem Keeps.recall (hs : Keeps s₀ s) {ctx obj i a : Nat} : Keeps s₀ (s.recall ctx obj i a) := by
  unfold State.recall
  split
  · exact hs
  · exact hs.dropOwners.putWord
theorem execScatUpdateAtSlice_keeps (hs : Keeps s₀ s) {cl slot id elem : Nat} :
    NextWith (execScatUpdateAtSlice cl slot id elem s) (Keeps s₀) := by
  refine Keeps.next ?_
  split
  · exact hs
  · split
    · extract_lets others ctx i
      split
      · exact hs
      · split
        · exact hs
        · exact hs.modWarp.count.stir
        · next s0 a e =>
          have h0 : Keeps s₀ s0 := by
            split at e
            · cases e
            · exact hs.telling.slice.of_eq e
          extract_lets x ups z z1
          have hz : Keeps s₀ z := h0.recall.forget.dropUps
          have hz1 : Keeps s₀ z1 := hz.same
          exact hz1.modWarp.count.stir
    · exact hs

/-! ### Frames, pages and shadows (R98, R184, R193 to R199) -/

theorem Keeps.newFrames (hs : Keeps s₀ s) {tier : Bool} {n : Nat} : Within (fun p => Keeps s₀ p.2) (s.newFrames tier n) := by
  unfold State.newFrames
  dsimp only
  split
  · trivial
  · exact Keeps.ite hs.same hs.same
theorem Keeps.takeFrames (hs : Keeps s₀ s) {tier : Bool} {n : Nat} : Within (fun p => Keeps s₀ p.2) (s.takeFrames tier n) :=
  Within.map (Keeps.newFrames hs.same) fun _ h => h
theorem Keeps.listFrames (hs : Keeps s₀ s) {d : Desc} : Within (fun p => Keeps s₀ p.2) (s.listFrames d) :=
  .ite hs.takeFrames hs.newFrames

/- `allocPages` is unfolded as a constant, not where it is applied: there the kernel would evaluate the search for frames, with
its sizes, to compare the two forms. -/

theorem Keeps.allocPages (hs : Keeps s₀ s) {d : Desc} : Within (fun p => Keeps s₀ p.2) (s.allocPages d) := by
  suffices h : ∀ f, f = State.allocPages → Within (fun p => Keeps s₀ p.2) (f s d) from h _ rfl
  intro f hf
  delta State.allocPages at hf
  subst hf
  beta_reduce
  split
  · trivial
  · next lf x e =>
    have hx : Keeps s₀ x := hs.listFrames.of_eq e
    split
    · trivial
    · next pf y e =>
      have hy : Keeps s₀ y := by
        split at e
        · exact hx.takeFrames.of_eq e
        · cases e
          exact hx
      exact (Keeps.same hy).foldl fun _ _ h => (Keeps.ite h h.free).setPd
theorem Keeps.freeBlock (hs : Keeps s₀ s) {list : Nat} : Keeps s₀ (s.freeBlock list) := by
  unfold State.freeBlock
  split
  · exact hs
  · exact (hs.foldl fun _ _ h => h.zeroAt).same
theorem Keeps.zeroPages (hs : Keeps s₀ s) {d : Desc} {list : Nat} : Keeps s₀ (s.zeroPages d list) :=
  hs.foldl fun _ _ h => by
    split
    · exact .ite h.zeroAt h
    · exact h
theorem Keeps.keepFrames (hs : Keeps s₀ s) {ctx obj a n : Nat} : Keeps s₀ (s.keepFrames ctx obj a n) := .ite hs hs.same
theorem Keeps.mapFrames (hs : Keeps s₀ s) {ctx obj a n : Nat} : Keeps s₀ (s.mapFrames ctx obj a n) :=
  .ite hs (hs.foldl fun _ _ h => .ite h h.zeroAt).keepFrames
theorem Keeps.keepPages (hs : Keeps s₀ s) {ctx obj : Nat} {d : Desc} : Keeps s₀ (s.keepPages ctx obj d) :=
  hs.foldl fun _ _ h => h.keepFrames
theorem Keeps.mapPages (hs : Keeps s₀ s) {ctx obj : Nat} {d : Desc} : Keeps s₀ (s.mapPages ctx obj d) :=
  hs.foldl fun _ _ h => h.mapFrames
theorem Keeps.dropFrames (hs : Keeps s₀ s) {ctx obj : Nat} : Keeps s₀ (s.dropFrames ctx obj) := hs.same
theorem Keeps.freeExtents (hs : Keeps s₀ s) {ctx obj : Nat} : Keeps s₀ (s.freeExtents ctx obj) := .ite hs hs.zeroPages.freeBlock
theorem Keeps.dropShadow (hs : Keeps s₀ s) {ctx obj : Nat} : Keeps s₀ (s.dropShadow ctx obj) := hs.same
theorem Keeps.copyPage (hs : Keeps s₀ s) {ctx obj j : Nat} : Keeps s₀ (s.copyPage ctx obj j) := by
  unfold State.copyPage
  dsimp only
  split
  · exact hs.telling.putPhysBytes
  · exact hs

/- Here the search for places and for pages stays opaque, for the same reason. -/

theorem Keeps.createShadow (hs : Keeps s₀ s) {ctx obj off len : Nat} {deferred : Bool} {seq : Dword} :
    MadeKeeps s₀ (s.createShadow ctx obj off len deferred seq) := by
  unfold State.createShadow
  have ha (d : Desc) : Within (fun p => Keeps s₀ p.2) (s.allocPages d) := hs.allocPages
  generalize worstPlace = place
  generalize s.allocPages = alloc at ha ⊢
  extract_lets d part p
  generalize place _ = pl
  specialize ha d
  generalize alloc d = al at ha ⊢
  cases pl with
  | found => 
    cases al with
    | none => trivial
    | some q =>
      have hq : Keeps s₀ q.2 := ha
      dsimp -zeta only
      extract_lets a y z
      have hy : Keeps s₀ y := hq.setPd
      have hz : Keeps s₀ z := hy.foldl fun _ _ h => h.copyPage
      generalize place _ = pl
      cases pl with
      | found => exact hz.same
      | fails | waits => trivial
  | fails | waits => trivial
theorem Keeps.purge (hs : Keeps s₀ s) {ctx obj : Nat} : Keeps s₀ (s.purge ctx obj) := hs.l2Drop.same
theorem Keeps.publish (hs : Keeps s₀ s) {ctx obj : Nat} : Within (Keeps s₀) (s.publish ctx obj) := by
  unfold State.publish
  split
  · trivial
  · extract_lets q a d1 d2 d3 y z v
    have hv : Keeps s₀ v := hs.freeExtents.setPd.setPd.setPd.purge.dropShadow
    exact hv.same
theorem Keeps.discardShadow (hs : Keeps s₀ s) {ctx obj : Nat} : Keeps s₀ (s.discardShadow ctx obj) :=
  hs.freeBlock.setPd.dropShadow
theorem Keeps.countUp (hs : Keeps s₀ s) {ctx obj off n : Nat} : Within (Keeps s₀) (s.countUp ctx obj off n) := by
  unfold State.countUp
  split
  · exact hs.objWrite
  · trivial

/-! ### Strong accesses, waits, bindings and acquires -/

theorem Keeps.lateWrite (hs : Keeps s₀ s) {c k t : Nat} {d : Dst} {v : Word} {tag : BitVec 2} {plate : Bool} :
    Keeps s₀ (s.lateWrite c k t d v tag plate) := hs.setWarp.count
theorem Keeps.untied (hs : Keeps s₀ s) {t : Nat} {d : Dst} : Keeps s₀ (s.untied t d) := hs.setMe.count
theorem Keeps.lateCm (hs : Keeps s₀ s) {c k : Nat} {ts : List Nat} {b : Bool} : Keeps s₀ (s.lateCm c k ts b) := hs.modWarp
theorem afterShake_keeps (hs : Keeps s₀ s) {x : Shape} {f : State → State} (hf : Keeps s₀ (f s)) :
    Keeps s₀ (afterShake s x f) := .ite hs hf
theorem afterStrong_keeps (hs : Keeps s₀ s) {x : Shape} {f : State → State} (hf : Keeps s₀ (f s)) :
    Keeps s₀ (afterStrong s x f) := .ite hf (.ite hs hf)
theorem Keeps.waitRead (hs : Keeps s₀ s) {c k id obj off : Nat} {sc : Scope} : GotKeeps s₀ (s.waitRead c k id obj off sc) :=
  (Keeps.ite hs.demand hs).strongRead
theorem Keeps.look4 (hs : Keeps s₀ s) {c k id : Nat} {ts : List Nat} {obj off : Nat} {sc : Scope} :
    LookKeeps s₀ (s.look4 c k id ts obj off sc) := by
  unfold State.look4
  split
  · split
    · exact hs.waitRead.of_eq ‹_›
    · exact hs
    · exact hs
  · exact hs
theorem Keeps.waited (hs : Keeps s₀ s) {c k : Nat} {ts : List Nat} {d : Dst} {v : Word} {b : Bool} :
    Keeps s₀ (s.waited c k ts d v b) := hs.lateWrite.lateCm
theorem waitwLane_keeps {x : State} (hs : Keeps s₀ x) {cond : WCond} {m : MemOpd} {d cmp : Opd} {tmo : Nat} {sc : Scope}
    {once : Bool} {t : Nat} {ts : List Nat} : LaneKeeps s₀ (waitwLane cond m d cmp tmo sc once x t ts) := by
  unfold waitwLane
  dsimp only
  split
  · exact hs
  · split
    · exact hs
    · split
      · exact hs
      · split
        · exact hs.look4.fails ‹_›
        · exact (hs.look4.waits ‹_›).untied.await
        · have h := hs.look4.value ‹_›
          exact Keeps.ite h.waited h.untied.await
theorem execWaitw_keeps (hs : Keeps s₀ s) {h : Hdr} {cond : WCond} {d a b c : Opd} {tmo : BitVec 4} {scl : BitVec 2}
    {sc : Scope} : NextWith (execWaitw h cond d a b c tmo scl sc s) (Keeps s₀) :=
  Keeps.next (issue_keeps hs fun _ _ h => lanes_keeps (fun _ _ _ h => waitwLane_keeps h) _ _ h)
theorem Keeps.waitwRead (hs : Keeps s₀ s) {c k : Nat} {x : Wait} {last : Bool} : Keeps s₀ (s.waitwRead c k x last) := by
  unfold State.waitwRead
  split
  · split
    · exact hs
    · split
      · exact hs
      · exact (hs.look4.fails ‹_›).failWait
      · have h := hs.look4.value ‹_›
        exact .ite h.waited.endWait (.ite h.waited.endWait h)
  · exact hs
theorem execWaitwWake_keeps (hs : Keeps s₀ s) {cl slot id : Nat} : NextWith (execWaitwWake cl slot id s) (Keeps s₀) := by
  refine Keeps.next ?_
  split
  · exact hs.waitwRead
  · exact hs
theorem execWaitwTimeout_keeps (hs : Keeps s₀ s) {cl slot id : Nat} : NextWith (execWaitwTimeout cl slot id s) (Keeps s₀) := by
  refine Keeps.next ?_
  split
  · exact hs.waitwRead
  · exact hs
theorem AtomWord.lane_keeps {x : State} (hs : Keeps s₀ x) {a : AtomWord} {group : Nat} {t : Nat} {ts : List Nat} :
    LaneKeeps s₀ (a.lane group x t ts) := by
  unfold AtomWord.lane
  dsimp only
  split
  · exact hs
  · split
    · exact hs
    · have h := hs.freshId
      split
      · exact h.send
      · exact (Keeps.ite (h.pendWide.foldl fun _ _ h => h.pend) h.pendWide).send
theorem atomWord_keeps (hs : Keeps s₀ s) {a : AtomWord} : Keeps s₀ (atomWord s a) :=
  issue_keeps hs fun _ _ h => lanes_keeps (fun _ _ _ h => AtomWord.lane_keeps h) _ _ h
theorem at_keeps (hs : Keeps s₀ s) {h : Hdr} {sc : Scope} {scl ty : BitVec 2} {d a b c : Opd} {fn : Nat} :
    NextWith (at_ s h sc scl ty d a b c fn) (Keeps s₀) := Keeps.next (atomWord_keeps hs)
theorem red_keeps (hs : Keeps s₀ s) {h : Hdr} {sc : Scope} {scl ty : BitVec 2} {a b c : Opd} {fn : Nat} :
    NextWith (red s h sc scl ty a b c fn) (Keeps s₀) := Keeps.next (atomWord_keeps hs)

theorem Keeps.bindStep (hs : Keeps s₀ s) {ctx : Nat} {region obj : Dword} {len i : Nat}
    (e : s.bindStep ctx region obj len = .inr (i, t)) : Keeps s₀ t := by
  unfold State.bindStep at e
  split at e
  · cases e
  · split at e
    · cases e
    · cases e
      exact hs.setPd.setPd.setPd.setPd

theorem execBind_keeps (hs : Keeps s₀ s) {h : Hdr} {d a b c : Nat} : NextWith (execBind h d a b c s) (Keeps s₀) :=
  Keeps.next (afterShake_keeps hs (issue_keeps hs (perRun_keeps fun _ _ h => by
    dsimp only
    split
    · exact h
    · dsimp only [LaneKeeps]
      split
      · exact h.writeReg.lateCm
      · exact (h.bindStep ‹_›).writeReg.lateCm)))
theorem execBindUn_keeps (hs : Keeps s₀ s) {h : Hdr} {a : Nat} : NextWith (execBindUn h a s) (Keeps s₀) :=
  Keeps.next (afterShake_keeps hs (issue_keeps hs (perRun_keeps fun _ _ h => by
    dsimp only
    split
    · exact h
    · exact (Keeps.ite h.setPd.setPd.setPd.setPd h).lateCm)))
theorem Keeps.acquire (hs : Keeps s₀ s) {c e obj off : Nat} {sc : Scope} {every : Bool} :
    Keeps s₀ (s.acquire c e obj off sc every) := .ite hs hs.acquireIn

/-- What an acquire leaves, decided or not. -/
def TryKeeps (s₀ : State) : Look ⊕ State → Prop
  | .inl l => LookKeeps s₀ l
  | .inr s => Keeps s₀ s
theorem TryKeeps.value {g : Look ⊕ State} {v : Word} (hg : TryKeeps s₀ g) (e : g = .inl (.value t v)) : Keeps s₀ t := by
  subst e; exact hg
theorem TryKeeps.waits {g : Look ⊕ State} (hg : TryKeeps s₀ g) (e : g = .inl (.waits t)) : Keeps s₀ t := by subst e; exact hg
theorem TryKeeps.fails {g : Look ⊕ State} {q : Byte} {d : Dword} (hg : TryKeeps s₀ g) (e : g = .inl (.fails q d t)) :
    Keeps s₀ t := by
  subst e; exact hg
theorem TryKeeps.inr {g : Look ⊕ State} (hg : TryKeeps s₀ g) (e : g = .inr t) : Keeps s₀ t := by subst e; exact hg
theorem Keeps.acqTry (hs : Keeps s₀ s) {c k id : Nat} {ts : List Nat} {sc : Scope} {obj off : Nat} {n : Word} {last : Bool} :
    TryKeeps s₀ (s.acqTry c k id ts sc obj off n last) := by
  unfold State.acqTry
  split
  · exact hs.look4.waits ‹_›
  · exact hs.look4.fails ‹_›
  · have hx := hs.look4.value ‹_›
    split
    · split
      · exact hx
      · exact hx
      · exact (hx.waitRead.of_eq ‹_›).acquire.lateCm
    · split
      · exact hx.lateCm
      · exact hx

theorem execAcq_keeps (hs : Keeps s₀ s) {h : Hdr} {tmo : BitVec 4} {sc : Scope} {a b : Nat} :
    NextWith (execAcq h tmo sc a b s) (Keeps s₀) :=
  Keeps.next (issue_keeps hs (perRun_keeps fun _ _ h => by
    dsimp only
    split
    · exact h
    · split
      · exact h.acqTry.inr ‹_›
      · exact h.acqTry.fails ‹_›
      · exact (h.acqTry.waits ‹_›).await
      · exact h.acqTry.value ‹_›))
theorem Keeps.acqRead (hs : Keeps s₀ s) {c k : Nat} {x : Wait} {last : Bool} : Keeps s₀ (s.acqRead c k x last) := by
  unfold State.acqRead
  split
  · split
    · exact hs
    · split
      · exact (hs.acqTry.inr ‹_›).endWait
      · exact (hs.acqTry.fails ‹_›).failWait
      · exact hs
  · exact hs
theorem execAcqWake_keeps (hs : Keeps s₀ s) {cl slot id : Nat} : NextWith (execAcqWake cl slot id s) (Keeps s₀) := by
  refine Keeps.next ?_
  split
  · exact hs.acqRead
  · exact hs
theorem execAcqTimeout_keeps (hs : Keeps s₀ s) {cl slot id : Nat} : NextWith (execAcqTimeout cl slot id s) (Keeps s₀) := by
  refine Keeps.next ?_
  split
  · exact hs.acqRead
  · exact hs

end Sys2Proof.Machine
end

section
/-! SUPPORT. Releases, fences and the service words, the layers of a model, work and its launches keep the time base and the
canonical memory. -/

namespace Sys2Proof.Machine

set_option Elab.async false

variable {s₀ s t : State} {α β : Type}

/-! ### Releases, fences and the publishing of shadows (R191 to R199) -/

theorem Keeps.releaseBy (hs : Keeps s₀ s) {c k id : Nat} {ts : List Nat} {sc : Scope} {sel : Nat → Nat → Bool} :
    GoKeeps s₀ (s.releaseBy c k id ts sc sel) := by
  unfold State.releaseBy
  dsimp only
  split
  · trivial
  · split
    · trivial
    · split
      · exact hs
      · split
        · exact hs.flush.of_pair ‹_›
        · trivial
        · trivial
theorem Keeps.dropFailed (hs : Keeps s₀ s) {c k : Nat} {ts : List Nat} {addr : Dword} : Keeps s₀ (s.dropFailed c k ts addr) :=
  hs.modWarp
theorem execRel_keeps (hs : Keeps s₀ s) {h : Hdr} {sc : Scope} {a : Nat} : NextWith (execRel h sc a s) (Keeps s₀) :=
  Keeps.next (issue_keeps hs (perRun_keeps fun _ _ h => by
    dsimp only
    split
    · exact h
    · exact h.await))
theorem Keeps.relStep (hs : Keeps s₀ s) {c k : Nat} {x : Wait} {sc : Scope} {obj off : Nat} :
    Keeps s₀ (s.relStep c k x sc obj off) := by
  unfold State.relStep
  split
  · exact hs
  · dsimp only
    split
    · exact hs
    · exact hs.failWait
    · have hy := hs.waitRead.of_eq ‹_›
      split
      · exact hs
      · exact hy.dropFailed.failWait
      · have hz := hy.releaseBy.of_eq ‹_›
        split
        · exact (hz.strongStep.of_eq ‹_›).endWait
        · exact hs
        · exact hz.failWait
theorem execRelComplete_keeps (hs : Keeps s₀ s) {cl slot id : Nat} : NextWith (execRelComplete cl slot id s) (Keeps s₀) := by
  refine Keeps.next ?_
  split
  · split
    · exact hs.relStep
    · exact hs
  · exact hs
theorem Keeps.giveUp (hs : Keeps s₀ s) {c ctx obj i : Nat} : Keeps s₀ (s.giveUp c ctx obj i) := hs.modCluster
theorem Keeps.flushAll (hs : Keeps s₀ s) {c : Nat} {w : Warp} {sel : Nat → Nat → Nat → L1Word → Bool} {fuel : Nat} :
    GotKeeps s₀ (s.flushAll c w sel fuel) := by
  induction fuel generalizing s with
  | zero => exact hs
  | succ n ih =>
    unfold State.flushAll
    split
    · exact hs.flush.of_pair ‹_›
    · trivial
    · split
      · exact (ih hs.giveUp).of_eq ‹_›
      · exact ih hs.giveUp
theorem execFence_keeps (hs : Keeps s₀ s) {h : Hdr} {sc : Scope} : NextWith (execFence h sc s) (Keeps s₀) :=
  Keeps.next (issue_keeps hs (perLane_keeps fun _ _ h => h.await))
theorem execFenceComplete_keeps (hs : Keeps s₀ s) {cl slot id : Nat} :
    NextWith (execFenceComplete cl slot id s) (Keeps s₀) := by
  refine Keeps.next ?_
  split
  · split
    · split
      · exact hs
      · split
        · exact hs.endWait
        · split
          · exact (hs.flushAll.of_eq ‹_›).modWarp.endWait
          · exact hs
    · exact hs
  · exact hs
theorem execPubl_keeps (hs : Keeps s₀ s) {h : Hdr} {a : Nat} : NextWith (execPubl h a s) (Keeps s₀) :=
  Keeps.next (issue_keeps hs (perRun_keeps fun _ _ h => by
    dsimp only
    split
    · exact h
    · split
      · exact h
      · split
        · exact h
        · split
          · exact .ite h.await h.lateCm
          · exact h.lateCm))
theorem execPublComplete_keeps (hs : Keeps s₀ s) {cl slot id : Nat} : NextWith (execPublComplete cl slot id s) (Keeps s₀) := by
  refine Keeps.next ?_
  split
  · split
    · dsimp only
      split
      · split
        · exact hs.lateCm.endWait
        · split
          · exact hs
          · split
            · exact hs.askPage
            · split
              · exact hs
              · have hy := hs.publish.of_eq ‹_›
                exact (hy.countUp.getD hy).lateCm.endWait
      · exact hs.lateCm.endWait
    · exact hs
  · exact hs

/-! ### The layers of a model (R257 to R261) -/

theorem Keeps.setHeld (hs : Keeps s₀ s) {ctx m n : Nat} : Keeps s₀ (s.setHeld ctx m n) := hs.setPd
theorem Keeps.setLayer (hs : Keeps s₀ s) {ctx m l lo n v : Nat} : Keeps s₀ (s.setLayer ctx m l lo n v) := hs.setPd
theorem Keeps.setLayerState (hs : Keeps s₀ s) {ctx m l st : Nat} : Keeps s₀ (s.setLayerState ctx m l st) := hs.setLayer
theorem Keeps.askFetch (hs : Keeps s₀ s) {ctx m l : Nat} : Keeps s₀ (s.askFetch ctx m l) := .ite hs hs.same
theorem Keeps.dropAsks (hs : Keeps s₀ s) : Keeps s₀ s.dropAsks := hs.same
theorem Keeps.takeHold (hs : Keeps s₀ s) {c k ctx m l : Nat} : Keeps s₀ (s.takeHold c k ctx m l) := by
  unfold State.takeHold
  extract_lets w x obj y z
  have hz : Keeps s₀ z := (Keeps.ite hs hs.setLayer.modWarp).modCluster.setPd
  exact hz.same
theorem Keeps.pendBoth (hs : Keeps s₀ s) {t : Nat} {ts : List Nat} {d : Dst} {n : Nat} : Keeps s₀ (s.pendBoth t ts d n) :=
  hs.pendWide.foldl fun _ _ h => h.pend
theorem execLwait_keeps (hs : Keeps s₀ s) {h : Hdr} {tmo : BitVec 4} {d a b : Opd} :
    NextWith (execLwait h tmo d a b s) (Keeps s₀) :=
  Keeps.next (issue_keeps hs (perRun_keeps fun _ _ h => by
    dsimp only
    split
    · exact h
    · exact .ite h (Keeps.ite h.pendBoth.await.askFetch h.pendBoth.await)))
theorem Keeps.lwaitLook (hs : Keeps s₀ s) {c k : Nat} {x : Wait} {last : Bool} : Keeps s₀ (s.lwaitLook c k x last) := by
  unfold State.lwaitLook
  split
  · dsimp only
    split
    · exact hs
    · split
      · exact hs.modWarp.failWait.dropAsks
      · split
        · exact hs.takeHold.modWarp.lateWrite.lateWrite.lateCm.endWait.dropAsks
        · split
          · exact hs.modWarp.lateCm.endWait.dropAsks
          · exact .ite hs.askFetch hs
  · exact hs
theorem execLwaitWake_keeps (hs : Keeps s₀ s) {cl slot id : Nat} : NextWith (execLwaitWake cl slot id s) (Keeps s₀) := by
  refine Keeps.next ?_
  split
  · exact hs.lwaitLook
  · exact hs
theorem execLwaitTimeout_keeps (hs : Keeps s₀ s) {cl slot id : Nat} : NextWith (execLwaitTimeout cl slot id s) (Keeps s₀) := by
  refine Keeps.next ?_
  split
  · exact hs.lwaitLook
  · exact hs
theorem execLdone_keeps (hs : Keeps s₀ s) {h : Hdr} {a b : Opd} : NextWith (execLdone h a b s) (Keeps s₀) :=
  Keeps.next (afterStrong_keeps hs (issue_keeps hs (perRun_keeps fun _ _ h => by
    dsimp only
    split
    · exact h
    · exact (Keeps.ite h.setLayer.modMe h).long)))
theorem execLqry_keeps (hs : Keeps s₀ s) {h : Hdr} {d a b : Opd} : NextWith (execLqry h d a b s) (Keeps s₀) :=
  Keeps.next (afterStrong_keeps hs (issue_keeps hs (perRun_keeps fun _ _ h => by
    dsimp only
    split
    · exact h
    · exact h.long)))
theorem Keeps.leave (hs : Keeps s₀ s) {x : Lay} : Keeps s₀ (s.leave x) := by
  unfold State.leave
  extract_lets n y z
  have hy : Keeps s₀ y := hs.setLayer.setLayerState
  have hz : Keeps s₀ z := hy.same
  exact hz.count
theorem Keeps.startFetch (hs : Keeps s₀ s) {x : Lay} : Keeps s₀ (s.startFetch x) := by
  unfold State.startFetch
  extract_lets obj d
  split
  · have hy := hs.createShadow.of_eq ‹_›
    extract_lets z
    have hz : Keeps s₀ z := hy.setHeld.setLayerState
    exact hz.same
  · exact hs
theorem Keeps.serve (hs : Keeps s₀ s) {l : List (Lay × Bool)} {kept : List Nat} : Keeps s₀ (s.serve l kept) := by
  induction l generalizing s kept with
  | nil => exact hs
  | cons p r ih =>
    obtain ⟨x, asked⟩ := p
    unfold State.serve
    dsimp only
    split
    · exact ih hs
    · split
      · exact hs.startFetch
      · split
        · exact hs.foldl fun _ _ h => h.leave
        · exact ih hs
theorem execSprueFetchStart_keeps (hs : Keeps s₀ s) {die : Nat} : NextWith (execSprueFetchStart die s) (Keeps s₀) :=
  Keeps.next (.ite hs hs.serve)
theorem Keeps.fetchFailed (hs : Keeps s₀ s) {x : Lay} {cause : Byte} {addr : Dword} : Keeps s₀ (s.fetchFailed x cause addr) :=
  hs.discardShadow.setHeld.setLayerState.setLayer.setPd.post.count
theorem Keeps.shadowPut (hs : Keeps s₀ s) {ctx obj off : Nat} {l : List Byte} : Keeps s₀ (s.shadowPut ctx obj off l) :=
  hs.foldl fun _ _ h => by
    split
    · exact (Keeps.ite h.mscServe h).putPhys
    · exact h
theorem Keeps.askRange (hs : Keeps s₀ s) {ctx cl obj off len : Nat} : Keeps s₀ (s.askRange ctx cl obj off len) :=
  Within.getD (Within.findSome? fun _ => by
    split
    · exact hs.askPage
    · trivial) hs
theorem execSprueFetchComplete_keeps (hs : Keeps s₀ s) {ctx model layer : Nat} :
    NextWith (execSprueFetchComplete ctx model layer s) (Keeps s₀) := by
  refine Keeps.next ?_
  split
  · exact hs
  · dsimp only
    split
    · exact hs.askRange
    · exact hs.fetchFailed
    · split
      · exact hs
      · exact (hs.served.shadowPut.publish.of_eq ‹_›).setPd.setLayerState.count.count
theorem execLayerLeaveComplete_keeps (hs : Keeps s₀ s) {ctx model layer : Nat} :
    NextWith (execLayerLeaveComplete ctx model layer s) (Keeps s₀) := by
  refine Keeps.next ?_
  split
  · extract_lets obj x
    have hx : Keeps s₀ x := hs.freeExtents.purge.setHeld.setLayerState
    exact hx.same
  · exact hs

/-! ### The service words (R262 to R270) -/

theorem Keeps.pairDone (hs : Keeps s₀ s) {c k : Nat} {r : Req} {d : Dst} {n : Nat} {v : Option Dword} {cm : Bool} :
    Keeps s₀ (s.pairDone c k r d n v cm) := hs.setWarp.stir
theorem Keeps.nextAccess (hs : Keeps s₀ s) {c k : Nat} {r : Req} {obj off size : Nat} {op : ReqOp} :
    Keeps s₀ (s.nextAccess c k r obj off size op) := hs.modWarp
theorem Keeps.sendBoth (hs : Keeps s₀ s) {h : Hdr} {t : Nat} {ts : List Nat} {d : Dst} {n obj off size : Nat}
    {sc : Option Scope} {op : ReqOp} {once : Bool} : Keeps s₀ (s.sendBoth h t ts d n obj off size sc op once) :=
  hs.freshId.pendBoth.send
theorem Keeps.strongBytes (hs : Keeps s₀ s) {c : Nat} {w : Warp} {obj off : Nat} {sc : Scope} {fuel : Nat} :
    GotKeeps s₀ (s.strongBytes c w obj off sc fuel) := by
  induction fuel generalizing s off with
  | zero => exact hs
  | succ n ih =>
    unfold State.strongBytes
    split
    · have hx := hs.strongRead.of_eq ‹_›
      split
      · exact (ih hx).of_eq ‹_›
      · exact ih hx
    · exact hs.strongRead
theorem kvNull_keeps {x : State} (hs : Keeps s₀ x) {t : Nat} {ts : List Nat} {d : Dst} : Keeps s₀ (kvNull x t ts d) :=
  hs.long.count
theorem kvxLane_keeps {x : State} (hs : Keeps s₀ x) {h : Hdr} {d : Opd} {a : Nat} {b c : Opd} {t : Nat} {ts : List Nat} :
    LaneKeeps s₀ (kvxLane h d a b c x t ts) := by
  unfold kvxLane
  dsimp only
  split
  · exact hs
  · split
    · exact hs
    · exact .ite (kvNull_keeps hs) hs.sendBoth
theorem execKvx_keeps (hs : Keeps s₀ s) {h : Hdr} {d : Opd} {a : Nat} {b c : Opd} : NextWith (execKvx h d a b c s) (Keeps s₀) :=
  Keeps.next (issue_keeps hs (lanes_keeps fun _ _ _ h => kvxLane_keeps h))
theorem Keeps.kvxStep (hs : Keeps s₀ s) {c k : Nat} {r : Req} {pos stride : Word} {first : Option Dword} {d : Dst} :
    Keeps s₀ (s.kvxStep c k r pos stride first d) := by
  unfold State.kvxStep
  dsimp only
  split
  · exact hs
  · exact hs.reqFailed
  · have hx := hs.strongBytes.of_eq ‹_›
    split
    · exact .ite hx.pairDone.count hx.nextAccess
    · exact .ite hx.pairDone.count hx.pairDone
theorem execPfxh_keeps (hs : Keeps s₀ s) {h : Hdr} {d a b : Nat} : NextWith (execPfxh h d a b s) (Keeps s₀) :=
  Keeps.next (issue_keeps hs (perRun_keeps fun _ _ h => by
    dsimp only
    split
    · exact h
    · exact h.freshId.pendWide.send))
theorem Keeps.weakWords (hs : Keeps s₀ s) {c : Nat} {w : Warp} {obj off : Nat} {fuel : Nat} :
    GotKeeps s₀ (s.weakWords c w obj off fuel) := by
  induction fuel generalizing s off with
  | zero => exact hs
  | succ n ih =>
    unfold State.weakWords
    split
    · have hx := hs.anyRead.of_eq ‹_›
      split
      · exact (ih hx).of_eq ‹_›
      · exact ih hx
    · trivial
    · trivial
theorem Keeps.pfxhStep (hs : Keeps s₀ s) {c k : Nat} {r : Req} {prev : Dword} {d : Dst} :
    Keeps s₀ (s.pfxhStep c k r prev d) := by
  unfold State.pfxhStep
  split
  · exact hs
  · exact hs.reqFailed
  · exact (hs.weakWords.of_eq ‹_›).modWarp.stir
theorem pfxWord_keeps (hs : Keeps s₀ s) {h : Hdr} {d : Option Nat} {a b : Nat} {c : Option Nat}
    {f : State → List Nat → Nat → Dword → State} (hf : ∀ y ts n v, Keeps s₀ y → Keeps s₀ (f y ts n v)) :
    Keeps s₀ (pfxWord s h d a b c f) := by
  unfold pfxWord
  extract_lets l sh
  exact afterStrong_keeps hs (issue_keeps hs (perRun_keeps fun _ _ h => by
    dsimp only
    split
    · exact h
    · exact .ite h (hf _ _ _ _ h)))
theorem Keeps.setUse (hs : Keeps s₀ s) {a i : Nat} : Keeps s₀ (s.setUse a i) := hs.setPd
theorem execPfxm_keeps (hs : Keeps s₀ s) {h : Hdr} {d a b : Nat} : NextWith (execPfxm h d a b s) (Keeps s₀) :=
  Keeps.next (pfxWord_keeps hs fun _ _ _ _ h => by
    dsimp only
    split
    · exact h.setUse.long.count
    · exact h.long.count)
theorem pfxPin_keeps {x : State} (hs : Keeps s₀ x) {ts : List Nat} {tab : Nat} {hash : Dword} {b : Nat} :
    Keeps s₀ (pfxPin x ts tab hash b) := by
  unfold pfxPin
  split
  · exact hs.setPd.long
  · exact hs.long
theorem execPfxpPin_keeps (hs : Keeps s₀ s) {h : Hdr} {a b : Nat} : NextWith (execPfxpPin h a b s) (Keeps s₀) :=
  Keeps.next (pfxWord_keeps hs fun _ _ _ _ h => pfxPin_keeps h)
theorem execPfxpUnpin_keeps (hs : Keeps s₀ s) {h : Hdr} {a b : Nat} : NextWith (execPfxpUnpin h a b s) (Keeps s₀) :=
  Keeps.next (pfxWord_keeps hs fun _ _ _ _ h => pfxPin_keeps h)
theorem execPfxpInsert_keeps (hs : Keeps s₀ s) {h : Hdr} {a b c : Nat} : NextWith (execPfxpInsert h a b c s) (Keeps s₀) :=
  Keeps.next (pfxWord_keeps hs fun _ _ _ _ h => by
    dsimp only
    split
    · exact h.setPd.setUse.long
    · split
      · exact h.setPd.setPd.setUse.setPd.long
      · exact h.long.count)
theorem execWqpop_keeps (hs : Keeps s₀ s) {h : Hdr} {d : Nat} : NextWith (execWqpop h d s) (Keeps s₀) :=
  Keeps.next (issue_keeps hs (perRun_keeps fun _ _ h => h.sendBoth))
theorem Keeps.wqpopStep (hs : Keeps s₀ s) {c k : Nat} {r : Req} {d : Dst} : Keeps s₀ (s.wqpopStep c k r d) := by
  unfold State.wqpopStep
  dsimp only
  split
  · split
    · exact hs.pairDone.count
    · split
      · split
        · exact ((hs.strongRead.of_eq ‹_›).strongWrite.of_eq ‹_›).pairDone
        · exact hs
      · exact hs
      · exact hs.reqFailed
  · exact hs.reqFailed
  · exact hs.reqFailed
  · exact hs
theorem execLarr_keeps (hs : Keeps s₀ s) {h : Hdr} {sc : Scope} {d a b c : Nat} :
    NextWith (execLarr h sc d a b c s) (Keeps s₀) :=
  Keeps.next (issue_keeps hs (perRun_keeps fun _ _ h => by
    dsimp only
    split
    · exact h
    · exact h.sendBoth))
theorem Keeps.larrStep (hs : Keeps s₀ s) {c k : Nat} {r : Req} {robj roff len : Nat} {d : Dst} :
    Keeps s₀ (s.larrStep c k r robj roff len d) := by
  unfold State.larrStep
  dsimp only
  split
  · exact hs
  · exact hs.dropFailed.reqFailed
  · have hx := hs.releaseBy.of_eq ‹_›
    split
    · exact hs
    · exact hx.reqFailed
    · have hy := hx.strongRead.of_eq ‹_›
      split
      · exact hs
      · exact hy.reqFailed
      · have hz := hy.strongStep.of_eq ‹_›
        exact (Keeps.ite hz.acquireIn.count hz).pairDone
theorem execRnext_keeps (hs : Keeps s₀ s) {h : Hdr} {d a b : Nat} : NextWith (execRnext h d a b s) (Keeps s₀) :=
  Keeps.next (issue_keeps hs (perRun_keeps fun _ _ h => by
    dsimp only
    split
    · exact h
    · exact h.sendBoth))
theorem Keeps.rnextStep (hs : Keeps s₀ s) {c k : Nat} {r : Req} {b : Word} {count : Option Nat} {i : Nat} {d : Dst} :
    Keeps s₀ (s.rnextStep c k r b count i d) := by
  unfold State.rnextStep
  dsimp only
  split
  · exact hs
  · exact hs.reqFailed
  · have hx := hs.strongRead.of_eq ‹_›
    split
    · exact .ite hx.pairDone hx.nextAccess
    · exact .ite hx.pairDone (.ite hx.pairDone hx.nextAccess)
theorem Keeps.serviceLost (hs : Keeps s₀ s) {c k : Nat} {r : Req} : Keeps s₀ (s.serviceLost c k r) := by
  unfold State.serviceLost
  split
  · exact hs.reqFailed
  · exact hs.reqFailed
  · exact hs.reqFailed
  · exact hs.reqFailed
  · exact hs.reqFailed
  · exact hs
theorem Keeps.serviceStep (hs : Keeps s₀ s) {c k : Nat} {r : Req} : Keeps s₀ (s.serviceStep c k r) := by
  unfold State.serviceStep
  refine .ite hs (.ite hs.serviceLost ?_)
  split
  · exact hs.kvxStep
  · exact hs.pfxhStep
  · exact hs.wqpopStep
  · exact hs.larrStep
  · exact hs.rnextStep
  · exact hs

/-! ### Work, its counts and its launches (R271 to R283) -/

theorem Keeps.setWorkDw (hs : Keeps s₀ s) {w : WorkId} {i : Nat} {d : Dword} : Keeps s₀ (s.setWorkDw w i d) :=
  hs.dwWrite.getD hs
theorem Keeps.askWork (hs : Keeps s₀ s) {cl : Nat} {l : List WorkId} : Keeps s₀ (s.askWork cl l) :=
  hs.foldl fun _ _ h => by
    split
    · exact h.askPage
    · exact h
theorem Keeps.setCount (hs : Keeps s₀ s) {w : WorkId} {n : Nat} : Keeps s₀ (s.setCount w n) := hs.setWorkDw
theorem Keeps.workHeld (hs : Keeps s₀ s) {w : WorkId} : Keeps s₀ (s.workHeld w) := hs.holdGlobal
theorem Keeps.workFreed (hs : Keeps s₀ s) {w : WorkId} : Keeps s₀ (s.workFreed w) := hs.freeGlobal
theorem Keeps.setStatus (hs : Keeps s₀ s) {w : WorkId} {n : Nat} : Keeps s₀ (s.setStatus w n) := hs.setWorkDw
theorem Keeps.setWorkBit (hs : Keeps s₀ s) {w : WorkId} {b : Nat} : Keeps s₀ (s.setWorkBit w b) := hs.setWorkDw
theorem Keeps.addDisp (hs : Keeps s₀ s) {w : WorkId} : Keeps s₀ (s.addDisp w) := hs.setWorkDw
theorem Keeps.sinceNow (hs : Keeps s₀ s) {w : WorkId} : Keeps s₀ (s.sinceNow w) := hs.same
theorem Keeps.decDeps (hs : Keeps s₀ s) {w : WorkId} : Keeps s₀ (s.decDeps w) :=
  Keeps.foldl hs.same fun _ _ h => .ite h.setWorkDw.sinceNow h
theorem Keeps.raise (hs : Keeps s₀ s) {w : WorkId} {fl : Bool} : Keeps s₀ (s.raise w fl) :=
  .ite hs.setCount.setWorkBit hs.setCount
theorem Keeps.dropSkips (hs : Keeps s₀ s) {w : WorkId} : Keeps s₀ (s.dropSkips w) := hs.same
theorem Keeps.finish (hs : Keeps s₀ s) {w : WorkId} {fuel : Nat} : Keeps s₀ (s.finish w fuel) := by
  induction fuel generalizing s w with
  | zero => exact hs
  | succ n ih =>
    unfold State.finish
    dsimp only
    have hx := ((hs.setStatus (w := w) (n := 2)).workFreed (w := w)).dropSkips (w := w) |>.decDeps (w := w)
    split
    · exact hx
    · exact .ite (ih hx.raise) hx.raise
theorem Keeps.cancelDone (hs : Keeps s₀ s) {r : WorkId} {more : List WorkId} : Keeps s₀ (s.cancelDone r more) := by
  unfold State.cancelDone
  extract_lets l x y
  have hy : Keeps s₀ y :=
    (hs.foldl fun _ _ h => h.setCount).foldl fun _ _ h => h.setStatus.workFreed.dropSkips
  split
  · exact hy
  · extract_lets r z
    have hr : Keeps s₀ r := hy.raise
    have hz : Keeps s₀ z := hr.same
    exact .ite hz.finish hz
theorem Keeps.cancelCheck (hs : Keeps s₀ s) {w : WorkId} : Keeps s₀ (s.cancelCheck w) :=
  hs.foldl fun _ _ h => .ite h.cancelDone h
theorem Keeps.enqueueLaunch (hs : Keeps s₀ s) {ctx die obj off : Nat} :
    Within (Keeps s₀) (s.enqueueLaunch ctx die obj off) := by
  unfold State.enqueueLaunch
  extract_lets x held y
  have hheld : Keeps s₀ held := hs.foldl fun _ _ h => h.foldl fun _ _ h => h.workHeld
  have hy : Keeps s₀ y := hheld.same
  exact .ite trivial hy.setCtx
theorem Keeps.loadDws (hs : Keeps s₀ s) {c : Nat} {w : Warp} {obj off : Nat} {fuel : Nat} :
    GotKeeps s₀ (s.loadDws c w obj off fuel) := by
  induction fuel generalizing s with
  | zero => exact hs
  | succ n ih =>
    unfold State.loadDws
    split
    · split
      · exact ((ih hs).of_eq ‹_›).anyRead.of_eq ‹_›
      · trivial
      · trivial
    · exact ih hs
theorem Keeps.lnchGo (hs : Keeps s₀ s) {ts : List Nat} {cap : Dword} : LaunchedKeeps s₀ (s.lnchGo ts cap) := by
  unfold State.lnchGo
  dsimp only
  split
  · trivial
  · trivial
  · have hx := hs.loadDws.of_eq ‹_›
    split
    · trivial
    · split
      · trivial
      · trivial
      · have hy := hx.releaseBy.of_eq ‹_›
        split
        · exact hy
        · split
          · trivial
          · split
            · exact hy.enqueueLaunch.of_eq ‹_›
            · exact hy
theorem Keeps.stayFor (hs : Keeps s₀ s) {ts : List Nat} {p : Option (Nat × Nat)} : Keeps s₀ (s.stayFor ts p) := by
  unfold State.stayFor
  split
  · exact hs
  · exact hs.portRecord.modMe
theorem execLnch_keeps (hs : Keeps s₀ s) {h : Hdr} {ka : Nat} : NextWith (execLnch h ka s) (Keeps s₀) :=
  Keeps.next (.ite hs.stayFor (issue_keeps hs (perRun_keeps fun _ _ h => by
    split
    · exact h
    · split
      · exact (h.lnchGo.of_eq ‹_›).foldl fun _ _ h => h.writeCm
      · exact h.dropFailed
      · exact h)))
theorem execWcan_keeps (hs : Keeps s₀ s) {h : Hdr} {_lvl : BitVec 2} {ka : Nat} : NextWith (execWcan h _lvl ka s) (Keeps s₀) :=
  Keeps.next (.ite hs.stayFor (issue_keeps hs (perRun_keeps fun _ _ h => by
    split
    · exact h
    · split
      · exact h
      · exact Keeps.ite h.setWorkBit.cancelDone h.setWorkBit)))
theorem Keeps.startOne (hs : Keeps s₀ s) {p : WorkId} : Keeps s₀ (s.startOne p) := by
  refine .ite hs ?_
  split
  · exact hs.setStatus.sinceNow
  · exact .ite hs (.ite hs.free.setStatus.addDisp.sinceNow hs.free)
theorem Keeps.startAbove (hs : Keeps s₀ s) {w : WorkId} : Keeps s₀ (s.startAbove w) := hs.foldl fun _ _ h => h.startOne
theorem Keeps.askDesc (hs : Keeps s₀ s) {ctx die obj off : Nat} : Keeps s₀ (s.askDesc ctx die obj off) := by
  unfold State.askDesc
  split
  · exact hs.askPage
  · exact hs
theorem Keeps.takeEntry (hs : Keeps s₀ s) {die ctx : Nat} : Keeps s₀ (s.takeEntry die ctx) := by
  unfold State.takeEntry
  extract_lets x
  split
  · exact hs
  · split
    · exact hs.askDesc
    · extract_lets y w new z
      have hy : Keeps s₀ y := hs.setCtx
      have hnew : Keeps s₀ new := hy.foldl fun _ _ h => .ite h.dropSkips h
      have hz : Keeps s₀ z := (hnew.foldl fun _ _ h => h.workHeld).startAbove
      exact .ite hy.tell (.ite hs.askWork (.ite hy hz.same))
theorem Keeps.writeRecord (hs : Keeps s₀ s) {p : Sys2Proof.Place} {l : Launch} {d : LaunchDesc} :
    Keeps s₀ (s.writeRecord p l d) := by
  unfold State.writeRecord
  extract_lets e x
  have hx : Keeps s₀ x := hs.modCluster
  exact hx.same
theorem Keeps.placeLaunch (hs : Keeps s₀ s) {l : Launch} {p : Sys2Proof.Place} : Keeps s₀ (s.placeLaunch l p) := by
  unfold State.placeLaunch
  split
  · exact hs.askDesc
  · exact .ite hs.askWork.startAbove.writeRecord hs.askWork.startAbove
theorem Keeps.placeImage (hs : Keeps s₀ s) {die : Nat} {m : Image} {p : Sys2Proof.Place} : Keeps s₀ (s.placeImage die m p) :=
  .ite hs.modCluster hs.askWork
theorem execDeviceQueueTake_keeps (hs : Keeps s₀ s) {die ctx : Nat} {idx : Option Nat} {place : Option Sys2Proof.Place} :
    NextWith (execDeviceQueueTake die ctx idx place s) (Keeps s₀) := by
  refine Keeps.next (.ite hs ?_)
  split
  · split
    · exact .ite hs.placeLaunch hs
    · split
      · exact .ite hs.placeImage hs
      · exact hs
  · exact hs.takeEntry
theorem execPlacementReservation_keeps (hs : Keeps s₀ s) {die idx : Nat} :
    NextWith (execPlacementReservation die idx s) (Keeps s₀) := by
  refine Keeps.next ?_
  split
  · exact hs
  · split
    · exact hs
    · exact .ite hs.same hs

end Sys2Proof.Machine
end

section
/-! SUPPORT. Workgroups and their saving, the engines, the hub's reductions, accesses from outside and the tarnish keep the time
base and the canonical memory. -/

namespace Sys2Proof.Machine

set_option Elab.async false

variable {s₀ s t : State} {α β : Type}

/-! ### Clusters, workgroups and their images (R33 to R38, R275 to R294) -/

theorem Keeps.drainL1 (hs : Keeps s₀ s) {c : Nat} : Within (Keeps s₀) (s.drainL1 c) :=
  Within.map (Within.foldl (o := some s) hs fun o _ ho => by
    cases o with
    | none => trivial
    | some x =>
      have hx : Keeps s₀ x := ho
      dsimp only
      split
      · split
        · exact hx.flushWord.of_eq ‹_›
        · trivial
        · exact hx
      · exact hx) fun _ h => h.modCluster
theorem Keeps.askL1 (hs : Keeps s₀ s) {c : Nat} : Keeps s₀ (s.askL1 c) :=
  hs.foldl fun _ _ h => by
    split
    · split
      · exact h.askPage
      · exact h
    · exact h
theorem execClusterGate_keeps (hs : Keeps s₀ s) {cl : Nat} : NextWith (execClusterGate cl s) (Keeps s₀) := by
  refine Keeps.next ?_
  split
  · split
    · exact (hs.drainL1.of_eq ‹_›).modCluster
    · exact hs.askL1
  · split
    · split
      · exact (hs.drainL1.of_eq ‹_›).modCluster
      · exact hs.askL1
    · exact hs
theorem execWarpRetire_keeps (hs : Keeps s₀ s) {cl slot : Nat} : NextWith (execWarpRetire cl slot s) (Keeps s₀) := by
  refine Keeps.next ?_
  split
  · exact .ite hs.modCluster hs
  · exact hs
theorem execTrackerEntryFree_keeps (hs : Keeps s₀ s) {cl entry : Nat} :
    NextWith (execTrackerEntryFree cl entry s) (Keeps s₀) := by
  refine Keeps.next ?_
  split
  · exact .ite hs hs.modCluster.idleMark
  · exact hs
theorem Keeps.wgRecord (hs : Keeps s₀ s) {c e : Nat} {cause : Byte} {addr : Dword} {kind : Nat} :
    Keeps s₀ (s.wgRecord c e cause addr kind) := hs.post
theorem Keeps.wgDrain (hs : Keeps s₀ s) {c e : Nat} {cause : Byte} {addr : Dword} : Keeps s₀ (s.wgDrain c e cause addr) :=
  hs.modWg.wgRecord.setFl
theorem Keeps.flushWg (hs : Keeps s₀ s) {c e : Nat} : GotKeeps s₀ (s.flushWg c e) := hs.flushAll
theorem Keeps.flushRecord (hs : Keeps s₀ s) {c e : Nat} : Keeps s₀ (s.flushRecord c e) := by
  refine .ite hs ?_
  split
  · exact hs.wgRecord.modWg
  · exact hs
theorem Keeps.countWg (hs : Keeps s₀ s) {w : WorkId} : Keeps s₀ (s.countWg w) :=
  (Keeps.ite hs.raise.finish hs.raise).cancelCheck
theorem execWorkgroupComplete_keeps (hs : Keeps s₀ s) {cl entry : Nat} :
    NextWith (execWorkgroupComplete cl entry s) (Keeps s₀) := by
  refine Keeps.next ?_
  split
  · exact hs
  · dsimp only
    split
    · exact hs
    · split
      · exact hs.askWork
      · split
        · have hz := hs.flushWg.of_eq ‹_›
          exact (Keeps.ite (hz.foldl fun _ _ h => h.wgDrain).setFl
            (hz.foldl fun _ _ h => h.wgDrain)).modCluster.countWg.idleMark
        · exact hs.flushRecord
        · exact hs
theorem Keeps.killWarp (hs : Keeps s₀ s) {c k : Nat} : Keeps s₀ (s.killWarp c k) := by
  unfold State.killWarp
  exact (hs.foldl fun _ _ h => h.exitThread).discard.release.modWarp
theorem Keeps.kill (hs : Keeps s₀ s) {c e : Nat} : Keeps s₀ (s.kill c e) := (hs.foldl fun _ _ h => h.killWarp).modCluster.setFl
theorem Keeps.setSlotSt (hs : Keeps s₀ s) {c e n : Nat} : Keeps s₀ (s.setSlotSt c e n) := hs.modCluster
theorem Keeps.watch (hs : Keeps s₀ s) {c e : Nat} : Keeps s₀ (s.watch c e) := hs.modWg.park.wgRecord
theorem Keeps.cancelSaved (hs : Keeps s₀ s) {w : WorkId} : Keeps s₀ (s.cancelSaved w) :=
  .ite hs (.ite hs.setWorkBit.cancelDone hs.setWorkBit)
theorem execWatchdog_keeps (hs : Keeps s₀ s) {cl entry : Nat} : NextWith (execWatchdog cl entry s) (Keeps s₀) := by
  refine Keeps.next ?_
  split
  · split
    · exact .ite hs.cancelSaved hs
    · exact hs
  · exact .ite hs.watch hs
theorem execSliceExpiry_keeps (hs : Keeps s₀ s) {cl entry : Nat} : NextWith (execSliceExpiry cl entry s) (Keeps s₀) :=
  Keeps.next (.ite (.ite hs.setSlotSt hs.modWg) hs)
theorem execPreemptRequest_keeps (hs : Keeps s₀ s) {cl entry : Nat} : NextWith (execPreemptRequest cl entry s) (Keeps s₀) :=
  Keeps.next (.ite hs.setSlotSt hs)
theorem Keeps.writeImage (hs : Keeps s₀ s) {ctx : Nat} {m : Image} {x : Cluster} : Within (Keeps s₀) (s.writeImage ctx m x) :=
  Within.foldl (o := some s) hs fun o _ ho => by
    cases o with
    | none => trivial
    | some x => exact Keeps.dwWrite ho
theorem Keeps.deferTo (hs : Keeps s₀ s) {c e : Nat} {who : List Nat} {cause : Byte} {addr : Dword} :
    Keeps s₀ (s.deferTo c e who cause addr) := hs.foldl fun _ _ h => h.modWarp
theorem execPreemptSaveComplete_keeps (hs : Keeps s₀ s) {cl entry iobj ioff : Nat} :
    NextWith (execPreemptSaveComplete cl entry iobj ioff s) (Keeps s₀) := by
  refine Keeps.next ?_
  split
  · exact hs
  · split
    · exact hs.setSlotSt
    · split
      · exact hs
      · split
        · have hy := hs.flushWg.of_eq ‹_›
          dsimp only
          split
          · exact hs
          · have hq := (hy.foldl fun _ _ h => h.deferTo).writeImage.of_eq ‹_›
            exact (Keeps.same hq).modCluster.idleMark.tell
        · exact hs.flushRecord
        · exact hs
theorem Keeps.readStash (hs : Keeps s₀ s) {c : Nat} {m : Image} {g : Wg} : Keeps s₀ (s.readStash c m g) := by
  unfold State.readStash
  exact hs.modCluster
theorem Keeps.named (hs : Keeps s₀ s) {id a : Nat} : Keeps s₀ (s.named id a) := hs.same
theorem Keeps.postAll (hs : Keeps s₀ s) {ctx die : Nat} {l : List (Nat × Dword × Dword × Dword × Dword)} :
    Keeps s₀ (s.postAll ctx die l) := by
  induction l generalizing s with
  | nil => exact hs
  | cons p r ih => exact .ite hs (ih hs.setCtx.putRing.named)
theorem Keeps.postHeld (hs : Keeps s₀ s) {ctx die : Nat} : Keeps s₀ (s.postHeld ctx die) := hs.postAll
theorem Keeps.resumeWg (hs : Keeps s₀ s) {c e : Nat} : Keeps s₀ (s.resumeWg c e) := .ite hs.modCluster hs.setWg
theorem execFaultRecordResolve_keeps (hs : Keeps s₀ s) {ctx die i : Nat} {act : BitVec 2} :
    NextWith (execFaultRecordResolve ctx die i act s) (Keeps s₀) := by
  refine Keeps.next ?_
  split
  · exact hs
  · dsimp only
    split
    · split
      · exact hs.setPd.postHeld
      · exact .ite hs.setPd.postHeld.resumeWg hs.setPd.postHeld.kill
    · exact hs.setPd.postHeld
theorem Keeps.setSplit (hs : Keeps s₀ s) {c spart ctx : Nat} : Within (Keeps s₀) (s.setSplit c spart ctx) :=
  Within.map (Within.ite hs.drainL1 hs) fun _ h => .ite h.modCluster h
theorem Keeps.acquireAll (hs : Keeps s₀ s) {c ctx : Nat} : Keeps s₀ (s.acquireAll c ctx) := hs.acquireKeys
theorem Keeps.bindCount (hs : Keeps s₀ s) {w : WorkId} : Keeps s₀ (s.bindCount w) := by
  unfold State.bindCount
  dsimp only
  split
  · split
    · exact hs.addDisp.setStatus.addDisp
    · exact hs.addDisp.setStatus
  · exact hs.addDisp
theorem Keeps.refuseRecord (hs : Keeps s₀ s) {c e : Nat} : Keeps s₀ (s.refuseRecord c e) := hs.modCluster.tell.idleMark
theorem Keeps.bindNew (hs : Keeps s₀ s) {c e : Nat} {r : SlotEnt} : Within (Keeps s₀) (s.bindNew c e r) := by
  unfold State.bindNew
  split
  · trivial
  · dsimp only
    split
    · trivial
    · split
      · exact hs.refuseRecord
      · split
        · exact (hs.setSplit.of_eq ‹_›).served.served.acquireAll.modCluster.bindCount
        · trivial
theorem Keeps.bindImage (hs : Keeps s₀ s) {c e : Nat} {r : SlotEnt} : Within (Keeps s₀) (s.bindImage c e r) := by
  unfold State.bindImage
  split
  · trivial
  · split
    · trivial
    · extract_lets up
      split
      · trivial
      · split
        · exact hs.refuseRecord
        · split
          · have hx := hs.setSplit.of_eq ‹_›
            extract_lets y z t
            have hz : Keeps s₀ z := hx.acquireAll.modCluster.readStash
            have ht : Keeps s₀ t := hz.same
            exact Keeps.ite ht.watch ht
          · trivial
theorem Keeps.bindTry (hs : Keeps s₀ s) {c e : Nat} : Within (Keeps s₀) (s.bindTry c e) := .ite hs.bindImage hs.bindNew
theorem Keeps.bindAsk (hs : Keeps s₀ s) {c e : Nat} : Keeps s₀ (s.bindAsk c e) := by
  unfold State.bindAsk
  extract_lets r x y
  have hx : Keeps s₀ x := by
    unfold x
    split
    · dsimp only
      split
      · exact hs.askWork.askPage
      · exact hs.askWork
    · split
      · exact hs.askPage
      · exact hs
  have hy : Keeps s₀ y := by
    unfold y
    split
    · split
      · exact hx.askRange
      · exact hx
    · exact hx
  exact .ite hy.askL1 hy
theorem execBindRecord_keeps (hs : Keeps s₀ s) {cl entry : Nat} : NextWith (execBindRecord cl entry s) (Keeps s₀) :=
  Keeps.next (.ite hs (hs.bindTry.getD hs.bindAsk))

/-! ### The engines and their chains (R184, R218, R295) -/

theorem Keeps.setEngine (hs : Keeps s₀ s) {e : Nat} {x : Engine} : Keeps s₀ (s.setEngine e x) := hs.same
theorem Keeps.setCmd (hs : Keeps s₀ s) {e src : Nat} {m : Cmd} : Keeps s₀ (s.setCmd e src m) := by
  unfold State.setCmd
  dsimp only
  split
  · exact hs.setEngine
  · split
    · exact hs.setEngine
    · exact hs
theorem Keeps.dropCmd (hs : Keeps s₀ s) {e src : Nat} : Keeps s₀ (s.dropCmd e src) := by
  unfold State.dropCmd
  dsimp only
  split
  · exact hs.setEngine
  · split
    · exact hs.setEngine
    · exact hs
theorem Keeps.askSrc (hs : Keeps s₀ s) {e : Nat} {m : Cmd} {off : Nat} {cause : Byte} : Keeps s₀ (s.askSrc e m off cause) :=
  hs.askPage
theorem Keeps.servedSrc (hs : Keeps s₀ s) {m : Cmd} {off n : Nat} : Keeps s₀ (s.servedSrc m off n) := hs.served
theorem Keeps.stepCmd (hs : Keeps s₀ s) {die eng src op : Nat} {f : Nat → Cmd → State} (hf : ∀ e m, Keeps s₀ (f e m)) :
    Keeps s₀ (s.stepCmd die eng src op f) := by
  unfold State.stepCmd
  dsimp only
  split
  · exact .ite (hf _ _) hs
  · exact hs
theorem execChainAttach_keeps (hs : Keeps s₀ s) {die eng ctx obj off : Nat} :
    NextWith (execChainAttach die eng ctx obj off s) (Keeps s₀) := by
  refine Keeps.next ?_
  split
  · split
    · exact hs.setEngine.holdGlobal
    · exact hs
  · exact hs
theorem Keeps.setCcb (hs : Keeps s₀ s) {c : Chain} {i : Nat} {d : Dword} : Keeps s₀ (s.setCcb c i d) := hs.dwWrite.getD hs
theorem Keeps.chainRecord (hs : Keeps s₀ s) {ctx die eng : Nat} {cause : Byte} {addr : Dword} :
    Keeps s₀ (s.chainRecord ctx die eng cause addr) := hs.post
theorem Keeps.chainHalt (hs : Keeps s₀ s) {c : Chain} {die eng : Nat} {cause : Byte} {addr : Dword} :
    Keeps s₀ (s.chainHalt c die eng cause addr) := hs.setCcb.chainRecord.count
theorem execChainEntryTake_keeps (hs : Keeps s₀ s) {die eng chain : Nat} :
    NextWith (execChainEntryTake die eng chain s) (Keeps s₀) := by
  refine Keeps.next ?_
  split
  · exact hs
  · split
    · exact hs
    · split
      · split
        · exact hs.askPage
        · exact hs
      · dsimp only
        split
        · exact hs.chainHalt
        · split
          · exact hs.askPage
          · exact hs.chainHalt
          · exact hs.served.setCcb.setCcb.setCmd
theorem execEngineNop_keeps (hs : Keeps s₀ s) {die eng src : Nat} : NextWith (execEngineNop die eng src s) (Keeps s₀) :=
  Keeps.next (hs.stepCmd fun _ _ => hs.setCmd)
theorem Keeps.startShadow (hs : Keeps s₀ s) {e src : Nat} {m : Cmd} : Keeps s₀ (s.startShadow e src m) := by
  unfold State.startShadow
  dsimp only
  split
  · exact hs.setCmd
  · split
    · exact .ite hs hs.setCmd.count
    · split
      · exact (hs.createShadow.of_eq ‹_›).setCmd
      · exact hs.foldl fun _ _ h => by
          split
          · exact h.askPage
          · exact h
      · exact hs.setCmd
theorem Keeps.shadowBytes (hs : Keeps s₀ s) {m : Cmd} {l : List Byte} : Keeps s₀ (s.shadowBytes m l) := hs.shadowPut
theorem Keeps.shadowStep (hs : Keeps s₀ s) {e src : Nat} {m : Cmd} {l : List Byte} : Keeps s₀ (s.shadowStep e src m l) := by
  unfold State.shadowStep
  dsimp only
  split
  · exact hs.askPage
  · exact hs.setCmd
  · exact hs.shadowBytes.setCmd.count
theorem execEngineCopy_keeps (hs : Keeps s₀ s) {die eng src : Nat} : NextWith (execEngineCopy die eng src s) (Keeps s₀) :=
  Keeps.next (hs.stepCmd fun _ _ => .ite hs.startShadow (by
    dsimp only
    split
    · exact hs.askSrc
    · exact hs.setCmd
    · exact hs.servedSrc.shadowStep))
theorem execEngineFill_keeps (hs : Keeps s₀ s) {die eng src : Nat} : NextWith (execEngineFill die eng src s) (Keeps s₀) :=
  Keeps.next (hs.stepCmd fun _ _ => .ite hs.startShadow hs.shadowStep)
theorem execEngineStash_keeps (hs : Keeps s₀ s) {die eng src : Nat} : NextWith (execEngineStash die eng src s) (Keeps s₀) :=
  Keeps.next (hs.stepCmd fun _ _ => .ite hs.setCmd (by
    split
    · exact hs.askSrc
    · exact hs.setCmd
    · dsimp only
      split
      · exact hs.askPage
      · exact hs.setCmd
      · exact (hs.servedSrc.stashWrite.of_eq ‹_›).modCluster.setCmd.count))
theorem execEngineSlot_keeps (hs : Keeps s₀ s) {die eng src : Nat} : NextWith (execEngineSlot die eng src s) (Keeps s₀) :=
  Keeps.next (hs.stepCmd fun _ _ => by
    dsimp only
    split
    · exact hs.askSrc
    · exact hs.setCmd
    · exact .ite hs.setCmd hs.servedSrc.modCluster.markRows.setCmd.count)
theorem execEngineLaunch_keeps (hs : Keeps s₀ s) {die eng src : Nat} : NextWith (execEngineLaunch die eng src s) (Keeps s₀) :=
  Keeps.next (hs.stepCmd fun _ _ => .ite hs (by
    dsimp only
    split
    · exact hs.askSrc
    · exact hs.setCmd
    · split
      · exact hs
      · split
        · exact hs.free.setCmd
        · split
          · exact (hs.enqueueLaunch.of_eq ‹_›).servedSrc.setCmd
          · exact hs))
theorem Keeps.engineLook (hs : Keeps s₀ s) {e src : Nat} {m : Cmd} : Keeps s₀ (s.engineLook e src m) := by
  unfold State.engineLook
  dsimp only
  split
  · exact hs.askSrc
  · exact hs.setCmd
  · split
    · exact hs.servedSrc.setCmd
    · exact hs
theorem execEngineWait_keeps (hs : Keeps s₀ s) {die eng src : Nat} : NextWith (execEngineWait die eng src s) (Keeps s₀) :=
  Keeps.next (hs.stepCmd fun _ _ => .ite hs hs.engineLook)
theorem execEngineWaitWake_keeps (hs : Keeps s₀ s) {die eng src : Nat} :
    NextWith (execEngineWaitWake die eng src s) (Keeps s₀) := Keeps.next (hs.stepCmd fun _ _ => .ite hs.engineLook hs)
theorem Keeps.bumpSeq (hs : Keeps s₀ s) {m : Cmd} : Within (Keeps s₀) (s.bumpSeq m) := by
  unfold State.bumpSeq
  dsimp only
  split
  · trivial
  · split
    · trivial
    · next y e =>
      have hy : Keeps s₀ y := by
        split at e
        · exact hs.objWrite.of_eq e
        · cases e
          exact hs
      exact hy.dwWrite
theorem Keeps.askSeq (hs : Keeps s₀ s) {e : Nat} {m : Cmd} : Keeps s₀ (s.askSeq e m) := by
  unfold State.askSeq
  split
  · exact hs.askPage
  · exact hs
theorem Keeps.endShadow (hs : Keeps s₀ s) {m : Cmd} : Within (Keeps s₀) (s.endShadow m) :=
  .ite hs (.ite hs.discardShadow (.ite hs.same hs.publish))
theorem Keeps.seqDone (hs : Keeps s₀ s) {m : Cmd} : Keeps s₀ (s.seqDone m) := .ite hs hs.freeGlobal
theorem Keeps.reportCmd (hs : Keeps s₀ s) {m : Cmd} {die eng : Nat} : Keeps s₀ (s.reportCmd m die eng) := by
  unfold State.reportCmd
  split
  · exact hs.chainRecord
  · exact hs.modWg.post.setFl
theorem execEngineCommandComplete_keeps (hs : Keeps s₀ s) {die eng src : Nat} :
    NextWith (execEngineCommandComplete die eng src s) (Keeps s₀) := by
  refine Keeps.next ?_
  split
  · exact hs
  · split
    · exact hs
    · split
      · exact hs
      · have hx := hs.endShadow.of_eq ‹_›
        split
        · exact hs.askSeq
        · have hy := hx.bumpSeq.of_eq ‹_›
          dsimp only
          split
          · exact (Keeps.ite hy.dropCmd.count.reportCmd.count hy.dropCmd.count).modCluster.seqDone
          · exact .ite hy.dropCmd.count.reportCmd.count hy.dropCmd.count

/-! ### Reductions across modules (R296 to R300) -/

theorem Keeps.xrUndo (hs : Keeps s₀ s) {handle : Word} {lost : Bool} : Keeps s₀ (s.xrUndo handle lost) := hs.same
theorem Keeps.xrLost {s0 : State} (hs : Keeps s₀ s0) {c k : Nat} {r : Req} {d : Option Dst} :
    Keeps s₀ (s0.xrLost c k r d) := by
  unfold State.xrLost
  extract_lets x
  have hx : Keeps s₀ x := by
    unfold x
    split
    · exact hs.xrUndo
    · exact hs
  split
  · exact hx.reqFailed
  · exact (Keeps.ite hx.modWarp.drainError hx.modWarp).stir
theorem Keeps.xrSend (hs : Keeps s₀ s) {h : Hdr} {t : Nat} {ts : List Nat} {handle : Word} {body : XrBody} {cap : Dword}
    {d : Option Dst} : Keeps s₀ (s.xrSend h t ts handle body cap d) := by
  unfold State.xrSend
  extract_lets w p no r x y
  have hx : Keeps s₀ x := by
    unfold x
    split
    · exact hs.freshId.pendBoth
    · exact hs.freshId.foldl fun _ _ h => h.pend
  have hy : Keeps s₀ y := hx.modMe
  exact .ite hy.xrLost hy.same
theorem Keeps.dropFlight (hs : Keeps s₀ s) {no : Nat} : Keeps s₀ (s.dropFlight no) := hs.same
theorem Keeps.xrAnswer (hs : Keeps s₀ s) {c k : Nat} {r : Req} {d : Option Dst} {v : Word} {cm : Bool} :
    Keeps s₀ (s.xrAnswer c k r d v cm) := by
  unfold State.xrAnswer
  exact hs.modWarp
theorem execXra_keeps (hs : Keeps s₀ s) {h : Hdr} {op : BitVec 3} {tmo : BitVec 4} {n1 : BitVec 6} {d a b c : Nat} :
    NextWith (execXra h op tmo n1 d a b c s) (Keeps s₀) :=
  Keeps.next (issue_keeps hs (perRun_keeps fun _ _ h => by
    dsimp only
    split
    · exact h
    · exact h.xrSend))
theorem execXrc_keeps (hs : Keeps s₀ s) {h : Hdr} {a c : Nat} : NextWith (execXrc h a c s) (Keeps s₀) :=
  Keeps.next (issue_keeps hs (perRun_keeps fun _ _ h => by
    dsimp only
    split
    · exact h
    · exact .ite h (.ite h (.ite h (.ite h.xrSend h.long)))))
theorem execXrf_keeps (hs : Keeps s₀ s) {h : Hdr} {a : Nat} : NextWith (execXrf h a s) (Keeps s₀) :=
  Keeps.next (issue_keeps hs (perRun_keeps fun _ _ h => by
    dsimp only
    split
    · exact h
    · split
      · exact h.long
      · exact Keeps.xrSend h.same))
theorem Keeps.xrAcquire (hs : Keeps s₀ s) {c e : Nat} {j : XrJoin} : Keeps s₀ (s.xrAcquire c e j) := hs.acquireIn
theorem execXrw_keeps (hs : Keeps s₀ s) {h : Hdr} {d a : Nat} : NextWith (execXrw h d a s) (Keeps s₀) :=
  Keeps.next (issue_keeps hs (perRun_keeps fun _ _ h => by
    dsimp only
    split
    · exact h
    · split
      · exact h.long
      · exact h.pendBoth.await))
theorem Keeps.runCm (hs : Keeps s₀ s) {c k : Nat} {ts : List Nat} {b p : Bool} : Keeps s₀ (s.runCm c k ts b p) := hs.modWarp
theorem execXrwWake_keeps (hs : Keeps s₀ s) {cl slot id : Nat} : NextWith (execXrwWake cl slot id s) (Keeps s₀) := by
  refine Keeps.next ?_
  split
  · split
    · dsimp only
      split
      · exact hs.reqFailed.endWait
      · split
        · exact hs
        · split
          · exact hs.xrAcquire.modWarp.lateWrite.runCm.endWait
          · split
            · exact hs.modWarp.lateWrite.runCm.endWait
            · exact .ite hs.reqFailed.endWait hs
    · exact hs
  · exact hs
theorem Keeps.setXr (hs : Keeps s₀ s) {i : Nat} {x : XrSlot} : Keeps s₀ (s.setXr i x) := hs.same
theorem Keeps.xrDone (hs : Keeps s₀ s) {i : Nat} {x : XrSlot} {timeout : Bool} {at_ : Nat} :
    Keeps s₀ (s.xrDone i x timeout at_) := hs.setXr.count.count
theorem Keeps.xrLapse (hs : Keeps s₀ s) {i : Nat} : Keeps s₀ (s.xrLapse i) := .ite hs.xrDone hs
theorem Keeps.xrReclaim (hs : Keeps s₀ s) {i : Nat} : Keeps s₀ (s.xrReclaim i) := .ite hs.setXr.count hs
theorem Keeps.xrNow (hs : Keeps s₀ s) {i : Nat} : Keeps s₀ (s.xrNow i) := hs.xrLapse.xrReclaim
theorem Keeps.hubXra (hs : Keeps s₀ s) {m : XrMsg} {op n tmo : Nat} {mask : Dword} :
    Keeps s₀ (s.hubXra m op n tmo mask).2 := by
  unfold State.hubXra
  dsimp only
  split
  · exact hs.xrNow.count.snd
  · split
    · exact hs.xrNow.count.snd
    · split
      · exact hs.xrNow.setXr.count.snd
      · exact hs.xrNow.setXr.count.snd
      · exact hs.xrNow.setXr.count.snd
theorem Keeps.hubXrc (hs : Keeps s₀ s) {m : XrMsg} {data : List Word} : Keeps s₀ (s.hubXrc m data).2 := by
  unfold State.hubXrc
  dsimp only
  split
  · exact (Keeps.ite hs.xrNow.xrDone hs.xrNow.setXr).count.snd
  · exact hs.xrNow.count.snd
theorem Keeps.hubXrf (hs : Keeps s₀ s) {m : XrMsg} : Keeps s₀ (s.hubXrf m) := .ite hs.xrNow.setXr hs.xrNow
theorem execXraAtHub_keeps (hs : Keeps s₀ s) {src : XrSrc} : NextWith (execXraAtHub src s) (Keeps s₀) := by
  refine Keeps.next ?_
  split
  · split
    · exact .ite hs.hubXra hs
    · exact hs
  · split
    · split
      · split
        · split
          · exact hs
          · extract_lets p ctx j q y
            have hp : Keeps s₀ p.2 := by
              unfold p
              split
              · exact hs.hubXra
              · exact hs
            have hy : Keeps s₀ y := .ite hp.same hp
            exact hy.dropFlight.xrAnswer
        · exact hs
      · exact hs
    · exact hs
theorem execXrcAtHub_keeps (hs : Keeps s₀ s) {src : XrSrc} : NextWith (execXrcAtHub src s) (Keeps s₀) := by
  refine Keeps.next ?_
  split
  · split
    · exact .ite hs.hubXrc hs
    · exact hs
  · split
    · split
      · split
        · extract_lets p
          have hp : Keeps s₀ p.2 := by
            unfold p
            split
            · exact hs.hubXrc
            · exact hs
          exact hp.dropFlight.xrAnswer
        · exact hs
      · exact hs
    · exact hs
theorem execXrfAtHub_keeps (hs : Keeps s₀ s) {src : XrSrc} : NextWith (execXrfAtHub src s) (Keeps s₀) := by
  refine Keeps.next ?_
  split
  · split
    · exact .ite hs.hubXrf hs
    · exact hs
  · split
    · split
      · split
        · exact (Keeps.ite hs.hubXrf hs).xrUndo.dropFlight.xrAnswer
        · exact hs
      · exact hs
    · exact hs
theorem Keeps.putRecord (hs : Keeps s₀ s) {j : XrJoin} {word0 : Word} {missing : Dword} {elems : List Word} :
    Within (Keeps s₀) (s.putRecord j word0 missing elems) := by
  unfold State.putRecord
  extract_lets put y
  have hput {x : Option State} {off : Nat} {w : Word} (hx : Within (Keeps s₀) x) : Within (Keeps s₀) (put x off w) := by
    unfold put
    cases x with
    | none => trivial
    | some x => exact Keeps.objWrite hx
  have hy : Within (Keeps s₀) y := Within.foldl (o := some s) hs fun _ _ h => hput h
  exact hput (hput (hput (hput hy)))
theorem execXrRecordWrite_keeps (hs : Keeps s₀ s) {handle : Word} {dev : Nat} {word0 : Word} {missing : Dword}
    {elems : List Word} : NextWith (execXrRecordWrite handle dev word0 missing elems s) (Keeps s₀) := by
  refine Keeps.next ?_
  split
  · exact hs
  · split
    · dsimp only
      split
      · split
        · split
          · exact hs.setXr
          · split
            · exact hs.setXr.putRecord.of_eq ‹_›
            · exact hs
        · exact .ite hs.setXr hs
      · exact hs
    · split
      · split
        · exact hs
        · exact .ite (hs.putRecord.getD hs) hs
      · exact hs
theorem Keeps.xrPortDown (hs : Keeps s₀ s) {dev : Nat} : Keeps s₀ (s.xrPortDown dev) := by
  unfold State.xrPortDown
  extract_lets y z
  have hy : Keeps s₀ y := hs.foldl fun _ _ h => .ite h.xrDone h
  have hz : Keeps s₀ z := hy.same
  exact hz.foldl fun _ _ h => by
    split
    · split
      · exact h.dropFlight.xrLost
      · exact h
    · exact h.dropFlight

/-! ### Accesses from outside and the tarnish (R165, R247 to R256) -/

theorem Keeps.tellOut (hs : Keeps s₀ s) {peer : Option Nat} {acc : OutAcc} {old : Nat} :
    Keeps s₀ (s.tellOut peer acc old) := by
  unfold State.tellOut
  split
  · exact hs
  · exact hs.same
theorem Keeps.outDo {s0 : State} (hs : Keeps s₀ s0) {o : Outside} {a : Nat} : Keeps s₀ (s0.outDo o a) := by
  unfold State.outDo
  extract_lets n q old x
  have hx : Keeps s₀ x := hs.telling.mscServe.tellOut
  split
  · exact hx.homePut
  · exact hx
theorem Keeps.outTry (hs : Keeps s₀ s) {o : Outside} : Keeps s₀ (s.outTry o) := by
  unfold State.outTry
  extract_lets wait
  have hwait {x : State} {o : Outside} (h : Keeps s₀ x) : Keeps s₀ (wait x o) := h.same
  split
  · exact hwait hs
  · split
    · exact hs.outDo.same
    · exact hs.same
    · exact .ite (hwait hs.post) (hwait hs)
theorem Keeps.outNew (hs : Keeps s₀ s) {peer : Option Nat} {ctx obj off : Nat} {acc : OutAcc} :
    Keeps s₀ (s.outNew peer ctx obj off acc) := Keeps.outTry hs.same
theorem Keeps.clearTile (hs : Keeps s₀ s) {cl i : Nat} : Keeps s₀ (s.clearTile cl i) := hs.modCluster.idleMark.count
theorem Keeps.sweep (hs : Keeps s₀ s) {cl : Nat} : Keeps s₀ (s.sweep cl) := hs.foldl fun _ _ h => .ite h.clearTile h
theorem Keeps.tileAccess (hs : Keeps s₀ s) {cl i kind : Nat} {off : Nat} {y : Word} :
    Keeps s₀ (s.tileAccess cl i kind off y).1 := by
  unfold State.tileAccess
  dsimp only
  split
  · exact hs.count
  · exact Keeps.ite hs.modCluster hs.count
  · exact Keeps.ite hs.modCluster.count hs.count
  · exact hs
  · exact hs.modCluster.count.count
theorem Keeps.tarnStep (hs : Keeps s₀ s) {c k : Nat} {r : Req} : Keeps s₀ (s.tarnStep c k r) := by
  unfold State.tarnStep
  split
  · dsimp only
    split
    · exact hs
    · split
      · exact hs
      · split
        · exact hs.reqFailed
        · exact hs.modWarp.stir
      · split
        · exact hs
        · exact .ite hs hs.tileAccess.modWarp.stir
  · exact hs
theorem TarnWord.lane_keeps {x : State} (hs : Keeps s₀ x) {a : TarnWord} {t : Nat} {ts : List Nat} :
    LaneKeeps s₀ (a.lane x t ts) := by
  unfold TarnWord.lane
  extract_lets w g obj near plated p dst r y z z1
  split
  · exact hs
  · split
    · exact hs
    · have hy : Keeps s₀ y := hs.freshId.count
      have hz : Keeps s₀ z := by
        unfold z
        generalize dst = e
        cases e with
        | some e => exact hy.pend
        | none => exact hy
      have hz1 : Keeps s₀ z1 := .ite (hz.foldl fun _ _ h => h.pend) hz
      exact .ite hs (.ite hs hz1.modMe)
theorem tarnWord_keeps (hs : Keeps s₀ s) {a : TarnWord} : Keeps s₀ (tarnWord s a) :=
  issue_keeps hs fun _ _ h => lanes_keeps (fun _ _ _ h => TarnWord.lane_keeps h) _ _ h

end Sys2Proof.Machine
end

section
/-! SUPPORT. The port to memory and its snoops, the clocks, the ports, the module's health, its management and its start keep
the time base and the canonical memory. -/

namespace Sys2Proof.Machine

set_option Elab.async false

variable {s₀ s t : State} {α β : Type}

/-! ### The port to memory, descriptors and pages (R95 to R101, R164 to R170) -/

theorem execTarnishExpiry_keeps (hs : Keeps s₀ s) {cl tile : Nat} : NextWith (execTarnishExpiry cl tile s) (Keeps s₀) :=
  Keeps.next (.ite hs.clearTile hs)
theorem execTarnishTileMap_keeps (hs : Keeps s₀ s) {ctx obj i clu tile : Nat} :
    NextWith (execTarnishTileMap ctx obj i clu tile s) (Keeps s₀) := Keeps.next (.ite hs.setPd.clearTile hs)
theorem Keeps.freeTiles (hs : Keeps s₀ s) {ctx obj : Nat} : Keeps s₀ (s.freeTiles ctx obj) := hs.foldl fun _ _ h => h.clearTile
theorem Keeps.tlbFill (hs : Keeps s₀ s) {ctx obj off : Nat} : Keeps s₀ (s.tlbFill ctx obj off) := .ite hs hs.same

theorem Keeps.portRecordIf (hs : Keeps s₀ s) {p : Prop} [Decidable p] {c k : Nat} {cause : Byte} {obj off : Nat}
    {pc : BitVec 40} {lanes : Word} : Keeps s₀ (if p then s.portRecord c k cause obj off pc lanes else (0, s)).2 := by
  split
  · exact hs.portRecord
  · exact hs

theorem Keeps.holdReq (hs : Keeps s₀ s) {c k : Nat} {r : Req} {cause : Byte} : Keeps s₀ (s.holdReq c k r cause) :=
  hs.portRecordIf.modWarp.wake
theorem Keeps.retry (hs : Keeps s₀ s) {c k : Nat} {r : Req} : Keeps s₀ (s.retry c k r) := by
  unfold State.retry
  dsimp only
  split
  · exact hs
  · split
    · exact (hs.performAt.of_eq ‹_›).modWarp.stir
    · exact hs.holdReq
    · exact hs.modWarp
theorem Keeps.backStep (hs : Keeps s₀ s) {c k : Nat} {r : Req} : Keeps s₀ (s.backStep c k r) := by
  unfold State.backStep
  dsimp only
  split
  · exact hs.modWarp.stir
  · split
    · exact (hs.flushWord.of_eq ‹_›).giveUp.count.modWarp.stir
    · exact hs
    · exact hs.modWarp
theorem execMemoryPortTranslate_keeps (hs : Keeps s₀ s) {cl slot id : Nat} :
    NextWith (execMemoryPortTranslate cl slot id s) (Keeps s₀) := by
  refine Keeps.next ?_
  split
  · split
    · exact hs.outTry
    · exact hs
  · split
    · split
      · exact hs
      · split
        · exact hs.portRecordIf.modWarp.wake
        · exact hs.tlbFill.fixLoad
        · exact hs
    · split
      · split
        · exact hs
        · split
          · exact hs
          · split
            · exact hs
            · split
              · exact hs.portRecordIf.modWarp
              · exact hs
      · split
        · exact hs
        · split
          · exact hs.retry
          · exact hs.retry
          · split
            · exact hs.holdReq
            · split
              · exact hs.backStep
              · exact hs.tarnStep
              · exact hs
theorem execLongResultWrite_keeps (hs : Keeps s₀ s) {cl slot id : Nat} :
    NextWith (execLongResultWrite cl slot id s) (Keeps s₀) := by
  refine Keeps.next ?_
  split
  · exact .ite hs hs.longDone
  · split
    · split
      · exact hs.atomStep
      · exact hs.serviceStep
    · exact hs
theorem Keeps.mapPage (hs : Keeps s₀ s) {old val : Dword} {p : Nat × Nat × Nat} : Keeps s₀ (s.mapPage old val p) := by
  unfold State.mapPage
  extract_lets d n place x
  have hx : Keeps s₀ x := by
    unfold x
    split
    · exact hs.keepFrames
    · exact hs
  split
  · exact .ite hs.clearTile hs
  · split
    · exact hx.mapFrames
    · exact hx
theorem Keeps.newModel (hs : Keeps s₀ s) {pa : Nat} {old val : Dword} : Keeps s₀ (s.newModel pa old val) := .ite hs hs.same
theorem Keeps.keepOld (hs : Keeps s₀ s) {ctx obj : Nat} {d : Desc} : Keeps s₀ (s.keepOld ctx obj d) := hs.same
theorem Keeps.writeDesc (hs : Keeps s₀ s) {ctx obj i : Nat} {val : Dword} : Keeps s₀ (s.writeDesc ctx obj i val) := by
  unfold State.writeDesc
  extract_lets d x y was now z e paged kept q
  have hz : Keeps s₀ z := hs.keepOld.setPd.foldl fun _ _ h => h.clearTile
  have hkept : Keeps s₀ kept := .ite hz.keepPages hz.dropFrames
  have hq : Keeps s₀ q := .ite hkept.mapPages hkept
  exact .ite hq.same hq
theorem execDescriptorSnoop_keeps (hs : Keeps s₀ s) {ctx obj i : Nat} {val : Dword} :
    NextWith (execDescriptorSnoop ctx obj i val s) (Keeps s₀) := Keeps.next (.ite hs.writeDesc hs)
theorem execTlbSnoop_keeps (hs : Keeps s₀ s) {pa : Nat} {val : Dword} : NextWith (execTlbSnoop pa val s) (Keeps s₀) := by
  unfold execTlbSnoop
  extract_lets old x y z
  have hx : Keeps s₀ x := hs.foldl fun _ _ h => h.mapPage
  have hz : Keeps s₀ z := (hx.newModel.foldl fun _ _ h => h.writeDesc).setPd
  exact Keeps.next (.ite (Keeps.same hz).wash hs)
theorem execMigrationRequest_keeps (hs : Keeps s₀ s) {ctx obj page : Nat} {to_ : Home} :
    NextWith (execMigrationRequest ctx obj page to_ s) (Keeps s₀) := by
  unfold execMigrationRequest
  extract_lets d e x
  have hx : Keeps s₀ x := hs.setPd
  exact Keeps.next (.ite hx.same hs)
theorem execMigrationComplete_keeps (hs : Keeps s₀ s) {ctx obj page pa : Nat} :
    NextWith (execMigrationComplete ctx obj page pa s) (Keeps s₀) := by
  refine Keeps.next ?_
  split
  · exact hs
  · split
    · exact hs
    · split
      · exact (Keeps.ite hs.putPhysBytes.zeroAt hs.putPhysBytes).setPd.setPd.wash
      · exact hs
theorem execPinWindowExpiry_keeps (hs : Keeps s₀ s) {ctx obj page : Nat} :
    NextWith (execPinWindowExpiry ctx obj page s) (Keeps s₀) := by
  refine Keeps.next ?_
  split
  · exact hs
  · split
    · exact hs
    · extract_lets x
      have hx : Keeps s₀ x := .ite hs.setPd hs
      exact hx.same
theorem Keeps.mergeWord (hs : Keeps s₀ s) {ctx obj i : Nat} : Keeps s₀ (s.mergeWord ctx obj i) := by
  refine .ite hs ?_
  split
  · exact hs.dropUps.putWord
  · exact hs
theorem execHomeSliceRequest_keeps (hs : Keeps s₀ s) {ctx obj off : Nat} :
    NextWith (execHomeSliceRequest ctx obj off s) (Keeps s₀) := Keeps.next (hs.telling.foldl fun _ _ h => h.mergeWord)
theorem execOwnershipRecall_keeps (hs : Keeps s₀ s) {cl ctx obj word : Nat} :
    NextWith (execOwnershipRecall cl ctx obj word s) (Keeps s₀) := by
  refine Keeps.next ?_
  split
  · exact hs
  · exact .ite hs hs.recallWord
theorem execPeerProbe_keeps (hs : Keeps s₀ s) {cl peer ctx obj sector : Nat} :
    NextWith (execPeerProbe cl peer ctx obj sector s) (Keeps s₀) :=
  Keeps.next (.ite hs (.ite hs.count.fillFromPeer.count hs.count.count.modCluster))
theorem execTierRead_keeps (hs : Keeps s₀ s) {addr : Nat} : NextWith (execTierRead addr s) (Keeps s₀) :=
  Keeps.next (.ite hs.mscServe hs)
theorem execTierWriteback_keeps (hs : Keeps s₀ s) {addr : Nat} {data : List Byte} :
    NextWith (execTierWriteback addr data s) (Keeps s₀) := Keeps.next (.ite hs.putPhysBytes hs)
theorem Keeps.placeDo (hs : Keeps s₀ s) {peer : Nat} {a : Nat} {acc : OutAcc} : Keeps s₀ (s.placeDo peer a acc) := by
  unfold State.placeDo
  dsimp only
  split
  · exact hs
  · split
    · exact hs.recallAt.mscServe.tellOut.putPhysBytes
    · exact hs.recallAt.mscServe.tellOut
theorem execRemoteRequest_keeps (hs : Keeps s₀ s) {peer : Nat} {space : PeerSpace} {obj off : Nat} {acc : OutAcc} :
    NextWith (execRemoteRequest peer space obj off acc s) (Keeps s₀) := by
  refine Keeps.next ?_
  split
  · exact hs
  · split
    · exact hs
    · split
      · exact hs.count
      · split
        · exact .ite hs.outNew hs.count
        · exact .ite hs.placeDo hs
        · exact .ite hs.placeDo hs
        · exact .ite hs.placeDo hs
theorem execHostAccess_keeps (hs : Keeps s₀ s) {ctx obj off : Nat} {acc : OutAcc} :
    NextWith (execHostAccess ctx obj off acc s) (Keeps s₀) := Keeps.next (.ite hs.outNew hs)

/-! ### Clocks, ports and the parts that are retired (R303 to R323) -/

theorem execClockRatioChange_keeps (hs : Keeps s₀ s) {cl m : Nat} {boost : Option Bool} :
    NextWith (execClockRatioChange cl m boost s) (Keeps s₀) := by
  refine Keeps.next ?_
  split
  · exact .ite hs.modCluster hs
  · exact .ite hs (hs.foldl fun _ _ h => h.modCluster)
theorem Keeps.changeClock (hs : Keeps s₀ s) {c : Nat} {f : Cluster → Cluster} : Keeps s₀ (s.changeClock c f) := hs.modCluster
theorem Keeps.drainStation (hs : Keeps s₀ s) {c : Nat} : Keeps s₀ (s.drainStation c) :=
  hs.modCluster.foldl fun _ _ h => h.prefetchGo
theorem execHandshakeEnd_keeps (hs : Keeps s₀ s) {cl : Nat} : NextWith (execHandshakeEnd cl s) (Keeps s₀) := by
  refine Keeps.next ?_
  split
  · exact hs
  · exact hs.changeClock.drainStation
theorem Keeps.lifeAdd (hs : Keeps s₀ s) {key n : Nat} : Keeps s₀ (s.lifeAdd key n) := hs.same
theorem execDroopDetect_keeps (hs : Keeps s₀ s) {cl : Nat} : NextWith (execDroopDetect cl s) (Keeps s₀) :=
  Keeps.next (.ite hs hs.free.free.changeClock.lifeAdd.lifeAdd)
theorem execDroopRelease_keeps (hs : Keeps s₀ s) {cl : Nat} : NextWith (execDroopRelease cl s) (Keeps s₀) :=
  Keeps.next (.ite hs hs.changeClock)
theorem execThrottleSet_keeps (hs : Keeps s₀ s) {die thr tw : Nat} : NextWith (execThrottleSet die thr tw s) (Keeps s₀) :=
  Keeps.next (.ite (.ite hs.same (.ite hs.same hs)) hs)
theorem Keeps.failModule (hs : Keeps s₀ s) {why : Nat} : Keeps s₀ (s.failModule why) := .ite hs hs.same
theorem Keeps.degrade (hs : Keeps s₀ s) : Keeps s₀ s.degrade := by
  unfold State.degrade
  extract_lets x
  have hx : Keeps s₀ x := .ite hs.same hs
  exact .ite hx.failModule (.ite hx.failModule hx)
theorem Keeps.retireCluster (hs : Keeps s₀ s) {c cause : Nat} : Keeps s₀ (s.retireCluster c cause) :=
  .ite hs (Keeps.degrade hs.same)
theorem Keeps.retireChannel (hs : Keeps s₀ s) {k c cause : Nat} : Keeps s₀ (s.retireChannel k c cause) :=
  .ite hs (Keeps.degrade hs.same)
theorem Keeps.setPort (hs : Keeps s₀ s) {p : Nat} {x : Port} : Keeps s₀ (s.setPort p x) := hs.same
theorem Keeps.loseAll (hs : Keeps s₀ s) {dev : Option Nat} : Keeps s₀ (s.loseAll dev) := hs.same
theorem Keeps.downPort (hs : Keeps s₀ s) {p : Nat} : Keeps s₀ (s.downPort p) :=
  .ite hs.loseAll.setPort hs.loseAll.setPort.xrPortDown
theorem Keeps.retireLane (hs : Keeps s₀ s) {p lane cause : Nat} : Keeps s₀ (s.retireLane p lane cause) := by
  unfold State.retireLane
  extract_lets q x port y
  have hx : Keeps s₀ x := hs.same
  have hy : Keeps s₀ y := hx.setPort.count.lifeAdd.degrade
  exact .ite hs (.ite hy.downPort hy)
theorem Keeps.retirePort (hs : Keeps s₀ s) {p : Nat} : Keeps s₀ (s.retirePort p) := by
  unfold State.retirePort
  extract_lets q x port
  have hx : Keeps s₀ x := hs.same
  exact hx.setPort.degrade
theorem execPortTrain_keeps (hs : Keeps s₀ s) {p dev pod : Nat} : NextWith (execPortTrain p dev pod s) (Keeps s₀) :=
  Keeps.next (.ite hs (.ite hs.setPort (.ite hs.retirePort hs.same)))
theorem execFlitReplay_keeps (hs : Keeps s₀ s) {p : Nat} : NextWith (execFlitReplay p s) (Keeps s₀) :=
  Keeps.next (.ite hs.count hs)
theorem execPortRetrain_keeps (hs : Keeps s₀ s) {p : Nat} : NextWith (execPortRetrain p s) (Keeps s₀) :=
  Keeps.next (.ite hs.setPort.count.lifeAdd hs)
theorem execRetrainComplete_keeps (hs : Keeps s₀ s) {p : Nat} {failed : List Nat} :
    NextWith (execRetrainComplete p failed s) (Keeps s₀) := by
  refine Keeps.next ?_
  split
  · exact hs
  · exact .ite hs (hs.setPort.foldl fun _ _ h => h.retireLane)
theorem execPortDown_keeps (hs : Keeps s₀ s) {p : Nat} : NextWith (execPortDown p s) (Keeps s₀) :=
  Keeps.next (.ite hs.downPort hs)
theorem execPartRetire_keeps (hs : Keeps s₀ s) {p : Part} : NextWith (execPartRetire p s) (Keeps s₀) := by
  refine Keeps.next ?_
  split
  · exact .ite hs.retireCluster hs
  · exact .ite hs.retireChannel (.ite hs.retireChannel hs)
  · exact .ite hs.retireLane (.ite hs.retireLane hs)
  · exact hs
theorem execSchedulingCoreFailure_keeps (hs : Keeps s₀ s) {die : Nat} : NextWith (execSchedulingCoreFailure die s) (Keeps s₀) :=
  Keeps.next (Keeps.failModule hs.same)
theorem Keeps.sense (hs : Keeps s₀ s) : Keeps s₀ s.sense := hs.foldl fun _ _ h => h.free.lifeAdd
theorem execLifetimeRecordWrite_keeps (hs : Keeps s₀ s) : NextWith (execLifetimeRecordWrite s) (Keeps s₀) := by
  unfold execLifetimeRecordWrite
  extract_lets x
  have hx : Keeps s₀ x := hs.sense
  exact Keeps.next (.ite hx.same hs)
theorem execTarnishRetentionMeasure_keeps (hs : Keeps s₀ s) {at_ : TileAt} {ticks : Nat} :
    NextWith (execTarnishRetentionMeasure at_ ticks s) (Keeps s₀) := by
  unfold execTarnishRetentionMeasure
  extract_lets cl k low x
  have hx : Keeps s₀ x := hs.same
  exact Keeps.next (.ite hs (.ite hx.retireCluster hx))

/-! ### Management, contexts and the module's start (R324 to R332) -/

theorem Keeps.answer (hs : Keeps s₀ s) {l : List Byte} : Keeps s₀ (s.answer l) := hs.same
theorem Keeps.counterNow (hs : Keeps s₀ s) {unit : Nat} {c : Ctr} : Keeps s₀ (s.counterNow unit c).2 := by
  unfold State.counterNow
  split
  · exact hs.free.count.snd
  · exact hs.sweep.snd
  · exact hs
  · exact hs
  · exact hs
theorem execCounterRead_keeps (hs : Keeps s₀ s) {unit : Nat} {c : Ctr} : NextWith (execCounterRead unit c s) (Keeps s₀) :=
  Keeps.next (.ite hs.counterNow.answer hs)
theorem Keeps.keepPlate (hs : Keeps s₀ s) {unit : Nat} {c : Ctr} {v : Nat} : Keeps s₀ (s.keepPlate unit c v) :=
  .ite hs.lifeAdd hs
theorem execCounterReadClear_keeps (hs : Keeps s₀ s) {unit : Nat} {c : Ctr} :
    NextWith (execCounterReadClear unit c s) (Keeps s₀) := by
  unfold execCounterReadClear
  extract_lets p x y
  have hx : Keeps s₀ x := hs.counterNow.answer
  have hy : Keeps s₀ y := hx.keepPlate
  exact Keeps.next (.ite hs (.ite hy.same hx))
theorem execPoolCapacitySet_keeps (hs : Keeps s₀ s) {pool bytes : Nat} :
    NextWith (execPoolCapacitySet pool bytes s) (Keeps s₀) := Keeps.next (.ite hs.same hs)
theorem execAttestationRequest_keeps (hs : Keeps s₀ s) {nonce : List Byte} :
    NextWith (execAttestationRequest nonce s) (Keeps s₀) := Keeps.next (.ite hs.answer hs)
theorem execContextCreate_keeps (hs : Keeps s₀ s) {num table models binds kv fault0 fault1 : Nat} :
    NextWith (execContextCreate num table models binds kv fault0 fault1 s) (Keeps s₀) := by
  unfold execContextCreate
  extract_lets m
  have hm : Keeps s₀ { s with mem := m } :=
    ⟨hs.tick, fun h => memZero_wf _ _ (memZero_wf _ _ (memZero_wf _ _ (memZero_wf _ _ (memZero_wf _ _ (hs.wf h)))))⟩
  exact Keeps.next (.ite hm.setCtx hs)
theorem Keeps.drainCtx (hs : Keeps s₀ s) {n : Nat} : Keeps s₀ (s.drainCtx n).1 :=
  .foldl_fst hs fun _ _ h => .foldl_fst h fun _ _ h => by
    split
    · split
      · exact h.flushWord.of_eq ‹_›
      · exact h
      · exact h
    · exact h
theorem execContextEnd_keeps (hs : Keeps s₀ s) {num : Nat} : NextWith (execContextEnd num s) (Keeps s₀) := by
  refine Keeps.next ?_
  split
  · exact hs
  · have hd := hs.drainCtx (n := num)
    split
    · exact hs.foldl fun _ _ h => h.askPage
    · next x e =>
      have hx : Keeps s₀ x := by
        rw [e] at hd
        exact hd
      extract_lets merged y z
      have hm : Keeps s₀ merged := hx.foldl fun _ _ h => h.mergeWord
      have hy : Keeps s₀ y := hm.foldl fun _ _ h => h.freeTiles
      have hz : Keeps s₀ z := hy.foldl fun _ _ h => .ite h.hubXrf h
      exact hz.l2Drop.same
theorem Keeps.clearRetired (hs : Keeps s₀ s) : Keeps s₀ s.clearRetired := hs.same
theorem Keeps.applyRecord (hs : Keeps s₀ s) : Keeps s₀ s.applyRecord := by
  unfold State.applyRecord
  extract_lets r y x
  have hy : Keeps s₀ y := .ite hs.clearRetired hs
  have hx : Keeps s₀ x := hy.same
  exact .ite hx hx.degrade
theorem Keeps.bootFails (hs : Keeps s₀ s) {why : Nat} : Keeps s₀ (s.bootFails why) := by
  unfold State.bootFails
  exact (hs.failModule (why := why)).same
theorem Keeps.bootNext (hs : Keeps s₀ s) : Keeps s₀ s.bootNext := by
  unfold State.bootNext
  split
  · extract_lets x
    have hx : Keeps s₀ x := hs.same
    exact .ite hx.same hx.bootFails
  · exact .ite hs.same hs.bootFails
  · exact hs.applyRecord
  · exact .ite hs.same hs.bootFails
  · exact ⟨hs.tick, fun h => memFilter_wf _ (hs.wf h)⟩
  · exact .ite hs.same hs.bootFails
  · exact .ite hs.same hs
  · exact hs.same
theorem Keeps.bootStep (hs : Keeps s₀ s) : Keeps s₀ s.bootStep := .ite hs.same hs.bootNext
theorem pairLane_keeps {x : State} (hs : Keeps s₀ x) {h0 h1 : Half} {t : Nat} : LaneKeeps s₀ (pairLane h0 h1 x t) := by
  unfold pairLane
  extract_lets w r0 r1 put
  have hput {y : State} {o : Option LWrite} (h : Keeps s₀ y) : Keeps s₀ (put y o) := by
    unfold put
    cases o with
    | some l => exact h.writeReg
    | none => exact h
  split
  · exact hs
  · exact (hput (hput hs)).orSt
theorem pairOf_keeps (hs : Keeps s₀ s) {sw : Bool} {h0 h1 : Half} : Keeps s₀ (pairOf s sw h0 h1) :=
  issue_keeps hs (perLane_keeps fun _ _ h => pairLane_keeps h)

end Sys2Proof.Machine
end

section
/-! SUPPORT. Every instruction and event but a reset and a loss of power keeps the time base and the canonical memory, and every
step keeps the canonical memory. -/

namespace Sys2Proof.Machine

set_option Elab.async false

variable {s₀ s t : State}

/-! ### What exec answers -/

theorem NextWith.imp {o : Host.Outcome State Fault Refusal} {p q : State → Prop} (ho : NextWith o p) (hp : ∀ t, p t → q t) :
    NextWith o q := by
  obtain ⟨t, e, ht⟩ := ho
  exact ⟨t, e, hp t ht⟩
theorem NextWith.of_eq {o : Host.Outcome State Fault Refusal} {p : State → Prop} (ho : NextWith o p) (e : o = .next t) :
    p t := by
  obtain ⟨u, eu, hu⟩ := ho
  cases eu.symm.trans e
  exact hu

/-- Each instruction and event by its own lemma, or by that of the family it belongs to. -/
theorem exec_keeps (hs : Keeps s₀ s) {i : Instr} (hr : i ≠ .reset) (hl : i ≠ .lossOfPower) :
    NextWith (exec i s) (Keeps s₀) := by
  cases i with
  | nop => exact execNop_keeps hs
  | rep => exact execRep_keeps hs
  | bra => exact execBra_keeps hs
  | brc => exact execBrc_keeps hs
  | jmpi | ret => exact Keeps.next (jumpTo_keeps hs)
  | call => exact execCall_keeps hs
  | join => exact execJoin_keeps hs
  | exit => exact execExit_keeps hs
  | tail => exact execTail_keeps hs
  | yield => exact Keeps.next (issue_keeps hs fun _ _ h => h)
  | trap => exact execTrap_keeps hs
  | tretReplay => exact execTretReplay_keeps hs
  | tretResume => exact execTretResume_keeps hs
  | waitw => exact execWaitw_keeps hs
  | barArriveWait => exact execBarArriveWait_keeps hs
  | barArrive => exact execBarArrive_keeps hs
  | barWait => exact execBarWait_keeps hs
  | rdsr => exact execRdsr_keeps hs
  | wrsr => exact execWrsr_keeps hs
  | ems => exact execEms_keeps hs
  | eml => exact execEml_keeps hs
  | ema | emn | emo => exact Keeps.next (steer_keeps hs)
  | cms => exact execCms_keeps hs
  | cml => exact execCml_keeps hs
  | cmx => exact execCmx_keeps hs
  | part => exact execPart_keeps hs
  | xiset => exact execXiset_keeps hs
  | lnch => exact execLnch_keeps hs
  | wcan h lvl ka => exact execWcan_keeps hs (_lvl := lvl)
  | movwWrite => exact execMovwWrite_keeps hs
  | movwRead => exact execMovwRead_keeps hs
  | iadd | isub | imul | imulh | imulhN | imin | imax | idiv | idivN | irem | iremN | and | or | xor | andn | shl | shr |
    sar | rot | bfx => exact Keeps.next (alu2_keeps hs)
  | iaddc | isubb => exact Keeps.next (carryWord_keeps hs)
  | imad | bfi => exact Keeps.next (alu3_keeps hs)
  | iabs | ineg | not | popc | clz | brev => exact Keeps.next (alu1_keeps hs)
  | sel => exact execSel_keeps hs
  | selZ => exact execSelZ_keeps hs
  | iset => exact Keeps.next (compareWord_keeps hs fun _ _ h => h)
  | mov => exact execMov_keeps hs
  | movi | retag => exact Keeps.next (regWord_keeps hs)
  | cadd | crst => exact Keeps.next (pairWord_keeps hs)
  | cmk | clen => exact Keeps.next (capWord_keeps hs)
  | fadd | fsub | fmul => exact Keeps.next (float2_keeps hs)
  | ffma | fclass | f2i | i2f | fpk | fupk | bfma2 | ftwos | ftwop | rota => exact Keeps.next (floatWord_keeps hs)
  | fmin | fmax | fminm | fmaxm => exact Keeps.next (minmax2_keeps hs)
  | fset => exact Keeps.next (compareWord_keeps hs fun _ _ h => h.orSt)
  | frnd => exact Keeps.next (float1_keeps hs)
  | badd2 | bmul2 | bmin2 | bmax2 => exact Keeps.next (bf2_keeps hs)
  | frcp | frsq | fexp2 | flog2 | fsint | fcost | ftanh => exact Keeps.next (sfu_keeps hs)
  | fsqrt | fdiv => exact Keeps.next (longFloat_keeps hs fun _ _ h => h)
  | shflIdx | shflUp | shflDown | shflXor => exact Keeps.next (shuffle_keeps hs)
  | pswp | rdln => exact Keeps.next (issue_keeps hs fun _ _ h => longLanes_keeps h)
  | voteAny | voteAll | voteBallot | scan => exact Keeps.next (collective_keeps hs)
  | reduxAddI32 | reduxAddF32 | reduxMin | reduxMax | reduxMinN | reduxMaxN | reduxFmin | reduxFmax | reduxAnd | reduxOr |
    reduxXor => exact Keeps.next (redux_keeps hs)
  | ld | ldStrong => exact Keeps.next (loadWord_keeps hs)
  | ldk => exact execLdk_keeps hs
  | st | stStrong | stk => exact Keeps.next (storeWordOf_keeps hs)
  | ldh | ldhWf | ldhWfe => exact Keeps.next (ldhWord_keeps hs)
  | sth | sthSf | sthWesf => exact Keeps.next (sthWord_keeps hs)
  | smap => exact execSmap_keeps hs
  | sunmap => exact execSunmap_keeps hs
  | sflush => exact execSflush_keeps hs
  | tpl => exact execTpl_keeps hs
  | tplT => exact execTplT_keeps hs
  | acpt => exact execAcpt_keeps hs
  | redem => exact execRedem_keeps hs
  | pft h scl lim => exact execPft_keeps hs (lim := lim)
  | gath => exact execGath_keeps hs
  | scatAddF32 | scatAddI32 | scatMin | scatMax | scatOr => exact Keeps.next (scatter_keeps hs)
  | tclr => exact execTclr_keeps hs
  | atAdd | atMin | atMax | atAnd | atOr | atXor | atExch | atCas => exact at_keeps hs
  | redAdd | redMin | redMax | redAnd | redOr | redXor => exact red_keeps hs
  | bind => exact execBind_keeps hs
  | bindUn => exact execBindUn_keeps hs
  | acq => exact execAcq_keeps hs
  | rel => exact execRel_keeps hs
  | fence => exact execFence_keeps hs
  | publ => exact execPubl_keeps hs
  | tld | tst | burn | life | tinit => exact Keeps.next (tarnWord_keeps hs)
  | ofill => exact execOfill_keeps hs
  | ofillAssay => exact execOfillAssay_keeps hs
  | awset => exact execAwset_keeps hs
  | accrd => exact execAccrd_keeps hs
  | accrdW => exact execAccrdW_keeps hs
  | accwr => exact execAccwr_keeps hs
  | accrel => exact execAccrel_keeps hs
  | lwait => exact execLwait_keeps hs
  | ldone => exact execLdone_keeps hs
  | lqry => exact execLqry_keeps hs
  | kvx => exact execKvx_keeps hs
  | pfxh => exact execPfxh_keeps hs
  | pfxm => exact execPfxm_keeps hs
  | pfxpPin => exact execPfxpPin_keeps hs
  | pfxpUnpin => exact execPfxpUnpin_keeps hs
  | pfxpInsert => exact execPfxpInsert_keeps hs
  | wqpop => exact execWqpop_keeps hs
  | larr => exact execLarr_keeps hs
  | rnext => exact execRnext_keeps hs
  | xra => exact execXra_keeps hs
  | xrc => exact execXrc_keeps hs
  | xrw => exact execXrw_keeps hs
  | xrf => exact execXrf_keeps hs
  | oclm => exact execOclm_keeps hs
  | orel | orelRe => exact Keeps.next (release_keeps hs)
  | owait => exact execOwait_keeps hs
  | mma | mmas | mmah | assay => exact Keeps.next (anvilWord_keeps hs)
  | hmopAnd | hmopOr | hmopAndn | hmopSet | hmopClear => exact Keeps.next (hmWord_keeps hs)
  | hmopCount => exact execHmopCount_keeps hs
  | accz | accsig => exact Keeps.next (rowsWord_keeps hs)
  | pairNop | pairIadd | pairIsub | pairImul | pairImin | pairImax | pairIminN | pairImaxN | pairAnd | pairOr | pairXor |
    pairAndn | pairShl | pairShr | pairSar | pairRot | pairMov | pairFadd | pairFsub | pairFmul | pairFmin | pairFmax |
    pairBadd2 | pairBmul2 | pairBmin2 | pairBmax2 => exact Keeps.next (pairOf_keeps hs)
  | waitwWake => exact execWaitwWake_keeps hs
  | waitwTimeout => exact execWaitwTimeout_keeps hs
  | longResultWrite => exact execLongResultWrite_keeps hs
  | limitExpiry => exact execLimitExpiry_keeps hs
  | loadReply => exact execLoadReply_keeps hs
  | storeMemoryCause => exact execStoreMemoryCause_keeps hs
  | ldhWake => exact execLdhWake_keeps hs
  | sthWake => exact execSthWake_keeps hs
  | gathElementReply => exact execGathElementReply_keeps hs
  | acqWake => exact execAcqWake_keeps hs
  | acqTimeout => exact execAcqTimeout_keeps hs
  | relComplete => exact execRelComplete_keeps hs
  | fenceComplete => exact execFenceComplete_keeps hs
  | publComplete => exact execPublComplete_keeps hs
  | tarnishExpiry => exact execTarnishExpiry_keeps hs
  | tarnishTileMap => exact execTarnishTileMap_keeps hs
  | accrdWWake => exact execAccrdWWake_keeps hs
  | lwaitWake => exact execLwaitWake_keeps hs
  | lwaitTimeout => exact execLwaitTimeout_keeps hs
  | xrwWake => exact execXrwWake_keeps hs
  | xraAtHub => exact execXraAtHub_keeps hs
  | xrcAtHub => exact execXrcAtHub_keeps hs
  | xrSlotTimeout => exact Keeps.next hs.xrLapse
  | xrRecordWrite => exact execXrRecordWrite_keeps hs
  | xrfAtHub => exact execXrfAtHub_keeps hs
  | xrSlotReclaim => exact Keeps.next hs.xrReclaim
  | oclmResult => exact execOclmResult_keeps hs
  | orelAct => exact execOrelAct_keeps hs
  | owaitWake => exact execOwaitWake_keeps hs
  | anvilOpBegin => exact execAnvilOpBegin_keeps hs
  | anvilOpCommit => exact execAnvilOpCommit_keeps hs
  | mmahTileCommit => exact execMmahTileCommit_keeps hs
  | warpRetire => exact execWarpRetire_keeps hs
  | trackerEntryFree => exact execTrackerEntryFree_keeps hs
  | workgroupComplete => exact execWorkgroupComplete_keeps hs
  | deviceQueueTake => exact execDeviceQueueTake_keeps hs
  | placementReservation => exact execPlacementReservation_keeps hs
  | bindRecord => exact execBindRecord_keeps hs
  | clusterGate => exact execClusterGate_keeps hs
  | sliceExpiry => exact execSliceExpiry_keeps hs
  | watchdog => exact execWatchdog_keeps hs
  | preemptRequest => exact execPreemptRequest_keeps hs
  | preemptSaveComplete => exact execPreemptSaveComplete_keeps hs
  | faultRecordResolve => exact execFaultRecordResolve_keeps hs
  | memoryPortTranslate => exact execMemoryPortTranslate_keeps hs
  | tlbSnoop => exact execTlbSnoop_keeps hs
  | descriptorSnoop => exact execDescriptorSnoop_keeps hs
  | migrationRequest => exact execMigrationRequest_keeps hs
  | migrationComplete => exact execMigrationComplete_keeps hs
  | pinWindowExpiry => exact execPinWindowExpiry_keeps hs
  | homeSliceRequest => exact execHomeSliceRequest_keeps hs
  | scatUpdateAtSlice => exact execScatUpdateAtSlice_keeps hs
  | ownershipRecall => exact execOwnershipRecall_keeps hs
  | peerProbe => exact execPeerProbe_keeps hs
  | tierRead => exact execTierRead_keeps hs
  | tierWriteback => exact execTierWriteback_keeps hs
  | sprueFetchStart => exact execSprueFetchStart_keeps hs
  | sprueFetchComplete => exact execSprueFetchComplete_keeps hs
  | layerLeaveComplete => exact execLayerLeaveComplete_keeps hs
  | cwgo => exact execCwgo_keeps hs
  | registerWrite => exact execRegisterWrite_keeps hs
  | chainEntryTake => exact execChainEntryTake_keeps hs
  | engineNop => exact execEngineNop_keeps hs
  | engineCopy => exact execEngineCopy_keeps hs
  | engineFill => exact execEngineFill_keeps hs
  | engineStash => exact execEngineStash_keeps hs
  | engineSlot => exact execEngineSlot_keeps hs
  | engineLaunch => exact execEngineLaunch_keeps hs
  | engineWait => exact execEngineWait_keeps hs
  | engineWaitWake => exact execEngineWaitWake_keeps hs
  | engineCommandComplete => exact execEngineCommandComplete_keeps hs
  | portTrain => exact execPortTrain_keeps hs
  | flitReplay => exact execFlitReplay_keeps hs
  | portRetrain => exact execPortRetrain_keeps hs
  | retrainComplete => exact execRetrainComplete_keeps hs
  | portDown => exact execPortDown_keeps hs
  | remoteRequest => exact execRemoteRequest_keeps hs
  | hostAccess => exact execHostAccess_keeps hs
  | clockRatioChange => exact execClockRatioChange_keeps hs
  | handshakeEnd => exact execHandshakeEnd_keeps hs
  | droopDetect => exact execDroopDetect_keeps hs
  | droopRelease => exact execDroopRelease_keeps hs
  | throttleSet => exact execThrottleSet_keeps hs
  | partRetire => exact execPartRetire_keeps hs
  | lifetimeRecordWrite => exact execLifetimeRecordWrite_keeps hs
  | tarnishRetentionMeasure => exact execTarnishRetentionMeasure_keeps hs
  | attestationRequest => exact execAttestationRequest_keeps hs
  | counterRead => exact execCounterRead_keeps hs
  | counterReadClear => exact execCounterReadClear_keeps hs
  | poolCapacitySet => exact execPoolCapacitySet_keeps hs
  | contextCreate => exact execContextCreate_keeps hs
  | contextEnd => exact execContextEnd_keeps hs
  | reset => exact absurd rfl hr
  | schedulingCoreFailure => exact execSchedulingCoreFailure_keeps hs
  | lossOfPower => exact absurd rfl hl
  | chainAttach => exact execChainAttach_keeps hs

/-- A reset starts the module again where bring-up is at its end or has stopped (R330). -/
theorem execReset_of_ended (h : s.boot ≥ 8 ∨ s.halted = true) : execReset s = .next (s.restart s.flashOf) := by
  unfold execReset
  rw [if_pos h]
theorem execReset_keeps (hs : Keeps s₀ s) (h : ¬ (s.boot ≥ 8 ∨ s.halted = true)) : NextWith (execReset s) (Keeps s₀) := by
  unfold execReset
  rw [if_neg h]
  exact hs.bootStep.next
theorem restart_tick (s : State) (f : Flash) : (s.restart f).tick = 0 := rfl
theorem restart_mem (s : State) (f : Flash) : (s.restart f).mem = s.mem := rfl

theorem execReset_wf (s : State) : NextWith (execReset s) fun t => Memory.wf s.mem = true → Memory.wf t.mem = true := by
  by_cases h : s.boot ≥ 8 ∨ s.halted = true
  · exact ⟨_, execReset_of_ended h, fun hm => (restart_mem s s.flashOf).symm ▸ hm⟩
  · exact (execReset_keeps (.refl s) h).imp fun _ ht => ht.wf
theorem execLossOfPower_wf (s : State) :
    NextWith (execLossOfPower s) fun t => Memory.wf s.mem = true → Memory.wf t.mem = true :=
  ⟨_, rfl, memFilter_wf _⟩
theorem exec_wf (i : Instr) (s : State) : NextWith (exec i s) fun t => Memory.wf s.mem = true → Memory.wf t.mem = true := by
  by_cases hr : i = .reset
  · subst hr
    exact execReset_wf s
  · by_cases hl : i = .lossOfPower
    · subst hl
      exact execLossOfPower_wf s
    · exact (exec_keeps (.refl s) hr hl).imp fun _ ht => ht.wf

/-! ### Turns -/

theorem Keeps.turn (hs : Keeps s₀ s) : Keeps s₀ s.turn.2 := by
  unfold State.turn
  split
  · exact hs.same
  · exact hs.same
theorem Keeps.passCycles {s0 : State} (hs : Keeps s₀ s0) {c m : Nat} : Keeps s₀ (s0.passCycles c m) :=
  .ite hs ((hs.lanesDue.count.count.countGo.setCluster.releaseAll).foldl fun _ _ h => h.barCheck)
theorem Keeps.passOwed (hs : Keeps s₀ s) : Keeps s₀ s.passOwed := hs.foldl fun _ _ h => h.passCycles

theorem passTicks_wf (s : State) (n : Nat) (h : Memory.wf s.mem = true) : Memory.wf (s.passTicks n).mem = true := by
  unfold State.passTicks
  split
  · exact h
  · split
    · exact (Keeps.refl s).passOwed.wf h
    · dsimp only
      split
      · exact h
      · exact (Keeps.refl _).passOwed.wf h

theorem Keeps.finishRepeat (hs : Keeps s₀ s) : Keeps s₀ s.finishRepeat := by
  unfold State.finishRepeat
  split
  · exact hs
  · split
    · exact hs
    · split
      · exact hs
      · split
        · exact hs
        · exact hs.setMe
theorem Keeps.finishAgain (hs : Keeps s₀ s) {r : Redo} {l : List (Nat × Thread)} : Keeps s₀ (s.finishAgain r l) :=
  .ite hs.modMe hs.modMe.wake
theorem Keeps.finishRun (hs : Keeps s₀ s) : Keeps s₀ s.finishRun := by
  unfold State.finishRun
  split
  · exact hs.finishAgain
  · exact hs.finishRepeat
theorem Keeps.tried (hs : Keeps s₀ s) {c k : Nat} : Keeps s₀ (s.tried c k) := hs.modCluster.modWarp
theorem Keeps.fetchHeld (hs : Keeps s₀ s) {c k : Nat} {pc : BitVec 40} {run : List Nat} :
    Keeps s₀ (s.fetchHeld c k pc run) := by
  unfold State.fetchHeld
  dsimp only
  split
  · exact .ite hs.portRecord.modWarp hs
  · exact hs
theorem Keeps.fetched (hs : Keeps s₀ s) {c k : Nat} {pc : BitVec 40} : Keeps s₀ (s.fetched c k pc) := hs.served
theorem Keeps.prepRepeat (hs : Keeps s₀ s) {c k : Nat} {r : Rep} : PrepKeeps s₀ (s.prepRepeat c k r) := by
  unfold State.prepRepeat
  extract_lets w word q x off
  have hq : Keeps s₀ q := hs.fetched
  have hx : Keeps s₀ x := Keeps.modWarp hq.same
  have hoff (addr : Nat) : PrepKeeps s₀ (off addr) := hx.noWord.finishRun
  split
  · exact hs
  · split
    · exact hs.fetchHeld
    · exact hoff _
    · split
      · exact hoff _
      · split
        · exact hx
        · exact hoff _
theorem Keeps.prepRun (hs : Keeps s₀ s) {c k : Nat} : PrepKeeps s₀ (s.prepRun c k) := by
  unfold State.prepRun
  extract_lets w
  split
  · exact hs
  · split
    · exact hs
    · extract_lets q at_
      have hq : Keeps s₀ q := hs.fetched
      have hat (n : Nat) (run : List Nat) : Keeps s₀ (at_ n run) := Keeps.modWarp hq.same
      split
      · exact hs.fetchHeld
      · exact (hat _ _).noWord
      · extract_lets x
        have hx : Keeps s₀ x := hat _ _
        split
        · exact hx
        · exact hx.noWord
theorem Keeps.prepAgain (hs : Keeps s₀ s) {c k : Nat} {r : Redo} : PrepKeeps s₀ (s.prepAgain c k r) := by
  unfold State.prepAgain
  extract_lets w ts x
  have hx : Keeps s₀ x := Keeps.modMe hs.same
  split
  · exact hs.modWarp
  · split
    · exact hx.modMe
    · exact hx.noWord.finishRun
theorem Keeps.prepare (hs : Keeps s₀ s) {c k : Nat} : PrepKeeps s₀ (s.prepare c k) := by
  unfold State.prepare
  split
  · dsimp only
    split
    · exact hs.tried.prepRepeat
    · split
      · exact hs.tried.prepAgain
      · exact hs.tried.prepRun
  · exact hs

theorem take_wf (u : Turn) (s : State) : NextWith (take u s) fun t => Memory.wf s.mem = true → Memory.wf t.mem = true := by
  cases u with
  | pass n => exact ⟨_, rfl, passTicks_wf s n⟩
  | event i =>
    unfold take
    dsimp only
    split
    · exact exec_wf i s
    · exact ⟨s, rfl, id⟩
  | issue c k =>
    have hp := (Keeps.refl s).prepare (c := c) (k := k)
    unfold take
    dsimp only
    split
    · next x e =>
      rw [e] at hp
      exact ⟨x, rfl, hp.wf⟩
    · next i x e =>
      rw [e] at hp
      obtain ⟨y, ey, hy⟩ := exec_wf i x
      rw [ey]
      exact ⟨_, rfl, fun h => (Keeps.refl y).finishRun.wf (hy (hp.wf h))⟩

end Sys2Proof.Machine

open Sys2Proof.Machine

/-- Settles O10: every instruction and event answers a next state whose memory is canonical if it was before, and so does the
issue around it; the changes of memory are puts, erasures and zeroings, which keep its form. -/
theorem stepKeepsMemory : Obligations.StepKeepsMemory := by
  unfold Obligations.StepKeepsMemory
  intro s h
  obtain ⟨t, e, ht⟩ := take_wf s.turn.1 s.turn.2
  exact ⟨t, e, ht ((Keeps.refl s).turn.wf h)⟩

/-- Settles O12: only a start of the module writes the time base in exec, and it writes 0. -/
theorem onlyTimeMovesTheTimeBase : Obligations.OnlyTimeMovesTheTimeBase := by
  unfold Obligations.OnlyTimeMovesTheTimeBase
  intro i s t e
  split
  · next h =>
    obtain rfl | ⟨rfl, hb⟩ := h
    · cases e
      rfl
    · cases (execReset_of_ended hb).symm.trans e
      exact restart_tick s s.flashOf
  · next h =>
    rw [not_or] at h
    obtain ⟨hl, hb⟩ := h
    by_cases hr : i = .reset
    · subst hr
      exact ((execReset_keeps (.refl s) fun hb' => hb ⟨rfl, hb'⟩).of_eq e).tick
    · exact ((exec_keeps (.refl s) hr hl).of_eq e).tick
end

section
/-! SUPPORT. What the destinations of a reply show: after a write of their own, and past writes of others. -/

namespace Sys2Proof.Machine

/-! ### One write -/

/-- A write of destination `e` by thread `u` is no write of destination `d` of thread `t`. -/
def Apart (t : Nat) (d : Dst) (u : Nat) (e : Dst) : Prop :=
  match d, e with
  | .v n, .v m => 32 * n + t ≠ 32 * m + u
  | .k n, .k m => n ≠ m
  | .cm, .cm => t ≠ u
  | .h n, .h m => n ≠ m
  | _, _ => True

theorem bitOf_setBit_same (w : Word) (t : Nat) (b : Bool) (ht : t < 32) : bitOf (setBit w t b) t = b := by
  cases b <;> simp [bitOf, setBit, ht]
theorem bitOf_setBit_other (w : Word) (t u : Nat) (b : Bool) (h : t ≠ u) : bitOf (setBit w u b) t = bitOf w t := by
  rcases Nat.lt_or_ge t 32 with ht | ht
  · rcases Nat.lt_or_gt_of_ne h with hu | hu
    · cases b <;> simp [bitOf, setBit, ht, hu]
    · cases b <;> simp [bitOf, setBit, ht, Nat.not_lt_of_gt hu, Nat.sub_ne_zero_of_lt hu]
  · simp [bitOf, ht]

/-- Untying a lane changes tickets and loads alone. -/
theorem Warp.untie_frame (w : Warp) (k : Bool) (reg t : Nat) :
    ∃ (x : Tab Ticket) (l : List Load), w.untie k reg t = { w with tickets := x, loads := l } := by
  unfold Warp.untie
  split
  · exact ⟨_, _, rfl⟩
  · exact ⟨_, _, rfl⟩

variable {w : Warp} {t u conv v : Nat} {d e : Dst} {x y : Word} {tag tg : BitVec 2} {plate pl : Bool}

theorem Warp.shows_write (w : Warp) (t : Nat) (d : Dst) (x : Word) (tag : BitVec 2) (plate : Bool) :
    (w.write t d x tag plate).shows t d x tag plate := by
  cases d with
  | v n => exact Warp.getV_putV _ _ _ _
  | k n =>
    intro hn
    simp [Warp.write, Warp.putK, hn]
  | cm =>
    intro ht
    exact ⟨bitOf_setBit_same _ _ _ ht, bitOf_setBit_same _ _ _ ht⟩
  | h n => exact Tab.get_put_same _ _ _ _

theorem Warp.shows_write_apart (h : Apart t d u e) :
    (w.write u e y tg pl).shows t d x tag plate ↔ w.shows t d x tag plate := by
  cases e with
  | v m =>
    obtain ⟨tk, l, hu⟩ := w.untie_frame false m u
    simp only [Warp.write, hu]
    cases d with
    | v n => simp only [Warp.shows, Warp.getV_putV_ne _ _ _ _ _ _ h]; rfl
    | k | cm | h => rfl
  | k m =>
    obtain ⟨tk, l, hu⟩ := w.untie_frame true m 0
    by_cases hm : m = 0
    · simp [Warp.write, hm]
    · simp only [Warp.write, hu, Warp.putK, hm, if_false]
      cases d with
      | k n => simp only [Warp.shows, Tab.get_put_other _ _ _ _ _ h]
      | v | cm | h => rfl
  | cm =>
    cases d with
    | cm => simp only [Warp.shows, Warp.write, bitOf_setBit_other _ _ _ _ h]
    | v | k | h => rfl
  | h m =>
    cases d with
    | h n => simp only [Warp.shows, Warp.write, Tab.get_put_other _ _ _ _ _ h]
    | v | k | cm => rfl

theorem Warp.shows_unpendDst_apart (h : Apart t d u e) :
    (w.unpendDst u e).shows t d x tag plate ↔ w.shows t d x tag plate := by
  cases e with
  | v m =>
    cases d with
    | v n => simp only [Warp.shows, Warp.unpendDst, Warp.getV_putV_ne _ _ _ _ _ _ h]
    | k | cm | h => rfl
  | k m =>
    by_cases hm : m = 0
    · simp [Warp.unpendDst, hm]
    · simp only [Warp.unpendDst, Warp.putK, hm, if_false]
      cases d with
      | k n => simp only [Warp.shows, Tab.get_put_other _ _ _ _ _ h]
      | v | cm | h => rfl
  | cm | h => cases d <;> rfl

/-- What a destination shows lies in the registers, CM, CPM and the hm registers. -/
theorem Warp.shows_congr (w' : Warp) (hv : w'.v = w.v) (hk : w'.k = w.k) (hcm : w'.cm = w.cm) (hcpm : w'.cpm = w.cpm)
    (hh : w'.h = w.h) : w'.shows t d x tag plate ↔ w.shows t d x tag plate := by
  cases d with
  | v n => simp only [Warp.shows, Warp.getV, hv]
  | k n => simp only [Warp.shows, hk]
  | cm => simp only [Warp.shows, hcm, hcpm]
  | h n => simp only [Warp.shows, hh]

/-! ### A number -/

/-- The two registers of a 64-bit number are two destinations. -/
theorem Dst.apart_plus (hd : d.isReg) (t : Nat) : Apart t d t (d.plus 1) := by
  cases d with
  | v n => show 32 * n + t ≠ 32 * (n + 1) + t; omega
  | k n => show n ≠ n + 1; omega
  | cm | h => exact hd.elim

theorem Warp.settleReg_shows (w : Warp) (t : Nat) (hd : d.isReg) (conv v : Nat) (plate : Bool) :
    (w.settleReg t d conv v plate).showsNumber t d conv v plate := by
  unfold Warp.settleReg Warp.showsNumber
  split
  · have ha := Dst.apart_plus hd t
    exact ⟨(shows_write_apart ha).mpr ((shows_unpendDst_apart ha).mpr (shows_write ..)), shows_write ..⟩
  · exact shows_write ..

/-- A number stands in registers: CM and CPM are no part of it. -/
theorem Warp.showsNumber_congr (w' : Warp) (hd : d.isReg) (hv : w'.v = w.v) (hk : w'.k = w.k) :
    w'.showsNumber t d conv v plate ↔ w.showsNumber t d conv v plate := by
  cases d with
  | v n => simp only [Warp.showsNumber, Warp.shows, Warp.getV, Dst.plus, hv]
  | k n => simp only [Warp.showsNumber, Warp.shows, Dst.plus, hk]
  | cm | h => exact hd.elim

/-! ### CM -/

/-- Threads get `x` in CM, with its pending bit cleared. -/
def Warp.settleCm (w : Warp) (ts : List Nat) (x : Word) (plate : Bool) : Warp :=
  ts.foldl (fun q t => (q.unpendDst t .cm).write t .cm x 0 plate) w

theorem Warp.settleCm_regs (w : Warp) (ts : List Nat) (x : Word) (plate : Bool) :
    (w.settleCm ts x plate).v = w.v ∧ (w.settleCm ts x plate).k = w.k :=
  List.foldlRecOn (motive := fun q : Warp => q.v = w.v ∧ q.k = w.k) ts _ ⟨rfl, rfl⟩ fun _ hq _ _ => hq

theorem Warp.settleCm_shows (w : Warp) (ts : List Nat) (x : Word) (plate : Bool) :
    (w.settleCm ts x plate).showsCm ts (bitOf x 0) := by
  suffices H : ∀ (w : Warp), ∀ t < 32, t ∈ ts ∨ bitOf w.cm t = bitOf x 0 → bitOf (w.settleCm ts x plate).cm t = bitOf x 0 from
    fun t ht hlt => H w t hlt (.inl ht)
  unfold Warp.settleCm
  induction ts with
  | nil => exact fun w t _ h => h.resolve_left List.not_mem_nil
  | cons u r ih =>
    intro w t ht h
    refine ih _ t ht ?_
    by_cases htu : t = u
    · subst htu
      exact .inr (bitOf_setBit_same _ _ _ ht)
    · refine h.imp (fun hm => (List.mem_cons.mp hm).resolve_left htu) fun hb => ?_
      exact (bitOf_setBit_other _ _ _ _ htu).trans hb

/-! ### The writes of a long result -/

/-- A write of a long result is made. -/
def Warp.put (w : Warp) (x : LWrite) : Warp := (w.unpendDst x.t x.dst).write x.t x.dst x.val x.tag x.plate

theorem LWrite.apart_of_not_meets {x y : LWrite} (h : x.meets y = false) (hx : x.t < 32) (hy : y.t < 32) :
    Apart x.t x.dst y.t y.dst := by
  obtain ⟨t, d, _, _, _⟩ := x
  obtain ⟨u, e, _, _, _⟩ := y
  have hoff {n m : Nat} (h : n = m → t ≠ u) : 32 * n + t ≠ 32 * m + u := by
    simp only at hx hy
    omega
  cases d with
  | v n => cases e with
    | v m => exact hoff (by simpa [LWrite.meets] using h)
    | k | cm | h => trivial
  | k n => cases e with
    | k m => simpa [LWrite.meets, Apart] using h
    | v | cm | h => trivial
  | cm => cases e with
    | cm => simpa [LWrite.meets, Apart] using h
    | v | k | h => trivial
  | h n => cases e with
    | h m => simpa [LWrite.meets, Apart] using h
    | v | k | cm => trivial

/-- Later writes of other destinations leave what stands. -/
theorem Warp.shows_foldl_put {z : LWrite} {l : List LWrite} (w : Warp) (hz : z.t < 32) (hl : ∀ y ∈ l, y.t < 32)
    (hm : ∀ y ∈ l, z.meets y = false) (h : w.shows z.t z.dst z.val z.tag z.plate) :
    (l.foldl put w).shows z.t z.dst z.val z.tag z.plate :=
  List.foldlRecOn (motive := fun q => q.shows z.t z.dst z.val z.tag z.plate) l put h fun _ hq y hy =>
    have ha := LWrite.apart_of_not_meets (hm y hy) hz (hl y hy)
    (shows_write_apart ha).mpr ((shows_unpendDst_apart ha).mpr hq)

/-- Each write that no later one of the same destination overtakes stands at the end. -/
theorem Warp.lastWrites_shown (w : Warp) (l : List LWrite) (hl : ∀ y ∈ l, y.t < 32) :
    ∀ z ∈ lastWrites l, (l.foldl put w).shows z.t z.dst z.val z.tag z.plate := by
  induction l generalizing w with
  | nil => exact fun z hz => absurd hz List.not_mem_nil
  | cons y r ih =>
    have ⟨hy, hr⟩ := List.forall_mem_cons.mp hl
    intro z hz
    unfold lastWrites at hz
    split at hz
    · exact ih (w.put y) hr z hz
    · rename_i hm
      rcases List.mem_cons.mp hz with rfl | hz
      · exact shows_foldl_put (w.put z) hy hr (by simpa using hm) (shows_write ..)
      · exact ih (w.put y) hr z hz

theorem Warp.putK_sr (w : Warp) (n : Nat) (r : Reg) : (w.putK n r).sr = w.sr := by
  unfold putK
  split <;> rfl
theorem Warp.unpendDst_sr (w : Warp) (t : Nat) (d : Dst) : (w.unpendDst t d).sr = w.sr := by
  cases d with
  | k n => exact w.putK_sr ..
  | v | cm | h => rfl
theorem Warp.untie_sr (w : Warp) (k : Bool) (reg t : Nat) : (w.untie k reg t).sr = w.sr := by
  obtain ⟨x, l, h⟩ := w.untie_frame k reg t
  rw [h]
theorem Warp.write_sr (w : Warp) (t : Nat) (d : Dst) (x : Word) (tag : BitVec 2) (plate : Bool) :
    (w.write t d x tag plate).sr = w.sr := by
  cases d with
  | v n => exact w.untie_sr ..
  | k n =>
    unfold write
    dsimp only
    split
    · rfl
    · exact (putK_sr ..).trans (w.untie_sr ..)
  | cm | h => rfl
theorem Warp.put_sr (w : Warp) (x : LWrite) : (w.put x).sr = w.sr := (write_sr ..).trans (w.unpendDst_sr ..)
theorem Warp.foldl_put_sr (w : Warp) (l : List LWrite) : (l.foldl put w).sr = w.sr :=
  List.foldlRecOn (motive := fun q => q.sr = w.sr) l put rfl fun q hq y _ => (q.put_sr y).trans hq

end Sys2Proof.Machine
end
section
/-! SUPPORT. Events that end an access (R13, R50, R99 to R110, R178, R203): what each leaves where it is enabled. -/

namespace Sys2Proof.Machine

/-! ### The state around a warp -/

@[simp] theorem Cluster.setWarp_full (x : Cluster) (k : Nat) (w : Warp) : (x.setWarp k w).full = x.full := by
  unfold setWarp
  split <;> rfl
@[simp] theorem Cluster.setWarp_stash (x : Cluster) (k : Nat) (w : Warp) : (x.setWarp k w).stash = x.stash := by
  unfold setWarp
  split <;> rfl
@[simp] theorem Cluster.setWarp_l1 (x : Cluster) (k : Nat) (w : Warp) : (x.setWarp k w).l1 = x.l1 := by
  unfold setWarp
  split <;> rfl
@[simp] theorem State.setWarp_mem (s : State) (c k : Nat) (w : Warp) : (s.setWarp c k w).mem = s.mem := rfl
@[simp] theorem State.cluster_setWarp (s : State) (c k : Nat) (w : Warp) :
    (s.setWarp c k w).cluster c = (s.cluster c).setWarp k w := State.cluster_setCluster ..
@[simp] theorem State.cluster_modWarp (s : State) (c k : Nat) (f : Warp → Warp) :
    (s.modWarp c k f).cluster c = (s.cluster c).setWarp k (f (s.warp c k)) := State.cluster_setWarp ..
theorem Cluster.warp_congr {x y : Cluster} (k : Nat) (hw : x.warps = y.warps) (ht : x.tracker = y.tracker) :
    x.warp k = y.warp k := by
  unfold warp
  rw [hw, ht]
/-- A change of what is no warp of a cluster leaves its warps. -/
theorem State.warp_modCluster (s : State) (c k : Nat) {f : Cluster → Cluster}
    (hw : (f (s.cluster c)).warps = (s.cluster c).warps) (ht : (f (s.cluster c)).tracker = (s.cluster c).tracker) :
    (s.modCluster c f).warp c k = s.warp c k := by
  unfold State.warp
  rw [cluster_modCluster]
  exact Cluster.warp_congr k hw ht

@[simp] theorem Warp.reqOf_dropReq (w : Warp) (id : Nat) : (w.dropReq id).reqOf id = none := by
  simp [reqOf, dropReq, List.find?_eq_none]
theorem Warp.reqOf_id {w : Warp} {id : Nat} {r : Req} (h : w.reqOf id = some r) : r.id = id := by
  simpa using List.find?_some h

variable {s : State} {c k id : Nat} {q : EventClaim}

/-! ### LONG_RESULT_WRITE -/

/-- The writes of a long result, its flags, and the end of its entry. -/
theorem State.longDone_writes (s : State) (c k : Nat) (l : Long) :
    ∃ y : State, s.longDone c k l = y.stir c k ∧ y.mem = s.mem ∧ (y.warp c k).sr = (s.warp c k).sr ||| l.flags ∧
      (∀ m ∈ (y.warp c k).longs, m.id ≠ l.id) ∧
      ((∀ x ∈ l.writes, x.t < 32) → ∀ x ∈ lastWrites l.writes, (y.warp c k).shows x.t x.dst x.val x.tag x.plate) := by
  refine ⟨_, rfl, rfl, ?_, ?_, fun hl x hx => ?_⟩
  all_goals rw [State.warp_setWarp]
  · exact congrArg (· ||| l.flags) ((s.warp c k).foldl_put_sr l.writes)
  · exact fun m hm => by simpa using (List.mem_filter.mp hm).2
  · exact (Warp.shows_congr (w := l.writes.foldl Warp.put (s.warp c k)) _ rfl rfl rfl rfl rfl).mpr
      ((s.warp c k).lastWrites_shown l.writes hl x hx)

/-- What an atomic comes to in its warp. -/
theorem Warp.atomDone_shows (w : Warp) (r : Req) (fn ty : Nat) (x : Dword) {d : Dst} (old : Nat) (hd : d.isReg) :
    (w.atomDone r fn ty x d old).reqOf r.id = none ∧
      (w.atomDone r fn ty x d old).showsNumber r.t d (if ty = 3 then 3 else if ty = 2 then 1 else 0) old r.taint ∧
      (fn = 7 → (w.atomDone r fn ty x d old).showsCm r.threads (decide (old = x.toNat))) := by
  let w1 := w.settleReg r.t d (if ty = 3 then 3 else if ty = 2 then 1 else 0) old r.taint
  have h1 := w.settleReg_shows r.t hd (if ty = 3 then 3 else if ty = 2 then 1 else 0) old r.taint
  have hdone : w.atomDone r fn ty x d old =
      (if fn = 7 then w1.settleCm r.threads (if old = x.toNat then 1 else 0) r.taint else w1).dropReq r.id := rfl
  rw [hdone]
  refine ⟨reqOf_dropReq .., ?_, fun hfn => ?_⟩
  · split
    · obtain ⟨hv, hk⟩ := w1.settleCm_regs r.threads (if old = x.toNat then 1 else 0) r.taint
      exact (showsNumber_congr (w := w1) _ hd hv hk).mpr h1
    · exact (showsNumber_congr (w := w1) _ hd rfl rfl).mpr h1
  · rw [if_pos hfn]
    have hb : bitOf (if old = x.toNat then 1 else 0) 0 = decide (old = x.toNat) := by
      by_cases h : old = x.toNat <;> simp [h, bitOf]
    exact hb ▸ w1.settleCm_shows r.threads (if old = x.toNat then 1 else 0) r.taint

theorem execLongResultWrite_atom (hl : (s.warp c k).longs.find? (fun l => l.id == id) = none)
    (h : s.atomClaim c k id = some q) (hq : q.ready) : NextWith (execLongResultWrite c k id s) q.post := by
  obtain ⟨r, hr, h⟩ := Option.bind_eq_some_iff.mp h
  split at h
  · rename_i fn ty x x' d hop
    split at h
    · rename_i y old hp
      cases h
      obtain ⟨hyet, hlane, hd, -, -⟩ := hq
      obtain ⟨hnone, hnum, hcm⟩ := (y.warp c k).atomDone_shows r fn ty x old hd
      refine ⟨(y.modWarp c k fun w => w.atomDone r fn ty x d old).stir c k, ?_, _, rfl, rfl, ?_⟩
      · simp [execLongResultWrite, State.atomStep, hl, hr, hop, hyet, hlane, hp]
      · rw [State.warp_modWarp]
        exact ⟨hnone, hnum, hcm⟩
    · cases h
  · cases h

theorem longResultWrite_reply (h : replyClaim s (.longResultWrite c k id) = some q) (hq : q.ready) :
    NextWith (execLongResultWrite c k id s) q.post := by
  simp only [replyClaim] at h
  split at h
  · exact execLongResultWrite_atom ‹_› h hq
  · rename_i l hl
    cases h
    refine ⟨s.longDone c k l, ?_, s.longDone_writes c k l⟩
    have hgo : (l.remote && (s.cluster c).crossing) = false := by
      rcases hq with hq | hq <;> simp [hq]
    simp [execLongResultWrite, hl, hgo]

/-! ### LOAD_REPLY -/

theorem Load.dst_isReg (l : Load) : l.dst.isReg := by
  unfold dst
  split <;> trivial
/-- The last-value table is no part of memory or of a warp. -/
theorem State.lvtTrue_frame (s : State) (c k cobj : Nat) (l : Load) (v : Word) :
    (s.lvtTrue c cobj l v).mem = s.mem ∧ (s.lvtTrue c cobj l v).warp c k = s.warp c k := by
  unfold lvtTrue
  split
  · exact ⟨rfl, s.warp_modCluster c k rfl rfl⟩
  · exact ⟨rfl, rfl⟩
/-- A reply to a lane with no ticket: the number is in its destination. -/
theorem State.replied_shows (s : State) (c k : Nat) {l : Load} (v : Nat) (hl : l.ticket = none) :
    ∃ y : State, s.replied c k l v = y.stir c k ∧ y.mem = s.mem ∧ (y.warp c k).showsNumber l.t l.dst l.conv v l.taint := by
  unfold replied
  rw [hl]
  refine ⟨_, rfl, (lvtTrue_frame _ c k _ l _).1, ?_⟩
  rw [(lvtTrue_frame _ c k _ l _).2, warp_setWarp]
  exact (Warp.showsNumber_congr _ l.dst_isReg rfl rfl).mpr (Warp.settleReg_shows _ _ l.dst_isReg ..)

theorem loadReply_reply {via : Via} (h : replyClaim s (.loadReply c k id via) = some q) (hq : q.ready) :
    NextWith (execLoadReply c k id via s) q.post := by
  obtain ⟨l, hl, h⟩ := Option.bind_eq_some_iff.mp h
  obtain ⟨g, hg, h⟩ := Option.bind_eq_some_iff.mp h
  split at h
  · rename_i x v
    cases h
    obtain ⟨hticket, hfixed, hleave, hrec, hfree, -⟩ := hq
    refine ⟨x.replied c k l v, ?_, x.replied_shows c k v hticket⟩
    simp [execLoadReply, hl, hg, hticket, hfixed, hrec, hfree, Nat.not_lt.mpr hleave]
  · cases h

/-! ### LIMIT_EXPIRY -/

theorem Load.shows_putReg (l : Load) (w : Warp) (x : Word) (tag : BitVec 2) (plate : Bool) :
    (w.putReg l.t l.dst { data := x, tag := tag, plate := plate }).shows l.t l.dst x tag plate := by
  unfold dst
  split
  · intro hn
    simp [Warp.putReg, Warp.putK, hn]
  · exact Warp.getV_putV ..

/-- The ticket that ties lane `i` of a load, as it was or new. -/
def Load.ticketWith (l : Load) (x : Ticket) : Ticket :=
  if x.valid then { x with lanes := setBit x.lanes l.lvtLane true }
  else { valid := true, k := l.k, reg := l.reg, conv := l.conv, lanes := setBit 0 l.lvtLane true }
theorem Load.ticketWith_valid (l : Load) (x : Ticket) : (l.ticketWith x).valid = true := by
  unfold ticketWith
  split
  · assumption
  · rfl
theorem Load.ticketWith_lanes (l : Load) (x : Ticket) (hk : l.k = false) (ht : l.t < 32) :
    bitOf (l.ticketWith x).lanes l.t = true := by
  have hlane : l.lvtLane = l.t := by simp [lvtLane, hk]
  unfold ticketWith
  rw [hlane]
  split <;> exact bitOf_setBit_same _ _ _ ht

/-- The warp after a guess: the guess in the register, its lane tied to ticket `i`. -/
def Warp.guessed (w : Warp) (l : Load) (i : Nat) (g : Word) : Warp :=
  let w1 := w.putReg l.t l.dst { data := g, tag := convTag l.conv, plate := true }
  ({ w1 with tickets := Tab.put w1.tickets i (l.ticketWith (Tab.get {} w.tickets i)) } : Warp).setLoad
    { l with settled := true, ticket := some i, guess := g }

/-- A limit that has passed, where a ticket is free for the lane. -/
theorem execLimitExpiry_guessed {l : Load} {i : Nat} (hl : (s.warp c k).loadOf id = some l)
    (hi : (s.warp c k).ticketFor l.k l.reg = some i) (hset : l.settled = false) (hlim : l.limit ≠ 0)
    (hdue : l.t0 + l.limit ≤ s.tick) :
    execLimitExpiry c k id s =
      .next ((((s.count c (.limitExpiry (limitBin l.limit)) 1).setWarp c k
        ((s.warp c k).guessed l i (s.guessOf c (s.warp c k) l))).count c .guessesIssued 1).stir c k) := by
  simp only [execLimitExpiry, hl, hi, hset]
  rw [if_neg (by simp [hlim, hdue])]
  rfl

theorem limitExpiry_reply (h : replyClaim s (.limitExpiry c k id) = some q) (hq : q.ready) :
    NextWith (execLimitExpiry c k id s) q.post := by
  obtain ⟨l, hl, h⟩ := Option.bind_eq_some_iff.mp h
  obtain ⟨i, hi, h⟩ := Option.bind_eq_some_iff.mp h
  cases h
  obtain ⟨hset, hlim, hdue⟩ := hq
  refine ⟨_, execLimitExpiry_guessed hl hi hset hlim hdue, _, rfl, ?_, ?_⟩
  · rw [State.count_mem, State.setWarp_mem, State.count_mem]
  · rw [State.warp_count, State.warp_setWarp]
    have hticket : Tab.get {} ((s.warp c k).guessed l i (s.guessOf c (s.warp c k) l)).tickets i =
        l.ticketWith (Tab.get {} (s.warp c k).tickets i) := Tab.get_put_same ..
    rw [hticket]
    refine ⟨?_, l.ticketWith_valid _, l.ticketWith_lanes _⟩
    exact (Warp.shows_congr _ rfl rfl rfl rfl rfl).mpr (l.shows_putReg ..)

/-! ### STORE_MEMORY_CAUSE -/

/-- Threads of a warp get a cause that they take later. -/
def Warp.deferTo (w : Warp) (ts : List Nat) (d : Deferred) : Warp :=
  ts.foldl (fun q t => q.modThread t fun z => { z with deferred := z.deferred ++ [d] }) w
theorem Warp.deferTo_reqs (w : Warp) (ts : List Nat) (d : Deferred) : (w.deferTo ts d).reqs = w.reqs :=
  List.foldlRecOn (motive := fun q : Warp => q.reqs = w.reqs) ts _ rfl fun _ hq _ _ => hq
theorem Warp.deferTo_mem (w : Warp) (ts : List Nat) (d : Deferred) : ∀ u ∈ ts, d ∈ ((w.deferTo ts d).thread u).deferred := by
  suffices H : ∀ (w : Warp) u, u ∈ ts ∨ d ∈ (w.thread u).deferred → d ∈ ((w.deferTo ts d).thread u).deferred from
    fun u hu => H w u (.inl hu)
  unfold deferTo
  induction ts with
  | nil => exact fun w u h => h.resolve_left List.not_mem_nil
  | cons t r ih =>
    intro w u h
    refine ih _ u ?_
    by_cases htu : u = t
    · subst htu
      simp [modThread]
    · refine h.imp (fun hm => (List.mem_cons.mp hm).resolve_left htu) fun hd => ?_
      simpa [modThread, thread_setThread_ne _ _ _ _ htu] using hd

theorem storeMemoryCause_reply (h : replyClaim s (.storeMemoryCause c k id) = some q) (hq : q.ready) :
    NextWith (execStoreMemoryCause c k id s) q.post := by
  obtain ⟨r, hr, h⟩ := Option.bind_eq_some_iff.mp h
  split at h
  · rename_i cause hop
    cases h
    obtain ⟨hk, u, hu, hlive⟩ := hq
    let live := r.threads.filter fun t => ((s.warp c k).thread t).st != .exited
    have hmem {t : Nat} (ht : t ∈ r.threads) (he : ((s.warp c k).thread t).st ≠ .exited) : t ∈ live := by
      simp [live, ht, he]
    have hne : ¬ (k ≥ trackSlot ∨ live.isEmpty = true) := by
      rw [not_or, List.isEmpty_iff]
      exact ⟨Nat.not_le.mpr hk, List.ne_nil_of_mem (hmem hu hlive)⟩
    let d : Deferred := { cause := cause, addr := objAddr r.obj r.off }
    refine ⟨_, ?_, (s.modWarp c k fun w => w.dropReq id).modWarp c k fun w => w.deferTo live d, rfl, ?_⟩
    · simp only [execStoreMemoryCause, hr, hop]
      rw [if_neg hne]
      rfl
    · rw [State.warp_modWarp, State.warp_modWarp]
      refine ⟨?_, fun t ht he => Warp.deferTo_mem _ _ _ t (hmem ht he)⟩
      rw [Warp.reqOf, Warp.deferTo_reqs]
      exact Warp.reqOf_dropReq ..
  · cases h

/-! ### LDH_WAKE and STH_WAKE -/

theorem ldhWake_reply (h : replyClaim s (.ldhWake c k id) = some q) (hq : q.ready) :
    NextWith (execLdhWake c k id s) q.post := by
  obtain ⟨r, hr, h⟩ := Option.bind_eq_some_iff.mp h
  split at h
  · rename_i conv d m x v hop hread
    cases h
    obtain ⟨hyet, hbusy, hfull, hd, -⟩ := hq
    let g := (s.wg c (s.warp c k).entry).granule r.off
    refine ⟨_, ?_, (x.modWarp c k fun y => (y.settleReg r.t d conv v r.taint).dropReq r.id).modCluster c fun y =>
      if m = 2 then y.setFull g false else y, rfl, rfl, ?_, ?_⟩
    · have hgo : (m != 0 && !(s.cluster c).isFull g) = false := by
        rcases hfull with h | h <;> simp [h, g]
      simp only [execLdhWake, hr, hop, hyet, hbusy, hread]
      rw [if_neg (by simpa [g] using hgo)]
    · rw [State.warp_modCluster _ _ _ (by split <;> rfl) (by split <;> rfl), State.warp_modWarp]
      exact (Warp.showsNumber_congr _ hd rfl rfl).mpr (Warp.settleReg_shows _ _ hd ..)
    · rw [State.cluster_modCluster, State.cluster_modWarp]
      split
      · simp [Cluster.setFull, g]
      · exact Cluster.setWarp_full ..
  · cases h

theorem sthWake_reply (h : replyClaim s (.sthWake c k id) = some q) (hq : q.ready) :
    NextWith (execSthWake c k id s) q.post := by
  obtain ⟨r, hr, h⟩ := Option.bind_eq_some_iff.mp h
  split at h
  · rename_i bytes m hop
    dsimp only at h
    split at h
    · rename_i x _ hwrite
      cases h
      obtain ⟨hyet, hbusy, hfull⟩ := hq
      let g := (s.wg c (s.warp c k).entry).granule r.off
      refine ⟨_, ?_, (x.modWarp c k fun y => y.dropReq r.id).modCluster c fun y => if m = 0 then y else y.setFull g true,
        rfl, rfl, ?_, ?_, ?_⟩
      · simp only [execSthWake, hr, hop, State.sthStep, hyet, hbusy, hwrite]
        rw [if_neg (by simpa using hfull)]
      · rw [State.cluster_modCluster, State.cluster_modWarp]
        split <;> exact Cluster.setWarp_stash ..
      · rw [State.warp_modCluster _ _ _ (by split <;> rfl) (by split <;> rfl), State.warp_modWarp]
        exact Warp.reqOf_dropReq ..
      · rw [State.cluster_modCluster, State.cluster_modWarp]
        split
        · exact Cluster.setWarp_full ..
        · simp [Cluster.setFull, g]
    · cases h
  · cases h

/-! ### GATH_ELEMENT_REPLY -/

theorem gathElementReply_reply {elem : Nat} (h : replyClaim s (.gathElementReply c k id elem) = some q) (hq : q.ready) :
    NextWith (execGathElementReply c k id elem s) q.post := by
  obtain ⟨r, hr, h⟩ := Option.bind_eq_some_iff.mp h
  split at h
  · rename_i dest e mute hop
    dsimp only at h
    split at h
    · rename_i z a seen hslice
      split at h
      · rename_i x _ hwrite
        cases h
        obtain ⟨helem, hlost, hfree, hrec⟩ := hq
        let g := (s.wg c (s.warp c k).entry).granule dest
        let full := !mute && ((s.warp c k).granuleMates r dest).isEmpty
        refine ⟨_, ?_, ((x.modWarp c k fun y => y.dropReq id).modCluster c fun y =>
          if full then y.setFull g true else y).count c .elementsMoved 1, rfl, ?_, ?_, ?_, ?_⟩
        · simp [execGathElementReply, hr, hop, helem, hfree, hrec, hlost, hslice, hwrite, full, g]
        · rw [State.count_mem]
          rfl
        · rw [State.cluster_count, State.cluster_modCluster, State.cluster_modWarp]
          split <;> exact Cluster.setWarp_stash ..
        · rw [State.warp_count, State.warp_modCluster _ _ _ (by split <;> rfl) (by split <;> rfl), State.warp_modWarp]
          exact Warp.reqOf_dropReq ..
        · have hfull : full = true ↔ mute = false ∧ (s.warp c k).granuleMates r dest = [] := by
            simp [full]
          rw [State.cluster_count, State.cluster_modCluster, State.cluster_modWarp]
          simp only [hfull]
          split
          · simp [Cluster.setFull, g]
          · exact Cluster.setWarp_full ..
      · cases h
    · cases h
  · cases h

/-! ### SCAT_UPDATE_AT_SLICE -/

@[simp] theorem State.modCluster_scats (s : State) (c : Nat) (f : Cluster → Cluster) : (s.modCluster c f).scats = s.scats := rfl
@[simp] theorem State.modWarp_scats (s : State) (c k : Nat) (f : Warp → Warp) : (s.modWarp c k f).scats = s.scats := rfl
theorem State.usedAt_scats (s : State) (n : Nat) (hit : Prefetched → Bool) : (s.usedAt n hit).scats = s.scats :=
  List.foldlRecOn (motive := fun x : State => x.scats = s.scats) s.clusters _ rfl fun x hx e _ => by
    dsimp only
    split
    · exact hx
    · rw [State.count_scats, State.count_scats, State.modCluster_scats, hx]
theorem State.mscFill_scats (s : State) (a : Nat) : (s.mscFill a).scats = s.scats := by
  unfold mscFill
  exact s.count_scats _ _ _
theorem State.mscServe_scats (s : State) (a : Nat) : (s.mscServe a).scats = s.scats := by
  unfold mscServe mscFetch
  split
  · exact s.usedAt_scats ..
  · split
    · exact (State.count_scats ..).trans (s.usedAt_scats ..)
    · exact (mscFill_scats ..).trans (s.usedAt_scats ..)
theorem State.mscReady_scats (s : State) (t : Nat) : (s.mscReady t).scats = s.scats := by
  unfold mscReady
  split
  · rfl
  · exact s.mscFill_scats t
theorem State.mscWrite_scats (s : State) (t : Nat) (b : Byte) : (s.mscWrite t b).scats = s.scats := rfl
theorem State.putPhys_scats (s : State) (a : Nat) (b : Byte) : (s.putPhys a b).scats = s.scats := by
  unfold putPhys
  split
  · rw [mscWrite_scats, mscReady_scats]
  · rfl
theorem State.putPhysAt_scats (s : State) (a : Nat) (l : List Byte) : (s.putPhysAt a l).scats = s.scats := by
  induction l generalizing s a with
  | nil => rfl
  | cons b r ih =>
    rw [putPhysAt, ih, putPhys_scats]
    split
    · exact s.mscServe_scats a
    · rfl
theorem State.putPhysBytes_scats (s : State) (a : Nat) (l : List Byte) : (s.putPhysBytes a l).scats = s.scats := by
  rw [putPhysBytes, putPhysAt_scats]
  split
  · rfl
  · exact s.mscServe_scats a
theorem State.putWord_scats (s : State) (ctx obj i a : Nat) (v : Word) : (s.putWord ctx obj i a v).scats = s.scats := by
  unfold putWord
  split
  · rfl
  · exact State.putPhysBytes_scats ..
theorem State.dropOwners_scats (s : State) (c ctx obj i : Nat) : (s.dropOwners c ctx obj i).scats = s.scats :=
  List.foldlRecOn (motive := fun x : State => x.scats = s.scats) s.clusters _ rfl fun x hx e _ => by
    split
    · exact hx
    · exact (State.count_scats ..).trans hx
theorem State.recall_scats (s : State) (ctx obj i a : Nat) : (s.recall ctx obj i a).scats = s.scats := by
  unfold State.recall
  split
  · rfl
  · exact (putWord_scats ..).trans (s.dropOwners_scats ..)
theorem State.forget_scats (s : State) (c ctx obj off size : Nat) : (s.forget c ctx obj off size).scats = s.scats := rfl
theorem State.telling_scats (s : State) (ctx obj off size : Nat) : (s.telling ctx obj off size).scats = s.scats := by
  unfold telling tellKeys
  split <;> rfl
/-- A write that reaches its home slices leaves the updates that they have collected. -/
theorem State.slice_write_scats {s x : State} {c ctx obj off n a : Nat} {w : Warp}
    (h : s.slice c w ctx obj off n true = .ok x a) : x.scats = s.scats := by
  unfold slice at h
  simp only [Bool.not_true, Bool.and_false, Bool.false_and, Bool.false_eq_true, if_false, if_true, Bool.and_true] at h
  split at h
  · cases h
    exact s.usedAt_scats ..
  all_goals
    split at h
    · cases h
      exact s.free.2.usedAt_scats ..
    · cases h

theorem State.ups_congr {s t : State} (h : t.scats = s.scats) (ctx obj i : Nat) : t.ups ctx obj i = s.ups ctx obj i := by
  unfold ups
  rw [h]
theorem State.dropUps_ups (s : State) (ctx obj i : Nat) : (s.dropUps ctx obj i).ups ctx obj i = [] := by
  unfold ups dropUps
  rw [List.flatMap_eq_nil_iff]
  intro p hp
  have hp := (List.mem_filter.mp hp).2
  rw [if_neg]
  rintro ⟨rfl, rfl, rfl⟩
  simp at hp
/-- Updates that a slice collects for a word of which it holds none. -/
theorem State.ups_collected (s : State) (ctx obj i : Nat) (l : List (Nat × Word)) (h : s.ups ctx obj i = []) :
    ({ s with scats := s.scats ++ [{ ctx := ctx, obj := obj, word := i, ups := l }] } : State).ups ctx obj i = l := by
  unfold ups at h ⊢
  simp [h]

/-- The home slice collects an update of the word at byte `off`, after those that it holds; its owner is recalled (R183). -/
def State.collectUp (s : State) (c ctx obj off a : Nat) (u : Nat × Word) : State :=
  let x := (s.recall ctx obj (off / 4) a).forget c ctx obj off 4
  let z := x.dropUps ctx obj (off / 4)
  { z with scats := z.scats ++ [{ ctx := ctx, obj := obj, word := off / 4, ups := x.ups ctx obj (off / 4) ++ [u] }] }
theorem State.collectUp_ups (s : State) (c ctx obj off a : Nat) (u : Nat × Word) :
    (s.collectUp c ctx obj off a u).ups ctx obj (off / 4) = s.ups ctx obj (off / 4) ++ [u] := by
  let x := (s.recall ctx obj (off / 4) a).forget c ctx obj off 4
  have hx : x.scats = s.scats := (forget_scats ..).trans (s.recall_scats ..)
  calc
    _ = x.ups ctx obj (off / 4) ++ [u] := (x.dropUps ctx obj (off / 4)).ups_collected _ _ _ _ (x.dropUps_ups ..)
    _ = s.ups ctx obj (off / 4) ++ [u] := congrArg (· ++ [u]) (ups_congr hx ..)

theorem scatUpdateAtSlice_reply {elem : Nat} (h : replyClaim s (.scatUpdateAtSlice c k id elem) = some q) (hq : q.ready) :
    NextWith (execScatUpdateAtSlice c k id elem s) q.post := by
  obtain ⟨r, hr, h⟩ := Option.bind_eq_some_iff.mp h
  split at h
  · rename_i fn y e hop
    dsimp only at h
    split at h
    · rename_i s0 a hslice
      cases h
      obtain ⟨helem, hlost, hfree, hrec⟩ := hq
      let ctx := (s.wg c (s.warp c k).entry).ctx
      let z := s0.collectUp c ctx r.obj r.off a (fn, y)
      refine ⟨_, ?_, (z.modWarp c k fun w => w.dropReq id).count c .elementsMoved 1, rfl, ?_, ?_⟩
      · simp only [execScatUpdateAtSlice, hr, hop, hlost, hslice]
        rw [if_neg (by simp [helem, hfree, hrec])]
        rfl
      · rw [State.warp_count, State.warp_modWarp]
        exact Warp.reqOf_dropReq ..
      · have hs0 : s0.scats = s.scats := (State.slice_write_scats hslice).trans (s.telling_scats ..)
        calc
          _ = z.ups ctx r.obj (r.off / 4) := State.ups_congr ((State.count_scats ..).trans (State.modWarp_scats ..)) ..
          _ = s0.ups ctx r.obj (r.off / 4) ++ [(fn, y)] := s0.collectUp_ups ..
          _ = s.ups ctx r.obj (r.off / 4) ++ [(fn, y)] := congrArg (· ++ [(fn, y)]) (State.ups_congr hs0 ..)
    · cases h
  · cases h

/-! ### MEMORY_PORT_TRANSLATE -/

/-- A load at the port: not performed yet, its lane cycle come, and no record of its page open. -/
structure State.AtPort (s : State) (c : Nat) (l : Load) : Prop where
  cluster : c < Config.clusters
  fixed : l.fixed = none
  leave : l.leave ≤ (s.cluster c).cyc
  record : s.recordOpen l.recAt = false

/-- The state with the record that a wait for `cause` posts, where it posts one. -/
def State.portPosted (s : State) (c k : Nat) (cause : Byte) (obj off : Nat) (pc : BitVec 40) (ts : List Nat) : State :=
  (if cause = Cause.translation then s.portRecord c k cause obj off pc (maskOf ts) else (0, s)).2
theorem State.portPosted_mem (s : State) (c k : Nat) (cause : Byte) (obj off : Nat) (pc : BitVec 40) (ts : List Nat) :
    (s.portPosted c k cause obj off pc ts).mem = s.portMem c k cause obj off pc ts := by
  unfold portPosted portMem
  split <;> rfl
/-- The number of that record. -/
theorem State.portRec_eq (s : State) (c k : Nat) (cause : Byte) (obj off : Nat) (pc : BitVec 40) (ts : List Nat) :
    (if cause = Cause.translation then s.portRecord c k cause obj off pc (maskOf ts) else (0, s)).1 = s.portRec c k cause := by
  unfold portRec
  split <;> rfl

theorem Warp.mem_setLoad {w : Warp} {l x : Load} (hx : x ∈ (w.setLoad l).loads) (he : x.id = l.id) : x = l := by
  have hx := (List.mem_filter.mp hx).1
  obtain ⟨y, -, rfl⟩ := List.mem_map.mp hx
  split
  · rfl
  · rename_i h
    rw [if_neg h] at he
    exact absurd he h
theorem Warp.mem_setReq {w : Warp} {r x : Req} (hx : x ∈ (w.setReq r).reqs) (he : x.id = r.id) : x = r := by
  obtain ⟨y, -, rfl⟩ := List.mem_map.mp hx
  split
  · rfl
  · rename_i h
    rw [if_neg h] at he
    exact absurd he h

theorem State.holdReq_eq (s : State) (c k : Nat) (r : Req) (cause : Byte) :
    s.holdReq c k r cause = ((s.portPosted c k cause r.obj r.off r.pc r.threads).modWarp c k fun y =>
      y.setReq { r with posted := true, recAt := s.portRec c k cause }).wake c k := by
  rw [← s.portRec_eq c k cause r.obj r.off r.pc r.threads]
  rfl
/-- A request that the port holds: it waits, with the record that is posted for it. -/
theorem State.holdReq_waits (s : State) (c k : Nat) (r : Req) (cause : Byte) :
    ∃ y : State, s.holdReq c k r cause = y.wake c k ∧ y.mem = s.portMem c k cause r.obj r.off r.pc r.threads ∧
      ∀ x ∈ (y.warp c k).reqs, x.id = r.id → x.posted = true ∧ x.recAt = s.portRec c k cause := by
  refine ⟨_, s.holdReq_eq c k r cause, (modWarp_mem ..).trans (s.portPosted_mem ..), fun x hx he => ?_⟩
  rw [warp_modWarp] at hx
  cases Warp.mem_setReq hx he
  exact ⟨rfl, rfl⟩

/-- A store or a RED whose turn has come. -/
theorem State.retry_goes {r : Req} (h : s.canGo c k r) :
    (s.goClaim c k r).post (s.retry c k r) := by
  obtain ⟨hleave, hfree, hlane, hrec⟩ := h
  have hgo : (s.notYet c (s.warp c k) r r.strong.isSome || (s.warp c k).laneBefore r) = false := by
    simp [notYet, hfree, hlane, hrec, Nat.not_lt.mpr hleave]
  unfold goClaim retry
  dsimp only
  rw [if_neg (by simp [hgo])]
  cases s.performAt c (s.warp c k) r with
  | ok x v =>
    refine ⟨x.modWarp c k fun y => y.dropReq r.id, rfl, rfl, ?_, ?_, ?_⟩
    · rw [cluster_modWarp]
      exact Cluster.setWarp_l1 ..
    · rw [cluster_modWarp]
      exact Cluster.setWarp_stash ..
    · rw [warp_modWarp]
      exact Warp.reqOf_dropReq ..
  | waits cause => exact s.holdReq_waits c k r cause
  | fails cause =>
    refine ⟨rfl, fun x hx he => ?_⟩
    dsimp only at hx
    rw [warp_modWarp] at hx
    cases Warp.mem_setReq hx he
    rfl

/-- A load whose page is there is performed in value. -/
theorem execMemoryPortTranslate_found {l : Load} {a : Nat} (hl : (s.warp c k).loadOf id = some l) (h : s.AtPort c l)
    (hp : s.portCause c { (s.warp c k) with under := l.old } l.obj l.off l.size = .found a) :
    execMemoryPortTranslate c k id s =
      .next ((s.tlbFill (s.wg c (s.warp c k).entry).ctx l.obj l.off).fixLoad c k l) := by
  obtain ⟨hc, hfixed, hleave, hrec⟩ := h
  simp only [execMemoryPortTranslate, hl, hp, hfixed, hrec]
  rw [if_neg (Nat.not_le.mpr hc), if_neg (by simp [Nat.not_lt.mpr hleave])]

/-- The copy of the entry is in the TLB, and nothing else has changed. -/
theorem State.tlbFill_frame (s : State) (ctx : Nat) {obj off : Nat} (h : obj ≠ stashObj) :
    (s.desc ctx obj).xlist + 8 * (off / pageSize (s.desc ctx obj).pg) ∈ (s.tlbFill ctx obj off).tlb ∧
      ({ s.tlbFill ctx obj off with tlb := s.tlb } : State) = s := by
  unfold tlbFill
  dsimp only
  split
  · rename_i hin
    exact ⟨by simpa using hin.resolve_left h, rfl⟩
  · exact ⟨by simp, rfl⟩

/-- A load whose place cannot be had waits, with the record that is posted for it. -/
theorem execMemoryPortTranslate_loadWaits {l : Load} {cause : Byte} (hl : (s.warp c k).loadOf id = some l) (h : s.AtPort c l)
    (hp : s.portCause c { (s.warp c k) with under := l.old } l.obj l.off l.size = .waits cause) :
    execMemoryPortTranslate c k id s =
      .next (((s.portPosted c k cause l.obj l.off l.pc l.threads).modWarp c k fun y =>
        y.setLoad { l with posted := true, recAt := s.portRec c k cause }).wake c k) := by
  obtain ⟨hc, hfixed, hleave, hrec⟩ := h
  simp only [execMemoryPortTranslate, hl, hp, hfixed, hrec]
  rw [if_neg (Nat.not_le.mpr hc), if_neg (by simp [Nat.not_lt.mpr hleave]),
    ← s.portRec_eq c k cause l.obj l.off l.pc l.threads]
  rfl

theorem memoryPortTranslate_load {l : Load} (hl : (s.warp c k).loadOf id = some l)
    (h : replyClaim s (.memoryPortTranslate c k id) = some q) (hq : q.ready) :
    NextWith (execMemoryPortTranslate c k id s) q.post := by
  simp only [replyClaim, hl] at h
  split at h
  · rename_i a hp
    cases h
    obtain ⟨⟨hc, hfixed, hleave, hrec⟩, hobj⟩ := hq
    exact ⟨_, execMemoryPortTranslate_found hl ⟨hc, hfixed, hleave, hrec⟩ hp, _, rfl, s.tlbFill_frame _ hobj⟩
  · rename_i cause hp
    cases h
    obtain ⟨hc, hfixed, hleave, hrec⟩ := hq
    refine ⟨_, execMemoryPortTranslate_loadWaits hl ⟨hc, hfixed, hleave, hrec⟩ hp, _, rfl,
      (State.modWarp_mem ..).trans (s.portPosted_mem ..), fun x hx he => ?_⟩
    rw [State.warp_modWarp] at hx
    cases Warp.mem_setLoad hx he
    exact ⟨rfl, rfl⟩
  · cases h

/-- A request is at the port, where no load has its number: its lane cycle has come, and no record of its page is open. -/
structure State.ReqAtPort (s : State) (c k id : Nat) (r : Req) : Prop where
  cluster : c < Config.clusters
  noLoad : (s.warp c k).loadOf id = none
  req : (s.warp c k).reqOf id = some r
  leave : r.leave ≤ (s.cluster c).cyc
  record : s.recordOpen r.recAt = false

theorem execMemoryPortTranslate_store {r : Req} {bytes : List Byte} (h : s.ReqAtPort c k id r) (hop : r.op = .store bytes) :
    execMemoryPortTranslate c k id s = .next (s.retry c k r) := by
  obtain ⟨hc, hl, hr, hleave, hrec⟩ := h
  simp only [execMemoryPortTranslate, hl, hr, hrec, hop, Req.open_]
  rw [if_neg (Nat.not_le.mpr hc), if_neg (by simp [Nat.not_lt.mpr hleave])]
theorem execMemoryPortTranslate_red {r : Req} {fn ty : Nat} {x y : Dword} (h : s.ReqAtPort c k id r)
    (hop : r.op = .atom fn ty x y none) : execMemoryPortTranslate c k id s = .next (s.retry c k r) := by
  obtain ⟨hc, hl, hr, hleave, hrec⟩ := h
  simp only [execMemoryPortTranslate, hl, hr, hrec, hop, Req.open_]
  rw [if_neg (Nat.not_le.mpr hc), if_neg (by simp [Nat.not_lt.mpr hleave])]
/-- Another request, whose place cannot be had. -/
theorem execMemoryPortTranslate_holds {r : Req} {cause : Byte} (h : s.ReqAtPort c k id r) (hopen : r.open_ = true)
    (hstore : ∀ bytes, r.op ≠ .store bytes) (hred : ∀ fn ty x y, r.op ≠ .atom fn ty x y none)
    (hp : s.portCause c { (s.warp c k) with under := r.old } r.obj r.off r.size = .waits cause) :
    execMemoryPortTranslate c k id s = .next (s.holdReq c k r cause) := by
  obtain ⟨hc, hl, hr, hleave, hrec⟩ := h
  simp only [execMemoryPortTranslate, hl, hr, hrec, hopen, hp]
  rw [if_neg (Nat.not_le.mpr hc), if_neg (by simp [Nat.not_lt.mpr hleave])]

theorem memoryPortTranslate_req {r : Req} (hr : (s.warp c k).reqOf id = some r)
    (h : s.portClaim c k id = some q) (hq : q.ready) : NextWith (execMemoryPortTranslate c k id s) q.post := by
  have hid := Warp.reqOf_id hr
  simp only [State.portClaim, hr] at h
  split at h
  · cases h
    obtain ⟨hc, hl, hgo⟩ := hq
    have ⟨hleave, _, _, hrec⟩ := hgo
    exact ⟨_, execMemoryPortTranslate_store ⟨hc, hid ▸ hl, hr, hleave, hrec⟩ ‹_›, State.retry_goes hgo⟩
  · cases h
    obtain ⟨hc, hl, hgo⟩ := hq
    have ⟨hleave, _, _, hrec⟩ := hgo
    exact ⟨_, execMemoryPortTranslate_red ⟨hc, hid ▸ hl, hr, hleave, hrec⟩ ‹_›, State.retry_goes hgo⟩
  · rename_i hstore hred
    split at h
    · rename_i cause hp
      cases h
      obtain ⟨hc, hl, hleave, hrec, hopen⟩ := hq
      exact ⟨_, execMemoryPortTranslate_holds ⟨hc, hl, hr, hleave, hrec⟩ hopen hstore hred hp, s.holdReq_waits c k r cause⟩
    · cases h

/-- A wait that reads at the port a place that cannot be had: it waits on, with the record that is posted for it. -/
theorem execMemoryPortTranslate_waitWaits {x : Wait} {obj off : Nat} {cause : Byte} (hc : c < Config.clusters)
    (hl : (s.warp c k).loadOf id = none) (hr : (s.warp c k).reqOf id = none)
    (hx : (s.warp c k).waits.find? (fun x => x.id == id) = some x) (hplace : s.waitPlace c k x = some (obj, off))
    (hrec : s.recordOpen x.recAt = false) (hp : s.portCause c ((s.warp c k).underWait id) obj off 4 = .waits cause) :
    execMemoryPortTranslate c k id s =
      .next ((s.portPosted c k cause obj off x.pc x.threads).modWarp c k fun y => { y with
        waits := y.waits.map fun z => if z.id = id then { z with posted := true, recAt := s.portRec c k cause } else z }) := by
  simp only [execMemoryPortTranslate, hl, hr, hx, hplace, hp]
  rw [if_neg (Nat.not_le.mpr hc), if_neg (by simp [hrec]), ← s.portRec_eq c k cause obj off x.pc x.threads]
  rfl

theorem memoryPortTranslate_wait (hr : (s.warp c k).reqOf id = none)
    (h : s.portClaim c k id = some q) (hq : q.ready) : NextWith (execMemoryPortTranslate c k id s) q.post := by
  simp only [State.portClaim, hr] at h
  obtain ⟨x, hx, h⟩ := Option.bind_eq_some_iff.mp h
  obtain ⟨p, hplace, h⟩ := Option.bind_eq_some_iff.mp h
  split at h
  · rename_i cause hp
    cases h
    obtain ⟨hc, hl, hrec⟩ := hq
    refine ⟨_, execMemoryPortTranslate_waitWaits hc hl hr hx hplace hrec hp,
      (State.modWarp_mem ..).trans (s.portPosted_mem ..), fun z hz he => ?_⟩
    rw [State.warp_modWarp] at hz
    obtain ⟨y, -, rfl⟩ := List.mem_map.mp hz
    split
    · exact ⟨rfl, rfl⟩
    · rename_i hne
      rw [if_neg hne] at he
      exact absurd he hne
  · cases h

theorem memoryPortTranslate_reply (h : replyClaim s (.memoryPortTranslate c k id) = some q) (hq : q.ready) :
    NextWith (execMemoryPortTranslate c k id s) q.post := by
  cases hl : (s.warp c k).loadOf id with
  | some l => exact memoryPortTranslate_load hl h hq
  | none =>
    simp only [replyClaim, hl] at h
    cases hr : (s.warp c k).reqOf id with
    | some r => exact memoryPortTranslate_req hr h hq
    | none => exact memoryPortTranslate_wait hr h hq

/-! ### REGISTER_WRITE and CWGO -/

theorem registerWrite_reply {i : Nat} {v : Word} (h : replyClaim s (.registerWrite c k i v) = some q) (hq : q.ready) :
    NextWith (execRegisterWrite c k i v s) q.post := by
  obtain ⟨e, he, h⟩ := Option.bind_eq_some_iff.mp h
  cases h
  obtain ⟨r, hwin⟩ := List.head?_eq_some_iff.mp he
  have hev : e = (i, v) := hq
  refine ⟨s.modWarp c k fun w => { w with cw := Tab.put w.cw i v, winQ := r }, ?_, ?_⟩
  · simp [execRegisterWrite, hwin, hev]
  · dsimp only
    rw [State.warp_modWarp, hwin]
    exact ⟨rfl, rfl, rfl⟩

theorem cwgo_reply {run : List Nat} (h : replyClaim s (.cwgo c k run) = some q) : NextWith (execCwgo c k run s) q.post := by
  obtain ⟨x, hx, h⟩ := Option.bind_eq_some_iff.mp h
  split at h
  · rename_i m rel hwhy
    split at h
    · rename_i y hgo
      cases h
      refine ⟨y.endWait c k x, ?_, rfl⟩
      unfold execCwgo
      split
      · rename_i hnone
        cases hx.symm.trans hnone
      · rename_i x' hsome
        cases hx.symm.trans hsome
        simp only [hwhy, hgo]
    · cases h
  · cases h

end Sys2Proof.Machine

open Sys2Proof.Machine

/-- Settles O34, event by event: each that is enabled makes the access, the writes or the mark that its table states. -/
theorem replyEvents : Obligations.ReplyEvents := by
  unfold Obligations.ReplyEvents
  intro i s q h hq
  cases i with
  | longResultWrite c k id => exact longResultWrite_reply h hq
  | loadReply c k id via => exact loadReply_reply h hq
  | limitExpiry c k id => exact limitExpiry_reply h hq
  | storeMemoryCause c k id => exact storeMemoryCause_reply h hq
  | ldhWake c k id => exact ldhWake_reply h hq
  | sthWake c k id => exact sthWake_reply h hq
  | gathElementReply c k id elem => exact gathElementReply_reply h hq
  | scatUpdateAtSlice c k id elem => exact scatUpdateAtSlice_reply h hq
  | memoryPortTranslate c k id => exact memoryPortTranslate_reply h hq
  | registerWrite c k i v => exact registerWrite_reply h hq
  | cwgo c k run => exact cwgo_reply h
  | _ => cases h
end

section
/-! SUPPORT. Fields of an encoded word read back (R40 to R47): what the operand fields and the bits of M hold, by the form of the
word. -/
namespace Sys2Proof.Laws
variable {u : Core} {h : Hdr} {maj fn lo : Nat} {d a b c : Opd} {i : Instr}

/-! ### Codes -/

theorem guard_ofCode (g : Guard) : Guard.ofCode g.code = some g := by cases g <;> rfl
theorem icond_ofCode (q : ICond) : ICond.ofCode q.code = some q := by cases q <;> rfl
theorem fcond_ofCode (q : FCond) : FCond.ofCode q.code = some q := by cases q <;> rfl
theorem wcond_ofCode (q : WCond) : WCond.ofCode q.code = some q := by cases q <;> rfl
theorem scope_ofCode (sc : Scope) : Scope.ofCode sc.code = some sc := by cases sc <;> rfl
theorem sr_ofCode (r : Sr) : Sr.ofCode r.code = some r := by cases r <;> rfl
theorem redOp_ofCode (o : RedOp) : RedOp.ofCode o.code = some o := by cases o <;> rfl
theorem halfOp_ofCode (o : HalfOp) : HalfOp.ofCode o.code = some o := by cases o <;> rfl

/-! ### Bits of M -/

/-- A number in M that a field of the instruction holds. -/
theorem mb_eq {x : Fields} {k w : Nat} {v : BitVec w} (hv : x.m / 2 ^ k % 2 ^ w = v.toNat) : ((x.mb k w : Nat) : BitVec w) = v :=
  BitVec.eq_of_toNat_eq (by simp [Fields.mb, hv])
theorem mt_eq {x : Fields} {k : Nat} {v : Bool} (hv : x.m / 2 ^ k % 2 = v.toNat) : x.mt k = v := by
  cases v <;> simp [Fields.mt, hv]

theorem mod_div_mod (m : Nat) {k w n : Nat} (hk : k + w ≤ n) : m % 2 ^ n / 2 ^ k % 2 ^ w = m / 2 ^ k % 2 ^ w := by
  obtain ⟨r, rfl⟩ := Nat.exists_eq_add_of_le hk
  rw [show k + w + r = k + (w + r) by omega, pow_add, Nat.mod_mul_right_div_self, pow_add, Nat.mod_mul_right_mod]

/-- M's bits below `2 ^ n` are `lo`. -/
structure Low (x : Fields) (n lo : Nat) : Prop where
  eq : x.m % 2 ^ n = lo

variable {x : Fields} {n : Nat}

theorem Low.mb (l : Low x n lo) {k w : Nat} (v : BitVec w) (hk : k + w ≤ n) (hv : lo / 2 ^ k % 2 ^ w = v.toNat) :
    ((x.mb k w : Nat) : BitVec w) = v :=
  mb_eq (by rw [← mod_div_mod x.m hk, l.eq, hv])
theorem Low.mt (l : Low x n lo) {k : Nat} (v : Bool) (hk : k + 1 ≤ n) (hv : lo / 2 ^ k % 2 = v.toNat) : x.mt k = v :=
  mt_eq (by have e := mod_div_mod x.m hk; rw [Nat.pow_one, l.eq] at e; rw [← e, hv])
theorem Low.code (l : Low x n lo) {k w v : Nat} (hk : k + w ≤ n) (hv : lo / 2 ^ k % 2 ^ w = v) : x.mb k w = v := by
  rw [Fields.mb, ← mod_div_mod x.m hk, l.eq, hv]

/-! ### Operands -/

theorem regOpd_num {o : Opd} {k ix : Bool} (ho : o.regOk u = true) (hk : k = o.isK) (hi : ix = o.isIdx) :
    regOpd u k ix o.num = o := by
  subst hk hi
  cases u <;> cases o <;> simp_all [regOpd, Opd.regOk, Opd.num, Opd.isK, Opd.isIdx]

theorem kind_beq_one (o : Opd) : (o.kind == 1) = o.isK := by
  unfold Opd.kind
  cases o.isK <;> rfl
theorem kind_toNat (o : Opd) : o.kind = o.isK.toNat := by
  unfold Opd.kind
  cases o.isK <;> rfl

/-- XIS names the operand that is indexed (R44). -/
theorem xis_names (h1 : oneIdx [d, a, b] = true) :
    (xis d a b == 1) = d.isIdx ∧ (xis d a b == 2) = a.isIdx ∧ (xis d a b == 3) = b.isIdx := by
  unfold xis
  cases hd : d.isIdx <;> cases ha : a.isIdx <;> cases hb : b.isIdx <;> simp_all [oneIdx]

theorem regOk_of_plainOk {o : Opd} (ho : o.plainOk u = true) : o.regOk u = true ∧ o.isIdx = false := by
  simpa [Opd.plainOk] using ho

/-- A plain operand's register and kind bit name it. -/
theorem regOpd_plain {o : Opd} {k : Bool} (ho : o.plainOk u = true) (hk : k = o.isK) : regOpd u k false o.num = o := by
  obtain ⟨hr, hi⟩ := regOk_of_plainOk ho
  exact regOpd_num hr hk hi.symm

/-! ### The forms of words -/

/-- What `parse` answers for the instruction's fields is the instruction. -/
def Reads (u : Core) (i : Instr) : Prop :=
  ∀ x, fieldsOf i = some x → ∃ g, Guard.ofCode x.g = some g ∧ parse u ⟨x.sw, g⟩ x = some i

theorem Reads.of {y : Fields} (hf : fieldsOf i = some y) (hs : y.sw = h.sw) (hg : y.g = h.g.code) (hp : parse u h y = some i) :
    Reads u i := by
  intro x hx
  rw [hf] at hx
  cases hx
  exact ⟨h.g, by rw [hg, guard_ofCode], by rw [hs]; exact hp⟩

/-- An event and a pair word have no fields. -/
theorem Reads.none (hf : fieldsOf i = Option.none) : Reads u i := fun x hx => by
  rw [hf] at hx
  cases hx

/-- The operands and the low bits of a word without index field. -/
structure HoldsK (u : Core) (x : Fields) (d a b c : Opd) (lo : Nat) : Prop where
  plD : d.plainOk u = true → x.plD u = d
  plA : a.plainOk u = true → x.plA u = a
  plB : b.plainOk u = true → x.plB u = b
  plC : c.plainOk u = true → x.plC u = c
  numD : x.d = d.num
  numA : x.a = a.num
  numC : x.c = c.num
  kindC : x.mt 12 = c.isK
  low : Low x 12 lo

theorem holdsK (hlo : lo < 2 ^ 12) : HoldsK u (fieldsK h maj fn d a b c lo) d a b c lo := by
  have kd := kind_lt d
  have ka := kind_lt a
  have kb := kind_lt b
  have kc := kind_lt c
  have hm : (fieldsK h maj fn d a b c lo).m = d.kind * 2 ^ 15 + a.kind * 2 ^ 14 + b.kind * 2 ^ 13 + c.kind * 2 ^ 12 + lo := rfl
  have bit (k : Nat) (o : Opd) (e : (fieldsK h maj fn d a b c lo).m / 2 ^ k % 2 = o.kind) :
      (fieldsK h maj fn d a b c lo).mt k = o.isK := mt_eq (by rw [e, kind_toNat])
  exact {
    plD := fun ho => regOpd_plain ho (bit 15 d (by omega))
    plA := fun ho => regOpd_plain ho (bit 14 a (by omega))
    plB := fun ho => regOpd_plain ho (bit 13 b (by omega))
    plC := fun ho => regOpd_plain ho (bit 12 c (by omega))
    numD := rfl
    numA := rfl
    numC := rfl
    kindC := bit 12 c (by omega)
    low := ⟨by omega⟩ }

/-- A word without index field is read as its operands and its bits say. -/
theorem reads_k (hf : fieldsOf i = some (fieldsK h maj fn d a b c lo)) (hlo : lo < 2 ^ 12)
    (hp : ∀ x : Fields, HoldsK u x d a b c lo → parse u h { x with maj := maj, fn := fn } = some i) : Reads u i :=
  Reads.of hf rfl rfl (hp _ (holdsK (maj := maj) (fn := fn) hlo))

/-- The operands and the low bits of a word with XIS. -/
structure HoldsX (u : Core) (x : Fields) (d a b c : Opd) (lo : Nat) : Prop where
  opD : d.regOk u = true → x.opD u = d
  opA : a.regOk u = true → x.opA u = a
  opB : b.regOk u = true → x.opB u = b
  opI : b.srcOk u = true → x.opI u = b
  plC : b.regOk u = true → c.plainOk u = true → x.plC u = c
  low : Low x 8 lo

theorem holdsX (h1 : oneIdx [d, a, b] = true) (hlo : lo < 2 ^ 8) : HoldsX u (fieldsX h maj fn d a b c lo) d a b c lo := by
  have kd := kind_lt d
  have ka := kind_lt a
  have kb := kind_lt b
  have kc := kind_lt c
  have kx := xis_lt d a b
  obtain ⟨xd, xa, xb⟩ := xis_names h1
  generalize hX : fieldsX h maj fn d a b c lo = X
  have bit {k : Nat} {o : Opd} (e : X.m / 2 ^ k % 2 = o.kind) : X.mt k = o.isK := mt_eq (by rw [e, kind_toNat])
  by_cases hb : ∃ v sx, b = .imm v sx
  · obtain ⟨v, sx, rfl⟩ := hb
    have hs := toNat_lt2 sx
    have hm : X.m = d.kind * 2 ^ 15 + a.kind * 2 ^ 14 + xis d a (.imm v sx) * 2 ^ 8 + lo + 2 ^ 11 + sx.toNat * 2 ^ 10 := by
      rw [← hX]; rfl
    have hx : X.mb 8 2 = xis d a (.imm v sx) := by rw [Fields.mb]; omega
    exact {
      opD := fun ho => by
        rw [Fields.opD, hx, ← hX]
        exact regOpd_num ho (by rw [hX]; exact bit (by omega)) xd
      opA := fun ho => by
        rw [Fields.opA, hx, ← hX]
        exact regOpd_num ho (by rw [hX]; exact bit (by omega)) xa
      opB := fun ho => by cases ho
      opI := fun _ => by
        have hv : BitVec.ofNat 16 (X.b * 256 + X.c) = v := by
          rw [← hX]
          exact BitVec.eq_of_toNat_eq (by simp [fieldsX]; omega)
        rw [Fields.opI, mt_eq (v := true) (by simp; omega), if_pos rfl, hv, mt_eq (v := sx) (by omega)]
      plC := fun ho => by cases ho
      low := ⟨by omega⟩ }
  · have hY : X = { fields0 h maj fn with
        d := d.num, a := a.num, b := b.num, c := c.num
        m := d.kind * 2 ^ 15 + a.kind * 2 ^ 14 + xis d a b * 2 ^ 8 + lo + b.kind * 2 ^ 13 + c.kind * 2 ^ 12 } := by
      rw [← hX]
      cases b with
      | imm v sx => exact absurd ⟨v, sx, rfl⟩ hb
      | _ => rfl
    have hm : X.m = d.kind * 2 ^ 15 + a.kind * 2 ^ 14 + xis d a b * 2 ^ 8 + lo + b.kind * 2 ^ 13 + c.kind * 2 ^ 12 := by rw [hY]
    have hx : X.mb 8 2 = xis d a b := by rw [Fields.mb]; omega
    have opB (ho : b.regOk u = true) : X.opB u = b := by
      rw [Fields.opB, hx, show X.b = b.num by rw [hY]]
      exact regOpd_num ho (bit (by omega)) xb
    exact {
      opD := fun ho => by
        rw [Fields.opD, hx, show X.d = d.num by rw [hY]]
        exact regOpd_num ho (bit (by omega)) xd
      opA := fun ho => by
        rw [Fields.opA, hx, show X.a = a.num by rw [hY]]
        exact regOpd_num ho (bit (by omega)) xa
      opB := opB
      opI := fun ho => by
        rw [Fields.opI, mt_eq (v := false) (by simp; omega)]
        refine opB ?_
        cases b with
        | imm v sx => exact absurd ⟨v, sx, rfl⟩ hb
        | _ => exact ho
      plC := fun _ ho => by
        rw [Fields.plC, show X.c = c.num by rw [hY]]
        exact regOpd_plain ho (bit (by omega))
      low := ⟨by omega⟩ }

theorem fieldsX_head : (fieldsX h maj fn d a b c lo).sw = h.sw ∧ (fieldsX h maj fn d a b c lo).g = h.g.code := by
  cases b <;> exact ⟨rfl, rfl⟩

/-- A word with XIS is read as its operands and its bits say. -/
theorem reads_x (hf : fieldsOf i = some (fieldsX h maj fn d a b c lo)) (h1 : oneIdx [d, a, b] = true) (hlo : lo < 2 ^ 8)
    (hp : ∀ x : Fields, HoldsX u x d a b c lo → parse u h { x with maj := maj, fn := fn } = some i) : Reads u i := by
  obtain ⟨hs, hg⟩ := fieldsX_head (h := h) (maj := maj) (fn := fn) (d := d) (a := a) (b := b) (c := c) (lo := lo)
  have e : { fieldsX h maj fn d a b c lo with maj := maj, fn := fn } = fieldsX h maj fn d a b c lo := by
    cases b <;> rfl
  exact Reads.of hf hs hg (e ▸ hp _ (holdsX h1 hlo))

/-! Integer, floating and cross-lane words: operands with XIS. -/

/-- D, A, and B or the immediate. -/
theorem reads_x3 (f : Opd → Opd → Opd → Instr) (hw : wf3 u d a b = true)
    (hf : fieldsOf (f d a b) = some (fieldsX h maj fn d a b noOpd 0))
    (hp : ∀ x : Fields, parse u h { x with maj := maj, fn := fn } = some (f (x.opD u) (x.opA u) (x.opI u))) : Reads u (f d a b) := by
  simp only [wf3, Bool.and_eq_true] at hw
  obtain ⟨⟨⟨hd, ha⟩, hb⟩, h1⟩ := hw
  exact reads_x hf h1 (by decide) fun x k => by rw [hp, k.opD hd, k.opA ha, k.opI hb]

/-- Three registers. -/
theorem reads_x3r (f : Opd → Opd → Opd → Instr) (hw : wf3r u d a b = true)
    (hf : fieldsOf (f d a b) = some (fieldsX h maj fn d a b noOpd 0))
    (hp : ∀ x : Fields, Low x 8 0 → parse u h { x with maj := maj, fn := fn } = some (f (x.opD u) (x.opA u) (x.opB u))) :
    Reads u (f d a b) := by
  simp only [wf3r, Bool.and_eq_true] at hw
  obtain ⟨⟨⟨hd, ha⟩, hb⟩, h1⟩ := hw
  exact reads_x hf h1 (by decide) fun x k => by rw [hp x k.low, k.opD hd, k.opA ha, k.opB hb]

/-- Four registers, the last without index. -/
theorem reads_x4 (f : Opd → Opd → Opd → Opd → Instr) (hw : wf4 u d a b c = true) (hlo : lo < 2 ^ 8)
    (hf : fieldsOf (f d a b c) = some (fieldsX h maj fn d a b c lo))
    (hp : ∀ x : Fields, Low x 8 lo →
      parse u h { x with maj := maj, fn := fn } = some (f (x.opD u) (x.opA u) (x.opB u) (x.plC u))) :
    Reads u (f d a b c) := by
  simp only [wf4, wf3r, Bool.and_eq_true] at hw
  obtain ⟨⟨⟨⟨hd, ha⟩, hb⟩, h1⟩, hc⟩ := hw
  exact reads_x hf h1 hlo fun x k => by rw [hp x k.low, k.opD hd, k.opA ha, k.opB hb, k.plC hb hc]

theorem oneIdx_noOpd (d a : Opd) : oneIdx [d, a, noOpd] = oneIdx [d, a] := by cases d <;> cases a <;> rfl

/-- D and A, and the low bits of M. -/
theorem reads_x2 (f : Opd → Opd → Instr) (hw : wf2 u d a = true) (hlo : lo < 2 ^ 8)
    (hf : fieldsOf (f d a) = some (fieldsX h maj fn d a noOpd noOpd lo))
    (hp : ∀ x : Fields, Low x 8 lo → parse u h { x with maj := maj, fn := fn } = some (f (x.opD u) (x.opA u))) :
    Reads u (f d a) := by
  simp only [wf2, Bool.and_eq_true] at hw
  obtain ⟨⟨hd, ha⟩, h1⟩ := hw
  exact reads_x hf (oneIdx_noOpd d a ▸ h1) hlo fun x k => by rw [hp x k.low, k.opD hd, k.opA ha]

/-- D and A, and a bit at the low end of M. -/
theorem reads_x2b (f : Bool → Opd → Opd → Instr) (v : Bool) (hw : wf2 u d a = true)
    (hf : fieldsOf (f v d a) = some (fieldsX h maj fn d a noOpd noOpd v.toNat))
    (hp : ∀ x : Fields, parse u h { x with maj := maj, fn := fn } = some (f (x.mt 0) (x.opD u) (x.opA u))) : Reads u (f v d a) := by
  have h1 := toNat_lt2 v
  exact reads_x2 (f v) hw (by omega) hf fun x l => by rw [hp, l.mt v (by decide) (by omega)]

theorem reads_iset (q : ICond) (dd : Option Opd) (hw : wf u (.iset h q dd a b) = true) : Reads u (.iset h q dd a b) := by
  cases dd with
  | none =>
    change (_ && _ && _) = true at hw
    simp only [Bool.and_eq_true] at hw
    obtain ⟨⟨ha, hb⟩, h1⟩ := hw
    refine reads_x rfl (d := noOpd) h1 (by decide) fun x k => ?_
    show (ICond.ofCode q.code).map (fun q => Instr.iset h q (if x.mt 0 then some (x.opD u) else none) (x.opA u) (x.opI u)) = _
    rw [icond_ofCode, k.low.mt false (by decide) (by decide), k.opA ha, k.opI hb]
    rfl
  | some d =>
    change wf3 u d a b = true at hw
    simp only [wf3, Bool.and_eq_true] at hw
    obtain ⟨⟨⟨hd, ha⟩, hb⟩, h1⟩ := hw
    refine reads_x rfl h1 (by decide) fun x k => ?_
    show (ICond.ofCode q.code).map (fun q => Instr.iset h q (if x.mt 0 then some (x.opD u) else none) (x.opA u) (x.opI u)) = _
    rw [icond_ofCode, k.low.mt true (by decide) (by decide), k.opD hd, k.opA ha, k.opI hb]
    rfl

theorem reads_fset (q : FCond) (dd : Option Opd) (hw : wf u (.fset h q dd a b) = true) : Reads u (.fset h q dd a b) := by
  cases dd with
  | none =>
    change (_ && _ && _ && _) = true at hw
    simp only [Bool.and_eq_true] at hw
    obtain ⟨⟨⟨-, ha⟩, hb⟩, h1⟩ := hw
    refine reads_x rfl (d := noOpd) h1 (by decide) fun x k => ?_
    show (FCond.ofCode q.code).map (fun q => Instr.fset h q (if x.mt 0 then some (x.opD u) else none) (x.opA u) (x.opB u)) = _
    rw [fcond_ofCode, k.low.mt false (by decide) (by decide), k.opA ha, k.opB hb]
    rfl
  | some d =>
    change (_ && wf3r u d a b) = true at hw
    simp only [wf3r, Bool.and_eq_true] at hw
    obtain ⟨-, ⟨⟨hd, ha⟩, hb⟩, h1⟩ := hw
    refine reads_x rfl h1 (by decide) fun x k => ?_
    show (FCond.ofCode q.code).map (fun q => Instr.fset h q (if x.mt 0 then some (x.opD u) else none) (x.opA u) (x.opB u)) = _
    rw [fcond_ofCode, k.low.mt true (by decide) (by decide), k.opD hd, k.opA ha, k.opB hb]
    rfl

/-- A rounding mode in the function, and a bit at the low end of M. -/
theorem reads_round (f : Rnd → Bool → Opd → Opd → Instr) (r : Rnd) (v : Bool) (hw : wf2 u d a = true)
    (hf : fieldsOf (f r v d a) = some (fieldsX h maj r.code d a noOpd noOpd v.toNat))
    (hp : ∀ x : Fields, parse u h { x with maj := maj, fn := r.code } = some (f r (x.mt 0) (x.opD u) (x.opA u))) :
    Reads u (f r v d a) := reads_x2b (f r) v hw hf hp

theorem reads_scan (ex : Bool) (o : RedOp) (hw : wf u (.scan h ex o d a) = true) : Reads u (.scan h ex o d a) := by
  have hw : wf2 u d a = true := Bool.and_elim_right (Bool.and_elim_left (Bool.and_elim_left hw))
  have ho := redOp_lt o
  refine reads_x2 (.scan h ex o) hw (by omega) rfl fun x l => ?_
  have hc : RedOp.ofCode (x.mb 0 4) = some o := by rw [l.code (by decide) (v := o.code) (by omega), redOp_ofCode]
  cases ex with
  | false =>
    show (RedOp.ofCode (x.mb 0 4)).map _ = _
    rw [hc]
    rfl
  | true =>
    show (RedOp.ofCode (x.mb 0 4)).map _ = _
    rw [hc]
    rfl

theorem reads_rdln (tile : Bool) (hw : wf u (.rdln h tile d) = true) : Reads u (.rdln h tile d) := by
  have hd : d.regOk u = true := Bool.and_elim_right (Bool.and_elim_left hw)
  have ht := toNat_lt2 tile
  refine reads_x rfl (a := noOpd) (b := noOpd) (by cases d <;> rfl) (by omega) fun x k => ?_
  rw [← k.opD hd, ← k.low.mt (k := 0) tile (by decide) (by omega)]
  rfl

/-- B:C:M holds a 32-bit immediate (R45). -/
theorem imm32_fieldsI {d a : Nat} (v : BitVec 32) : (fieldsI h maj fn d a v).imm32 = v :=
  BitVec.eq_of_toNat_eq (by simp [Fields.imm32, fieldsI, fieldsN]; omega)

theorem reads_movi (tag : BitVec 2) (v : BitVec 32) (hw : wf u (.movi h d tag v) = true) : Reads u (.movi h d tag v) := by
  have hd : d.plainOk u = true := Bool.and_elim_left hw
  have hk := kind_lt d
  have ht : BitVec.ofNat 2 (d.kind * 128 + tag.toNat) = tag := BitVec.eq_of_toNat_eq (by simp; omega)
  have hd' : regOpd u ((d.kind * 128 + tag.toNat) / 128 == 1) false d.num = d :=
    regOpd_plain hd (by rw [show (d.kind * 128 + tag.toNat) / 128 = d.kind by omega, kind_beq_one])
  refine Reads.of rfl rfl rfl ?_
  show some (Instr.movi h (regOpd u ((d.kind * 128 + tag.toNat) / 128 == 1) false d.num) (BitVec.ofNat 2 (d.kind * 128 + tag.toNat))
    (fieldsI h 0x30 1 d.num (d.kind * 128 + tag.toNat) v).imm32) = _
  rw [hd', ht, imm32_fieldsI]

/-! Words without index field. -/

theorem plainOk_of_capOk (ha : capOk u a = true) : a.plainOk u = true := Bool.and_elim_left ha

theorem Low.scope {sc : Scope} {k : Nat} (l : Low x n lo) (hk : k + 3 ≤ n) (hv : lo / 2 ^ k % 2 ^ 3 = sc.code) :
    Scope.ofCode (x.mb k 3) = some sc := by rw [l.code hk hv, scope_ofCode]

theorem reads_waitw (cd : WCond) (tmo : BitVec 4) (scl : BitVec 2) (sc : Scope) (hw : wf u (.waitw h cd d a b c tmo scl sc) = true) :
    Reads u (.waitw h cd d a b c tmo scl sc) := by
  change (_ && _ && _ && _ && _) = true at hw
  simp only [Bool.and_eq_true] at hw
  obtain ⟨⟨⟨⟨hd, ha⟩, hb⟩, hc⟩, -⟩ := hw
  have hs := scope_lt sc
  refine reads_k rfl (by omega) fun x k => ?_
  have e : WCond.ofCode cd.code = some cd ∧ Scope.ofCode (x.mb 3 3) = some sc := ⟨wcond_ofCode cd, k.low.scope (by decide) (by omega)⟩
  rw [← k.plD hd, ← k.plA (plainOk_of_capOk ha), ← k.plB hb, ← k.plC hc, ← k.low.mb (k := 8) tmo (by decide) (by omega),
    ← k.low.mb (k := 6) scl (by decide) (by omega)]
  show (match WCond.ofCode cd.code, Scope.ofCode (x.mb 3 3) with
    | some _, some _ => some _
    | _, _ => none) = _
  rw [e.1, e.2]
  rfl

theorem reads_rdsr (r : Sr) (hw : wf u (.rdsr h d r) = true) : Reads u (.rdsr h d r) := by
  have hd : d.plainOk u = true := Bool.and_elim_left (Bool.and_elim_left (Bool.and_elim_left hw))
  have hr := sr_lt r
  refine reads_k rfl (by omega) fun x k => ?_
  rw [← k.plD hd]
  show (Sr.ofCode (x.mb 0 8)).map _ = _
  rw [k.low.code (v := r.code) (by decide) (by omega), sr_ofCode]
  rfl
theorem reads_wrsr (r : Sr) (hw : wf u (.wrsr h r a) = true) : Reads u (.wrsr h r a) := by
  have ha : a.plainOk u = true :=
    Bool.and_elim_left (Bool.and_elim_left (Bool.and_elim_left (Bool.and_elim_left hw)))
  have hr := sr_lt r
  refine reads_k rfl (by omega) fun x k => ?_
  rw [← k.plA ha]
  show (Sr.ofCode (x.mb 0 8)).map _ = _
  rw [k.low.code (v := r.code) (by decide) (by omega), sr_ofCode]
  rfl

/-! Loads and stores: the function holds the scale and the strong bit (R61). -/

theorem memFn_scale (scl : BitVec 2) (st : Bool) : BitVec.ofNat 2 (memFn scl st / 2) = scl := by
  have hs := toNat_lt2 st
  exact BitVec.eq_of_toNat_eq (by simp [memFn]; omega)
theorem memFn_strong (scl : BitVec 2) (st : Bool) : (memFn scl st % 2 == 1) = st := by
  cases st <;> simp [memFn]

/-- C of a weak load (R102, R103). -/
def loadC (lim : BitVec 4) (pred : BitVec 3) (c : CRef) : Opd := if lim == 15 && (pred == 4 || pred == 5) then .v c.opd.num else c.opd

theorem cref_eq {lim : BitVec 4} {pred : BitVec 3} {conv : BitVec 5} {c : CRef} (hl : limOk lim pred conv c = true)
    (hlim : x.mb 8 4 = lim.toNat) (hpred : x.mb 5 3 = pred.toNat) (hn : x.c = (loadC lim pred c).num)
    (hk : x.mt 12 = (loadC lim pred c).isK) : x.cref = c := by
  have g4 : (pred.toNat == 4) = (pred == 4) := by rw [Bool.eq_iff_iff]; simp [BitVec.toNat_eq]
  have g5 : (pred.toNat == 5) = (pred == 5) := by rw [Bool.eq_iff_iff]; simp [BitVec.toNat_eq]
  have l15 : lim.toNat = 15 ↔ lim = 15 := by simp [BitVec.toNat_eq]
  have l0 : lim.toNat = 0 ↔ lim = 0 := by simp [BitVec.toNat_eq]
  simp only [Fields.cref, hlim, hpred, g4, g5, l15, l0, ne_eq, hn, hk, loadC]
  unfold limOk at hl
  simp only [Bool.and_eq_true] at hl
  obtain ⟨-, hc⟩ := hl
  generalize (pred == 4 || pred == 5) = g at hc ⊢
  by_cases h15 : lim = 15
  · subst h15
    cases c <;> cases g <;> simp_all [CRef.opd, Opd.isK, Opd.num]
  · by_cases h0 : lim = 0
    · subst h0
      cases c <;> cases g <;> simp_all
    · cases c <;> cases g <;> simp_all [CRef.opd, Opd.isK, Opd.num]

theorem reads_ld (scl : BitVec 2) (lim : BitVec 4) (pred : BitVec 3) (conv : BitVec 5) (c : CRef)
    (hw : wf u (.ld h scl lim pred conv d a b c) = true) : Reads u (.ld h scl lim pred conv d a b c) := by
  change (_ && _ && _ && _ && _ && _ && _ && _) = true at hw
  simp only [Bool.and_eq_true] at hw
  obtain ⟨⟨⟨⟨⟨⟨⟨-, -⟩, hd⟩, ha⟩, hb⟩, -⟩, hl⟩, -⟩ := hw
  refine reads_k (c := loadC lim pred c) rfl (by omega) fun x k => ?_
  show (if (memFn scl false % 2 == 1) = true then _ else some (Instr.ld h (BitVec.ofNat 2 (memFn scl false / 2)) (x.mb 8 4) (x.mb 5 3)
    (x.mb 0 5) (x.plD u) (x.plA u) (x.plB u) x.cref)) = _
  rw [memFn_strong, if_neg Bool.false_ne_true, memFn_scale, k.low.mb lim (by decide) (by omega), k.low.mb pred (by decide) (by omega),
    k.low.mb conv (by decide) (by omega), k.plD hd, k.plA (plainOk_of_capOk ha), k.plB hb,
    cref_eq hl (k.low.code (by decide) (by omega)) (k.low.code (by decide) (by omega)) k.numC k.kindC]

theorem reads_ldStrong (scl : BitVec 2) (sc : Scope) (conv : BitVec 5) (hw : wf u (.ldStrong h scl sc conv d a b) = true) :
    Reads u (.ldStrong h scl sc conv d a b) := by
  change (_ && _ && _ && _ && _ && _ && _) = true at hw
  simp only [Bool.and_eq_true] at hw
  obtain ⟨⟨⟨⟨⟨⟨-, -⟩, hd⟩, ha⟩, hb⟩, -⟩, -⟩ := hw
  have hs := scope_lt sc
  refine reads_k rfl (by omega) fun x k => ?_
  show (if (memFn scl true % 2 == 1) = true then (Scope.ofCode (x.mb 8 3)).map fun sc => Instr.ldStrong h
    (BitVec.ofNat 2 (memFn scl true / 2)) sc (x.mb 0 5) (x.plD u) (x.plA u) (x.plB u) else _) = _
  rw [memFn_strong, if_pos rfl, memFn_scale, k.low.scope (sc := sc) (by decide) (by omega), k.low.mb conv (by decide) (by omega), k.plD hd,
    k.plA (plainOk_of_capOk ha), k.plB hb]
  rfl

theorem reads_ldk (scl : BitVec 2) (mode : LdMode) (conv : BitVec 5) (c : CRef) (hw : wf u (.ldk h scl mode conv d a b c) = true) :
    Reads u (.ldk h scl mode conv d a b c) := by
  change (_ && _ && _ && _ && _ && _ && _ && _ && _) = true at hw
  simp only [Bool.and_eq_true] at hw
  obtain ⟨⟨⟨⟨⟨⟨⟨⟨hd, ha⟩, hb⟩, -⟩, -⟩, -⟩, -⟩, -⟩, hm⟩ := hw
  cases mode with
  | weak lim pred =>
    have hl : limOk lim pred conv c = true := by
      cases u with
      | bench => exact Bool.and_elim_left (Bool.and_elim_left (Bool.and_elim_left (Bool.and_elim_left hm)))
      | acc =>
        simp only [Bool.and_eq_true, beq_iff_eq] at hm
        obtain ⟨⟨rfl, rfl⟩, rfl⟩ := hm
        rfl
    refine reads_k (c := loadC lim pred c) rfl (by omega) fun x k => ?_
    show (if (memFn scl false % 2 == 1) = true then _ else some (Instr.ldk h (BitVec.ofNat 2 (memFn scl false / 2))
      (.weak (x.mb 8 4) (x.mb 5 3)) (x.mb 0 5) (x.plD u) (x.plA u) (x.plB u) x.cref)) = _
    rw [memFn_strong, if_neg Bool.false_ne_true, memFn_scale, k.low.mb lim (by decide) (by omega),
      k.low.mb pred (by decide) (by omega), k.low.mb conv (by decide) (by omega), k.plD hd, k.plA (plainOk_of_capOk ha), k.plB hb,
      cref_eq hl (k.low.code (by decide) (by omega)) (k.low.code (by decide) (by omega)) k.numC k.kindC]
  | strong sc =>
    obtain rfl : c = .none := eq_of_beq hm
    have hs := scope_lt sc
    refine reads_k rfl (by omega) fun x k => ?_
    show (if (memFn scl true % 2 == 1) = true then (Scope.ofCode (x.mb 8 3)).map fun sc => Instr.ldk h
      (BitVec.ofNat 2 (memFn scl true / 2)) (.strong sc) (x.mb 0 5) (x.plD u) (x.plA u) (x.plB u) .none else _) = _
    rw [memFn_strong, if_pos rfl, memFn_scale, k.low.scope (sc := sc) (by decide) (by omega), k.low.mb conv (by decide) (by omega), k.plD hd,
      k.plA (plainOk_of_capOk ha), k.plB hb]
    rfl

theorem memFn_weak (scl : BitVec 2) : ¬ (memFn scl false % 2 == 1) = true := by simp [memFn_strong]

/-- A weak store. -/
theorem reads_stWeak (f : BitVec 2 → Bool → Bool → BitVec 5 → Opd → Opd → Opd → Instr) (scl : BitVec 2) (acc ns : Bool) (conv : BitVec 5)
    (ha : a.plainOk u = true) (hb : b.plainOk u = true) (hc : c.plainOk u = true)
    (hf : fieldsOf (f scl acc ns conv a b c) = some (fieldsStore h maj scl none acc ns conv a b c))
    (hp : ∀ x : Fields, parse u h { x with maj := maj, fn := memFn scl false } =
      some (f (BitVec.ofNat 2 (memFn scl false / 2)) (x.mt 11) (x.mt 5) (x.mb 0 5) (x.plA u) (x.plB u) (x.plC u))) :
    Reads u (f scl acc ns conv a b c) := by
  have h1 := toNat_lt2 acc
  have h2 := toNat_lt2 ns
  refine reads_k (fn := memFn scl false) (lo := acc.toNat * 2 ^ 11 + 0 + ns.toNat * 2 ^ 5 + conv.toNat) hf (by omega) fun x k => ?_
  rw [hp, memFn_scale, k.low.mt acc (by decide) (by omega), k.low.mt ns (by decide) (by omega), k.low.mb conv (by decide) (by omega),
    k.plA ha, k.plB hb, k.plC hc]

/-- A strong store. -/
theorem reads_stStrong (f : BitVec 2 → Scope → Bool → Bool → BitVec 5 → Opd → Opd → Opd → Instr) (scl : BitVec 2) (sc : Scope)
    (acc ns : Bool) (conv : BitVec 5) (ha : a.plainOk u = true) (hb : b.plainOk u = true) (hc : c.plainOk u = true)
    (hf : fieldsOf (f scl sc acc ns conv a b c) = some (fieldsStore h maj scl (some sc) acc ns conv a b c))
    (hp : ∀ x : Fields, parse u h { x with maj := maj, fn := memFn scl true } = (Scope.ofCode (x.mb 8 3)).map fun sc =>
      f (BitVec.ofNat 2 (memFn scl true / 2)) sc (x.mt 11) (x.mt 5) (x.mb 0 5) (x.plA u) (x.plB u) (x.plC u)) :
    Reads u (f scl sc acc ns conv a b c) := by
  have h1 := toNat_lt2 acc
  have h2 := toNat_lt2 ns
  have h3 := scope_lt sc
  refine reads_k (fn := memFn scl true) (lo := acc.toNat * 2 ^ 11 + sc.code * 2 ^ 8 + ns.toNat * 2 ^ 5 + conv.toNat) hf (by omega) fun x k => ?_
  rw [hp, k.low.scope (sc := sc) (by decide) (by omega), memFn_scale, k.low.mt acc (by decide) (by omega),
    k.low.mt ns (by decide) (by omega), k.low.mb conv (by decide) (by omega), k.plA ha, k.plB hb, k.plC hc]
  rfl

theorem memFn_isStrong (scl : BitVec 2) : (memFn scl true % 2 == 1) = true := memFn_strong scl true

theorem reads_st (scl : BitVec 2) (acc ns : Bool) (conv : BitVec 5) (hw : wf u (.st h scl acc ns conv a b c) = true) :
    Reads u (.st h scl acc ns conv a b c) := by
  change (_ && _ && _ && _ && _ && _) = true at hw
  simp only [Bool.and_eq_true] at hw
  obtain ⟨⟨⟨⟨⟨-, ha⟩, hb⟩, hc⟩, -⟩, -⟩ := hw
  exact reads_stWeak (.st h) scl acc ns conv (plainOk_of_capOk ha) hb hc rfl fun x => if_neg (memFn_weak scl)

theorem reads_stStrong' (scl : BitVec 2) (sc : Scope) (acc ns : Bool) (conv : BitVec 5)
    (hw : wf u (.stStrong h scl sc acc ns conv a b c) = true) : Reads u (.stStrong h scl sc acc ns conv a b c) := by
  change (_ && _ && _ && _ && _ && _) = true at hw
  simp only [Bool.and_eq_true] at hw
  obtain ⟨⟨⟨⟨⟨-, ha⟩, hb⟩, hc⟩, -⟩, -⟩ := hw
  exact reads_stStrong (.stStrong h) scl sc acc ns conv (plainOk_of_capOk ha) hb hc rfl fun x => if_pos (memFn_isStrong scl)

theorem reads_stk (scl : BitVec 2) (mode : Option Scope) (acc ns : Bool) (conv : BitVec 5)
    (hw : wf u (.stk h scl mode acc ns conv a b c) = true) : Reads u (.stk h scl mode acc ns conv a b c) := by
  change (_ && _ && _ && _ && _ && _ && _ && _) = true at hw
  simp only [Bool.and_eq_true] at hw
  obtain ⟨⟨⟨⟨⟨⟨⟨ha, hb⟩, hc⟩, -⟩, -⟩, -⟩, -⟩, -⟩ := hw
  cases mode with
  | none => exact reads_stWeak (.stk h · none) scl acc ns conv (plainOk_of_capOk ha) hb hc rfl fun x => if_neg (memFn_weak scl)
  | some sc =>
    exact reads_stStrong (fun scl sc => .stk h scl (some sc)) scl sc acc ns conv (plainOk_of_capOk ha) hb hc rfl fun x =>
      if_pos (memFn_isStrong scl)

theorem reads_pft (scl : BitVec 2) (lim : BitVec 4) (lvl : BitVec 2) (line : Bool) (hw : wf u (.pft h scl lim lvl line a b) = true) :
    Reads u (.pft h scl lim lvl line a b) := by
  change (_ && _ && _ && _ && _) = true at hw
  simp only [Bool.and_eq_true] at hw
  obtain ⟨⟨⟨⟨-, ha⟩, hb⟩, -⟩, -⟩ := hw
  have h1 := toNat_lt2 line
  refine reads_k rfl (by omega) fun x k => ?_
  show some (Instr.pft h (BitVec.ofNat 2 (memFn scl false / 2)) (x.mb 8 4) (x.mb 6 2) (x.mt 5) (x.plA u) (x.plB u)) = _
  rw [memFn_scale, k.low.mb lim (by decide) (by omega), k.low.mb lvl (by decide) (by omega), k.low.mt line (by decide) (by omega),
    k.plA (plainOk_of_capOk ha), k.plB hb]

/-- Operands of a word of the benches, with the low bits of M. -/
theorem reads_k4 (f : Opd → Opd → Opd → Opd → Instr) (hd : d.plainOk u = true) (ha : a.plainOk u = true) (hb : b.plainOk u = true)
    (hc : c.plainOk u = true) (hf : fieldsOf (f d a b c) = some (fieldsK h maj fn d a b c lo)) (hlo : lo < 2 ^ 12)
    (hp : ∀ x : Fields, Low x 12 lo →
      parse u h { x with maj := maj, fn := fn } = some (f (x.plD u) (x.plA u) (x.plB u) (x.plC u))) : Reads u (f d a b c) :=
  reads_k hf hlo fun x k => by rw [hp x k.low, k.plD hd, k.plA ha, k.plB hb, k.plC hc]

/-- Loads and stores of the stash and of tarnish (R177, R249). -/
theorem reads_stash (f : BitVec 2 → Bool → BitVec 5 → Opd → Opd → Opd → Opd → Instr) (scl : BitVec 2) (acc : Bool) (conv : BitVec 5)
    (hd : d.plainOk u = true) (ha : a.plainOk u = true) (hb : b.plainOk u = true) (hc : c.plainOk u = true)
    (hf : fieldsOf (f scl acc conv d a b c) = some (fieldsStash h maj fn scl acc conv d a b c))
    (hp : ∀ x : Fields, parse u h { x with maj := maj, fn := fn } =
      some (f (x.mb 8 2) (x.mt 11) (x.mb 0 5) (x.plD u) (x.plA u) (x.plB u) (x.plC u))) :
    Reads u (f scl acc conv d a b c) := by
  have h1 := toNat_lt2 acc
  refine reads_k4 (f scl acc conv) hd ha hb hc hf (by omega) fun x l => ?_
  rw [hp, l.mb scl (by decide) (by omega), l.mt acc (by decide) (by omega), l.mb conv (by decide) (by omega)]

theorem noOpd_plainOk : noOpd.plainOk .bench = true := rfl

theorem reads_ldh (f : BitVec 2 → BitVec 5 → Opd → Opd → Opd → Instr) (scl : BitVec 2) (conv : BitVec 5)
    (hw : (u == .bench && d.isV && d.plainOk u && capOk u a && b.plainOk u && decide (conv.toNat ≤ 3) && b64Even conv d) = true)
    (hf : fieldsOf (f scl conv d a b) = some (fieldsStash h maj fn scl false conv d a b noOpd))
    (hp : ∀ x : Fields, parse u h { x with maj := maj, fn := fn } = some (f (x.mb 8 2) (x.mb 0 5) (x.plD u) (x.plA u) (x.plB u))) :
    Reads u (f scl conv d a b) := by
  simp only [Bool.and_eq_true, beq_iff_eq] at hw
  obtain ⟨⟨⟨⟨⟨⟨rfl, -⟩, hd⟩, ha⟩, hb⟩, -⟩, -⟩ := hw
  exact reads_stash (fun scl _ conv d a b _ => f scl conv d a b) scl false conv hd (plainOk_of_capOk ha) hb noOpd_plainOk hf hp

theorem reads_sth (f : BitVec 2 → Bool → BitVec 5 → Opd → Opd → Opd → Instr) (scl : BitVec 2) (acc : Bool) (conv : BitVec 5)
    (hw : (u == .bench && capOk u a && b.plainOk u && c.plainOk u && decide (conv.toNat ≤ 3) && b64Even conv c) = true)
    (hf : fieldsOf (f scl acc conv a b c) = some (fieldsStash h maj fn scl acc conv noOpd a b c))
    (hp : ∀ x : Fields, parse u h { x with maj := maj, fn := fn } =
      some (f (x.mb 8 2) (x.mt 11) (x.mb 0 5) (x.plA u) (x.plB u) (x.plC u))) :
    Reads u (f scl acc conv a b c) := by
  simp only [Bool.and_eq_true, beq_iff_eq] at hw
  obtain ⟨⟨⟨⟨⟨rfl, ha⟩, hb⟩, hc⟩, -⟩, -⟩ := hw
  exact reads_stash (fun scl acc conv _ => f scl acc conv) scl acc conv noOpd_plainOk (plainOk_of_capOk ha) hb hc hf hp

theorem reads_tld (scl : BitVec 2) (conv : BitVec 5) (hw : wf u (.tld h scl conv d a b) = true) : Reads u (.tld h scl conv d a b) := by
  change (_ && _ && _ && _) = true at hw
  simp only [tarnDest, tarnAddr, Bool.and_eq_true, beq_iff_eq] at hw
  obtain ⟨⟨⟨rfl, hd, -⟩, ha, hb⟩, -⟩ := hw
  exact reads_stash (fun scl _ conv d a b _ => .tld h scl conv d a b) scl false conv hd (plainOk_of_capOk ha) hb noOpd_plainOk rfl
    fun _ => rfl
theorem reads_tst (scl : BitVec 2) (acc : Bool) (conv : BitVec 5) (hw : wf u (.tst h scl acc conv a b c) = true) :
    Reads u (.tst h scl acc conv a b c) := by
  change (_ && _ && _ && _) = true at hw
  simp only [tarnAddr, Bool.and_eq_true, beq_iff_eq] at hw
  obtain ⟨⟨⟨rfl, ha, hb⟩, hc⟩, -⟩ := hw
  exact reads_stash (fun scl acc conv _ => .tst h scl acc conv) scl acc conv noOpd_plainOk (plainOk_of_capOk ha) hb hc rfl fun _ => rfl
theorem reads_life (scl : BitVec 2) (hw : wf u (.life h scl d a b) = true) : Reads u (.life h scl d a b) := by
  change (_ && _ && _) = true at hw
  simp only [tarnDest, tarnAddr, Bool.and_eq_true, beq_iff_eq] at hw
  obtain ⟨⟨rfl, hd, -⟩, ha, hb⟩ := hw
  exact reads_stash (fun scl _ _ d a b _ => .life h scl d a b) scl false 0 hd (plainOk_of_capOk ha) hb noOpd_plainOk rfl fun _ => rfl
/-- BURN and TINIT. -/
theorem reads_tarn (f : BitVec 2 → Opd → Opd → Instr) (scl : BitVec 2) (hw : (u == .bench && tarnAddr a b) = true)
    (hf : fieldsOf (f scl a b) = some (fieldsStash h maj fn scl false 0 noOpd a b noOpd))
    (hp : ∀ x : Fields, parse u h { x with maj := maj, fn := fn } = some (f (x.mb 8 2) (x.plA u) (x.plB u))) : Reads u (f scl a b) := by
  simp only [tarnAddr, Bool.and_eq_true, beq_iff_eq] at hw
  obtain ⟨rfl, ha, hb⟩ := hw
  exact reads_stash (fun scl _ _ _ a b _ => f scl a b) scl false 0 noOpd_plainOk (plainOk_of_capOk ha) hb noOpd_plainOk hf hp

/-- Atomics (R201, R203). -/
theorem reads_at {nf : Nat} (f : Scope → BitVec 2 → BitVec 2 → Opd → Opd → Opd → Opd → Instr) (sc : Scope) (scl ty : BitVec 2)
    (hw : wfAt u nf ty d a b c = true)
    (hf : fieldsOf (f sc scl ty d a b c) = some (fieldsAt h maj fn sc scl ty d a b c))
    (hp : ∀ x : Fields, parse u h { x with maj := maj, fn := fn } = (Scope.ofCode (x.mb 8 3)).map fun sc =>
      f sc (x.mb 6 2) (x.mb 3 2) (x.plD u) (x.plA u) (x.plB u) (x.plC u)) :
    Reads u (f sc scl ty d a b c) := by
  simp only [wfAt, Bool.and_eq_true] at hw
  obtain ⟨⟨⟨⟨⟨⟨⟨hd, ha⟩, hb⟩, hc⟩, -⟩, -⟩, -⟩, -⟩ := hw
  have hs := scope_lt sc
  refine reads_k4 (f sc scl ty) hd (plainOk_of_capOk ha) hb hc hf (by omega) fun x l => ?_
  rw [hp, l.scope (sc := sc) (by decide) (by omega), l.mb scl (by decide) (by omega), l.mb ty (by decide) (by omega)]
  rfl

/-- Reductions in memory (R202, R203). -/
theorem reads_red {nf : Nat} (f : Scope → BitVec 2 → BitVec 2 → Opd → Opd → Opd → Instr) (sc : Scope) (scl ty : BitVec 2)
    (hw : (u == .bench && wfRed nf ty a b c) = true)
    (hf : fieldsOf (f sc scl ty a b c) = some (fieldsAt h maj fn sc scl ty noOpd a b c))
    (hp : ∀ x : Fields, parse u h { x with maj := maj, fn := fn } = (Scope.ofCode (x.mb 8 3)).map fun sc =>
      f sc (x.mb 6 2) (x.mb 3 2) (x.plA u) (x.plB u) (x.plC u)) :
    Reads u (f sc scl ty a b c) := by
  simp only [wfRed, Bool.and_eq_true, beq_iff_eq] at hw
  obtain ⟨rfl, ⟨⟨⟨ha, hb⟩, hc⟩, -⟩, -⟩ := hw
  have hs := scope_lt sc
  refine reads_k4 (fun _ => f sc scl ty) noOpd_plainOk (plainOk_of_capOk ha) hb hc hf (by omega) fun x l => ?_
  rw [hp, l.scope (sc := sc) (by decide) (by omega), l.mb scl (by decide) (by omega), l.mb ty (by decide) (by omega)]
  rfl

theorem reads_ofill (rf ns sb : Bool) (conv : BitVec 5) (d : Nat) (hw : wf u (.ofill h rf ns sb conv d a b c) = true) :
    Reads u (.ofill h rf ns sb conv d a b c) := by
  change (_ && _ && _ && _ && _ && _ && _) = true at hw
  simp only [Bool.and_eq_true] at hw
  obtain ⟨⟨⟨⟨⟨⟨-, -⟩, ha⟩, hb⟩, hc⟩, -⟩, -⟩ := hw
  have h1 := toNat_lt2 rf
  have h2 := toNat_lt2 ns
  have h3 := toNat_lt2 sb
  refine reads_k rfl (by omega) fun x k => ?_
  show some (Instr.ofill h (x.mt 11) (x.mt 10) (x.mt 9) (x.mb 0 5) x.d (x.plA u) (x.plB u) (x.plC u)) = _
  rw [k.low.mt rf (by decide) (by omega), k.low.mt ns (by decide) (by omega), k.low.mt sb (by decide) (by omega),
    k.low.mb conv (by decide) (by omega), k.numD, k.plA ha, k.plB hb, k.plC hc]
  rfl

theorem reads_lwait (tmo : BitVec 4) (hw : wf u (.lwait h tmo d a b) = true) : Reads u (.lwait h tmo d a b) := by
  change (_ && _ && _ && _ && _ && _ && _ && _) = true at hw
  simp only [Bool.and_eq_true] at hw
  obtain ⟨⟨⟨⟨⟨⟨⟨hd, ha⟩, hb⟩, -⟩, -⟩, -⟩, -⟩, -⟩ := hw
  refine reads_k rfl (by omega) fun x k => ?_
  rw [← k.plD hd, ← k.plA ha, ← k.plB hb, ← k.low.mb (k := 8) tmo (by decide) (by omega)]
  rfl

/-- D, A and B, and no bits. -/
theorem reads_k3 (f : Opd → Opd → Opd → Instr) (hd : d.plainOk u = true) (ha : a.plainOk u = true) (hb : b.plainOk u = true)
    (hf : fieldsOf (f d a b) = some (fieldsK h maj fn d a b noOpd 0))
    (hp : ∀ x : Fields, parse u h { x with maj := maj, fn := fn } = some (f (x.plD u) (x.plA u) (x.plB u))) : Reads u (f d a b) :=
  reads_k hf (by decide) fun x k => by rw [hp, k.plD hd, k.plA ha, k.plB hb]
/-- A and B alone. -/
theorem reads_kAB (f : Opd → Opd → Instr) (ha : a.plainOk u = true) (hb : b.plainOk u = true)
    (hf : fieldsOf (f a b) = some (fieldsK h maj fn noOpd a b noOpd 0))
    (hp : ∀ x : Fields, parse u h { x with maj := maj, fn := fn } = some (f (x.plA u) (x.plB u))) : Reads u (f a b) :=
  reads_k hf (by decide) fun x k => by rw [hp, k.plA ha, k.plB hb]
/-- A alone. -/
theorem reads_kA (f : Opd → Instr) (ha : a.plainOk u = true) (hf : fieldsOf (f a) = some (fieldsK h maj fn noOpd a noOpd noOpd 0))
    (hp : ∀ x : Fields, parse u h { x with maj := maj, fn := fn } = some (f (x.plA u))) : Reads u (f a) :=
  reads_k hf (by decide) fun x k => by rw [hp, k.plA ha]
/-- D alone. -/
theorem reads_kD (f : Opd → Instr) (hd : d.plainOk u = true) (hf : fieldsOf (f d) = some (fieldsK h maj fn d noOpd noOpd noOpd 0))
    (hp : ∀ x : Fields, parse u h { x with maj := maj, fn := fn } = some (f (x.plD u))) : Reads u (f d) :=
  reads_k hf (by decide) fun x k => by rw [hp, k.plD hd]

theorem reads_ofillAssay (d a : Nat) (hw : wf u (.ofillAssay h d a c) = true) : Reads u (.ofillAssay h d a c) :=
  reads_k rfl (by decide) fun x k => by
    rw [← k.plC (Bool.and_elim_right hw)]
    show some (Instr.ofillAssay h x.d x.a (x.plC u)) = _
    rw [k.numD, k.numA]
    rfl
theorem reads_accwr (hw : wf u (.accwr h a b c) = true) : Reads u (.accwr h a b c) := by
  change (_ && _ && _ && _) = true at hw
  simp only [Bool.and_eq_true, beq_iff_eq] at hw
  obtain ⟨⟨⟨rfl, ha⟩, hb⟩, hc⟩ := hw
  exact reads_k4 (fun _ => .accwr h) noOpd_plainOk ha hb hc rfl (by decide) fun _ _ => rfl
theorem reads_lqry (hw : wf u (.lqry h d a b) = true) : Reads u (.lqry h d a b) := by
  change (_ && _ && _ && _ && _ && _) = true at hw
  simp only [Bool.and_eq_true] at hw
  obtain ⟨⟨⟨⟨⟨hd, ha⟩, hb⟩, -⟩, -⟩, -⟩ := hw
  exact reads_k3 (.lqry h) hd ha hb rfl fun _ => rfl
theorem reads_kvx (a : Nat) (hw : wf u (.kvx h d a b c) = true) : Reads u (.kvx h d a b c) := by
  change (_ && _ && _ && _ && _ && _) = true at hw
  simp only [Bool.and_eq_true] at hw
  obtain ⟨⟨⟨⟨⟨-, hd⟩, -⟩, -⟩, hb⟩, hc⟩ := hw
  refine reads_k rfl (by decide) fun x k => ?_
  show some (Instr.kvx h (x.plD u) x.a (x.plB u) (x.plC u)) = _
  rw [k.plD hd, k.numA, k.plB hb, k.plC hc]
  rfl

/-! Words whose fields are numbers. -/

/-- Numbers in the register fields, and M. -/
theorem reads_n {d a b c m : Nat} (hf : fieldsOf i = some (fieldsN h maj fn d a b c m)) (hm : m < 2 ^ 16)
    (hp : ∀ x : Fields, Low x 16 m → parse u h { x with maj := maj, fn := fn, d := d, a := a, b := b, c := c } = some i) : Reads u i :=
  Reads.of hf rfl rfl (hp (fieldsN h maj fn d a b c m) ⟨Nat.mod_eq_of_lt hm⟩)

theorem reads_rep (sw : Bool) (sd sa sb sc : BitVec 2) (cnt : BitVec 6) : Reads u (.rep sw sd sa sb sc cnt) := by
  refine reads_n (h := ⟨sw, .em⟩) rfl (by omega) fun x l => ?_
  show some (Instr.rep sw (x.mb 6 2) (x.mb 8 2) (x.mb 10 2) (x.mb 12 2) (x.mb 0 6)) = _
  rw [l.mb sd (by decide) (by omega), l.mb sa (by decide) (by omega), l.mb sb (by decide) (by omega), l.mb sc (by decide) (by omega),
    l.mb cnt (by decide) (by omega)]

theorem reads_xiset (src : XiSrc) : Reads u (.xiset h src) := by
  cases src with
  | imm v =>
    refine reads_n rfl (by omega) fun x l => ?_
    show (if x.mt 8 then some (Instr.xiset h (.imm (x.mb 0 8))) else _) = _
    rw [l.mt true (by decide) (by simp; omega), if_pos rfl, l.mb v (by decide) (by omega)]
  | k n =>
    refine reads_n rfl (by decide) fun x l => ?_
    show (if x.mt 8 then _ else some (Instr.xiset h (.k n))) = _
    rw [l.mt false (by decide) (by decide), if_neg Bool.false_ne_true]

theorem reads_wcan (lvl : BitVec 2) (ka : Nat) : Reads u (.wcan h lvl ka) := by
  refine Reads.of rfl rfl rfl ?_
  show (if lvl.toNat < 4 then some (Instr.wcan h lvl.toNat ka) else none) = _
  rw [if_pos (by omega)]
  exact congrArg (some <| Instr.wcan h · ka) (BitVec.ofNat_toNat _ _ |>.trans (BitVec.setWidth_eq _))

theorem reads_bind (d a b c : Nat) : Reads u (.bind h d a b c) :=
  reads_n rfl (by decide) fun _ l => if_neg (ne_true_of_eq_false (l.mt false (by decide) (by decide)))
theorem reads_bindUn (a : Nat) : Reads u (.bindUn h a) :=
  reads_n rfl (by decide) fun _ l => if_pos (l.mt true (by decide) (by decide))
theorem reads_acq (tmo : BitVec 4) (sc : Scope) (a b : Nat) : Reads u (.acq h tmo sc a b) := by
  have hs := scope_lt sc
  refine reads_n rfl (by omega) fun x l => ?_
  show (Scope.ofCode (x.mb 3 3)).map (fun sc => Instr.acq h (x.mb 8 4) sc a b) = _
  rw [l.scope (sc := sc) (by decide) (by omega), l.mb tmo (by decide) (by omega)]
  rfl
theorem reads_rel (sc : Scope) (a : Nat) : Reads u (.rel h sc a) := by
  have hs := scope_lt sc
  refine reads_n rfl (by omega) fun x l => ?_
  show (Scope.ofCode (x.mb 3 3)).map (fun sc => Instr.rel h sc a) = _
  rw [l.scope (sc := sc) (by decide) (by omega)]
  rfl
theorem reads_fence (sc : Scope) : Reads u (.fence h sc) := by
  have hs := scope_lt sc
  refine reads_n rfl (by omega) fun x l => ?_
  show (Scope.ofCode (x.mb 3 3)).map (fun sc => Instr.fence h sc) = _
  rw [l.scope (sc := sc) (by decide) (by omega)]
  rfl
theorem reads_larr (sc : Scope) (d a b c : Nat) : Reads u (.larr h sc d a b c) := by
  have hs := scope_lt sc
  refine reads_n rfl (by omega) fun x l => ?_
  show (Scope.ofCode (x.mb 3 3)).map (fun sc => Instr.larr h sc d a b c) = _
  rw [l.scope (sc := sc) (by decide) (by omega)]
  rfl
theorem reads_xra (op : BitVec 3) (tmo : BitVec 4) (n1 : BitVec 6) (d a b c : Nat) : Reads u (.xra h op tmo n1 d a b c) := by
  refine reads_n rfl (by omega) fun x l => ?_
  show some (Instr.xra h (x.mb 9 3) (x.mb 12 4) (x.mb 0 6) d a b c) = _
  rw [l.mb op (by decide) (by omega), l.mb tmo (by decide) (by omega), l.mb n1 (by decide) (by omega)]

/-- A number of `w` bits at bit `k` of M, and nothing else to read there. -/
theorem reads_bits {w : Nat} {d a b c m : Nat} (f : BitVec w → Instr) (v : BitVec w) (k : Nat) (hk : k + w ≤ 16)
    (hf : fieldsOf (f v) = some (fieldsN h maj fn d a b c m)) (hm : m < 2 ^ 16) (hv : m / 2 ^ k % 2 ^ w = v.toNat)
    (hp : ∀ x : Fields, parse u h { x with maj := maj, fn := fn, d := d, a := a, b := b, c := c } = some (f (x.mb k w))) : Reads u (f v) :=
  reads_n hf hm fun x l => by rw [hp, l.mb v hk hv]
/-- The same for one bit. -/
theorem reads_bit {d a b c m : Nat} (f : Bool → Instr) (v : Bool) (k : Nat) (hk : k + 1 ≤ 16)
    (hf : fieldsOf (f v) = some (fieldsN h maj fn d a b c m)) (hm : m < 2 ^ 16) (hv : m / 2 ^ k % 2 = v.toNat)
    (hp : ∀ x : Fields, parse u h { x with maj := maj, fn := fn, d := d, a := a, b := b, c := c } = some (f (x.mt k))) : Reads u (f v) :=
  reads_n hf hm fun x l => by rw [hp, l.mt v hk hv]
/-- A bit at the low end of M. -/
theorem reads_flag {d a b c : Nat} (f : Bool → Instr) (v : Bool) (hf : fieldsOf (f v) = some (fieldsN h maj fn d a b c v.toNat))
    (hp : ∀ x : Fields, parse u h { x with maj := maj, fn := fn, d := d, a := a, b := b, c := c } = some (f (x.mt 0))) : Reads u (f v) := by
  have h1 := toNat_lt2 v
  exact reads_bit f v 0 (by decide) hf (by omega) (by omega) hp

theorem reads_orel (a : Nat) (n : BitVec 7) : Reads .acc (.orel h a n) := by
  refine reads_n rfl (by omega) fun x l => ?_
  show (if x.mt 7 then _ else some (Instr.orel h a (x.mb 0 7))) = _
  rw [l.mt false (by decide) (by simp; omega), if_neg Bool.false_ne_true, l.mb n (by decide) (by omega)]
theorem reads_orelRe (a : Nat) (n : BitVec 7) : Reads .acc (.orelRe h a n) := by
  refine reads_n rfl (by omega) fun x l => ?_
  show (if x.mt 7 then some (Instr.orelRe h a (x.mb 0 7)) else _) = _
  rw [l.mt true (by decide) (by simp; omega), if_pos rfl, l.mb n (by decide) (by omega)]
theorem reads_mma (fmt : BitVec 3) (mx : Bool) (d a b : Nat) : Reads .acc (.mma h fmt mx d a b) := by
  have h1 := toNat_lt2 mx
  refine reads_n rfl (by omega) fun x l => ?_
  show some (Instr.mma h (x.mb 2 3) (x.mt 0) d a b) = _
  rw [l.mb fmt (by decide) (by omega), l.mt mx (by decide) (by omega)]
theorem reads_mmas (pat : BitVec 2) (fmt : BitVec 3) (d a b c : Nat) : Reads .acc (.mmas h pat fmt d a b c) := by
  refine reads_n rfl (by omega) fun x l => ?_
  show some (Instr.mmas h (x.mb 5 2) (x.mb 2 3) d a b c) = _
  rw [l.mb pat (by decide) (by omega), l.mb fmt (by decide) (by omega)]
theorem reads_mmah (pv : Bool) (cnt1 : BitVec 6) (bit : BitVec 8) (hr fmt : BitVec 3) (fill mx : Bool) (d a b : Nat) :
    Reads .acc (.mmah h pv cnt1 bit hr fmt fill mx d a b) := by
  have h1 := toNat_lt2 mx
  have h2 := toNat_lt2 fill
  have hc : BitVec.ofNat 6 (pv.toNat * 128 + cnt1.toNat) = cnt1 := BitVec.eq_of_toNat_eq (by simp; omega)
  have hp : ((pv.toNat * 128 + cnt1.toNat) / 128 == 1) = pv := by
    rw [show (pv.toNat * 128 + cnt1.toNat) / 128 = pv.toNat by omega]
    cases pv <;> rfl
  refine reads_n rfl (by omega) fun x l => ?_
  show some (Instr.mmah h ((pv.toNat * 128 + cnt1.toNat) / 128 == 1) (BitVec.ofNat 6 (pv.toNat * 128 + cnt1.toNat)) (x.mb 8 8) (x.mb 5 3)
    (x.mb 2 3) (x.mt 1) (x.mt 0) d a b) = _
  rw [hp, hc, l.mb bit (by decide) (by omega), l.mb hr (by decide) (by omega), l.mb fmt (by decide) (by omega),
    l.mt fill (by decide) (by omega), l.mt mx (by decide) (by omega)]
theorem reads_assay (bit : BitVec 8) (hr : BitVec 3) (sink loc : Bool) (cnt1 : BitVec 3) (d a b c : Nat) :
    Reads .acc (.assay h bit hr sink loc cnt1 d a b c) := by
  have h1 := toNat_lt2 sink
  have h2 := toNat_lt2 loc
  refine reads_n rfl (by omega) fun x l => ?_
  show some (Instr.assay h (x.mb 8 8) (x.mb 5 3) (x.mt 4) (x.mt 3) (x.mb 0 3) d a b c) = _
  rw [l.mb bit (by decide) (by omega), l.mb hr (by decide) (by omega), l.mt sink (by decide) (by omega), l.mt loc (by decide) (by omega),
    l.mb cnt1 (by decide) (by omega)]
/-- Words on a run of hallmark bits. -/
theorem reads_hm {d a : Nat} (f : BitVec 8 → BitVec 8 → Instr) (lo n1 : BitVec 8)
    (hf : fieldsOf (f lo n1) = some (fieldsN h maj fn d a 0 0 (lo.toNat * 2 ^ 8 + n1.toNat)))
    (hp : ∀ x : Fields, parse u h { x with maj := maj, fn := fn, d := d, a := a, b := 0, c := 0 } = some (f (x.mb 8 8) (x.mb 0 8))) :
    Reads u (f lo n1) :=
  reads_n hf (by omega) fun x l => by rw [hp, l.mb lo (by decide) (by omega), l.mb n1 (by decide) (by omega)]

/-- A word of the control core alone. -/
theorem reads_onAcc (hw : wf u i = true) (hb : wf .bench i = false) (hr : Reads .acc i) : Reads u i := by
  cases u with
  | bench =>
    rw [hb] at hw
    cases hw
  | acc => exact hr

/-! The table: each instruction by the form of its word. -/

theorem reads_call (w : BitVec 32) (hw : wf u (.call h d w) = true) : Reads u (.call h d w) := by
  change (_ && _) = true at hw
  simp only [Bool.and_eq_true, Bool.not_eq_true'] at hw
  obtain ⟨hd, hk⟩ := hw
  refine Reads.of rfl rfl rfl ?_
  show some (Instr.call h (regOpd u false false d.num) (fieldsI h 0x05 0 d.num 0 w).imm32) = _
  rw [regOpd_plain hd hk.symm, imm32_fieldsI]

theorem reads_bra (w : BitVec 32) : Reads u (.bra h w) := by
  refine Reads.of rfl rfl rfl ?_
  show some (Instr.bra h (fieldsI h 0x02 0 0 0 w).imm32) = _
  rw [imm32_fieldsI]

theorem reads_brc (neg gf : Bool) (w : BitVec 32) : Reads u (.brc h neg gf w) := by
  refine Reads.of rfl rfl rfl ?_
  have hg : (gf.toNat == 1) = gf := by cases gf <;> rfl
  have hp : parse u h (fieldsI h 0x03 neg.toNat 0 gf.toNat w) =
      some (.brc h neg (gf.toNat == 1) (fieldsI h 0x03 neg.toNat 0 gf.toNat w).imm32) := by cases neg <;> rfl
  rw [hp, hg, imm32_fieldsI]

theorem reads_trap (code : BitVec 16) : Reads u (.trap h code) :=
  Reads.of rfl rfl rfl (congrArg (some <| Instr.trap h ·) ((BitVec.ofNat_toNat _ _).trans (BitVec.setWidth_eq _)))

/-- Every well-formed instruction is read from its fields. -/
theorem reads_of_wf (hw : wf u i = true) : Reads u i := by
  cases i with
  | nop h | exit h | tail h | yield h | tretReplay h | tretResume h | tplT h | tclr h => exact Reads.of (h := h) rfl rfl rfl rfl
  | rep sw sd sa sb sc cnt => exact reads_rep sw sd sa sb sc cnt
  | bra h w => exact reads_bra w
  | brc h neg gf w => exact reads_brc neg gf w
  | jmpi h a => exact reads_kA (.jmpi h) hw rfl fun _ => rfl
  | ret h a => exact reads_kA (.ret h) hw rfl fun _ => rfl
  | call h d w => exact reads_call w hw
  | join h tile => cases tile <;> exact Reads.of (h := h) rfl rfl rfl rfl
  | trap h code => exact reads_trap code
  | waitw h cd d a b c tmo scl sc => exact reads_waitw cd tmo scl sc hw
  | barArriveWait h n => exact reads_bits (.barArriveWait h) n 0 (by decide) rfl (by omega) (by omega) fun _ => rfl
  | barArrive h n => exact reads_bits (.barArrive h) n 0 (by decide) rfl (by omega) (by omega) fun _ => rfl
  | barWait h n => exact reads_bits (.barWait h) n 0 (by decide) rfl (by omega) (by omega) fun _ => rfl
  | rdsr h d r => exact reads_rdsr r hw
  | wrsr h r a => exact reads_wrsr r hw
  | ems sw kd => exact Reads.of (h := ⟨sw, .em⟩) rfl rfl rfl rfl
  | eml sw gf ka => exact reads_flag (h := ⟨sw, .em⟩) (.eml sw · ka) gf rfl fun _ => rfl
  | ema sw gf => exact reads_flag (h := ⟨sw, .em⟩) (.ema sw) gf rfl fun _ => rfl
  | emn sw gf => exact reads_flag (h := ⟨sw, .em⟩) (.emn sw) gf rfl fun _ => rfl
  | emo sw gf => exact reads_flag (h := ⟨sw, .em⟩) (.emo sw) gf rfl fun _ => rfl
  | cms sw p kd => exact reads_flag (h := ⟨sw, .em⟩) (.cms sw · kd) p rfl fun _ => rfl
  | cml sw p ka => exact reads_flag (h := ⟨sw, .em⟩) (.cml sw · ka) p rfl fun _ => rfl
  | cmx sw op ka => exact reads_bits (h := ⟨sw, .em⟩) (.cmx sw · ka) op 0 (by decide) rfl (by omega) (by omega) fun _ => rfl
  | part h sz => exact reads_bits (.part h) sz 0 (by decide) rfl (by omega) (by omega) fun _ => rfl
  | xiset h src => exact reads_xiset src
  | wcan h lvl ka => exact reads_wcan lvl ka
  | lnch h | movwWrite h | movwRead h | scatAddF32 h | scatAddI32 h | scatMin h | scatMax h | scatOr h | publ h => exact Reads.of (h := h) rfl rfl rfl rfl
  | pfxh h | pfxm h | pfxpPin h | pfxpUnpin h | pfxpInsert h | wqpop h | rnext h | xrc h | xrw h | xrf h => exact Reads.of (h := h) rfl rfl rfl rfl
  -- integer
  | iadd h d a b => exact reads_x3 (.iadd h) hw rfl fun _ => rfl
  | iaddc h d a b => exact reads_x3 (.iaddc h) hw rfl fun _ => rfl
  | isub h d a b => exact reads_x3 (.isub h) hw rfl fun _ => rfl
  | isubb h d a b => exact reads_x3 (.isubb h) hw rfl fun _ => rfl
  | imul h d a b => exact reads_x3 (.imul h) hw rfl fun _ => rfl
  | imulh h d a b => exact reads_x3 (.imulh h) hw rfl fun _ => rfl
  | imulhN h d a b => exact reads_x3 (.imulhN h) hw rfl fun _ => rfl
  | imad h d a b c => exact reads_x4 (.imad h) hw (by decide) rfl fun _ _ => rfl
  | imin h nat d a b => exact reads_x3 (.imin h nat) hw rfl fun _ => by cases nat <;> rfl
  | imax h nat d a b => exact reads_x3 (.imax h nat) hw rfl fun _ => by cases nat <;> rfl
  | iabs h d a => exact reads_x2 (.iabs h) hw (by decide) rfl fun _ _ => rfl
  | ineg h d a => exact reads_x2 (.ineg h) hw (by decide) rfl fun _ _ => rfl
  | idiv h d a b => exact reads_x3 (.idiv h) hw rfl fun _ => rfl
  | idivN h d a b => exact reads_x3 (.idivN h) hw rfl fun _ => rfl
  | irem h d a b => exact reads_x3 (.irem h) hw rfl fun _ => rfl
  | iremN h d a b => exact reads_x3 (.iremN h) hw rfl fun _ => rfl
  | and h d a b => exact reads_x3 (.and h) hw rfl fun _ => rfl
  | or h d a b => exact reads_x3 (.or h) hw rfl fun _ => rfl
  | xor h d a b => exact reads_x3 (.xor h) hw rfl fun _ => rfl
  | andn h d a b => exact reads_x3 (.andn h) hw rfl fun _ => rfl
  | not h d a => exact reads_x2 (.not h) hw (by decide) rfl fun _ _ => rfl
  | shl h d a b => exact reads_x3 (.shl h) hw rfl fun _ => rfl
  | shr h d a b => exact reads_x3 (.shr h) hw rfl fun _ => rfl
  | sar h d a b => exact reads_x3 (.sar h) hw rfl fun _ => rfl
  | rot h d a b => exact reads_x3 (.rot h) hw rfl fun _ => rfl
  | bfx h sg d a b => exact reads_x3 (.bfx h sg) hw rfl fun _ => by cases sg <;> rfl
  | bfi h d a b c => exact reads_x4 (.bfi h) hw (by decide) rfl fun _ _ => rfl
  | popc h d a => exact reads_x2 (.popc h) hw (by decide) rfl fun _ _ => rfl
  | clz h d a => exact reads_x2 (.clz h) hw (by decide) rfl fun _ _ => rfl
  | brev h d a => exact reads_x2 (.brev h) hw (by decide) rfl fun _ _ => rfl
  | sel h d a b => exact reads_x3r (.sel h) hw rfl fun _ l => if_neg (ne_true_of_eq_false (l.mt false (by decide) (by decide)))
  | selZ h d a b c => exact reads_x4 (.selZ h) hw (by decide) rfl fun _ l => if_pos (l.mt true (by decide) (by decide))
  | iset h q d a b => exact reads_iset q d hw
  | mov h d a => exact reads_x2 (.mov h) hw (by decide) rfl fun _ _ => rfl
  | movi h d tag v => exact reads_movi tag v hw
  | retag h tag d a =>
    exact reads_x2 (.retag h tag) (Bool.and_elim_left hw) (by omega) rfl fun x l => by
      rw [← l.mb (k := 0) tag (by decide) (by omega)]
      rfl
  | cadd h d a b => exact reads_x3 (.cadd h) (Bool.and_elim_left (Bool.and_elim_left hw)) rfl fun _ => rfl
  | cmk h d a => exact reads_x2 (.cmk h) (Bool.and_elim_left hw) (by decide) rfl fun _ _ => rfl
  | clen h d a => exact reads_x2 (.clen h) (Bool.and_elim_left (Bool.and_elim_left hw)) (by decide) rfl fun _ _ => rfl
  | crst h d a b => exact reads_x3r (.crst h) (Bool.and_elim_left (Bool.and_elim_left hw)) rfl fun _ _ => rfl
  -- floating
  | fadd h r d a b => exact reads_x3r (.fadd h r) (Bool.and_elim_right hw) rfl fun _ _ => by cases r <;> rfl
  | fsub h r d a b => exact reads_x3r (.fsub h r) (Bool.and_elim_right hw) rfl fun _ _ => by cases r <;> rfl
  | fmul h r d a b => exact reads_x3r (.fmul h r) (Bool.and_elim_right hw) rfl fun _ _ => by cases r <;> rfl
  | ffma h r d a b c => exact reads_x4 (.ffma h r) (Bool.and_elim_right hw) (by decide) rfl fun _ _ => by cases r <;> rfl
  | fmin h d a b => exact reads_x3r (.fmin h) (Bool.and_elim_right hw) rfl fun _ _ => rfl
  | fmax h d a b => exact reads_x3r (.fmax h) (Bool.and_elim_right hw) rfl fun _ _ => rfl
  | fminm h d a b => exact reads_x3r (.fminm h) (Bool.and_elim_right hw) rfl fun _ _ => rfl
  | fmaxm h d a b => exact reads_x3r (.fmaxm h) (Bool.and_elim_right hw) rfl fun _ _ => rfl
  | fset h q d a b => exact reads_fset q d hw
  | fclass h d a => exact reads_x2 (.fclass h) (Bool.and_elim_right hw) (by decide) rfl fun _ _ => rfl
  | frnd h r y d a => exact reads_round (.frnd h) r y (Bool.and_elim_right hw) rfl fun _ => by cases r <;> rfl
  | f2i h r y d a => exact reads_round (.f2i h) r y (Bool.and_elim_right hw) rfl fun _ => by cases r <;> rfl
  | i2f h r y d a => exact reads_round (.i2f h) r y (Bool.and_elim_right hw) rfl fun _ => by cases r <;> rfl
  | fpk h r d a b => exact reads_x3r (.fpk h r) (Bool.and_elim_right hw) rfl fun _ _ => by cases r <;> rfl
  | fupk h hi d a => exact reads_x2 (.fupk h hi) (Bool.and_elim_right hw) (by decide) rfl fun _ _ => by cases hi <;> rfl
  | badd2 h r d a b => exact reads_x3r (.badd2 h r) (Bool.and_elim_right hw) rfl fun _ _ => by cases r <;> rfl
  | bmul2 h r d a b => exact reads_x3r (.bmul2 h r) (Bool.and_elim_right hw) rfl fun _ _ => by cases r <;> rfl
  | bfma2 h r d a b c => exact reads_x4 (.bfma2 h r) (Bool.and_elim_right hw) (by decide) rfl fun _ _ => by cases r <;> rfl
  | bmin2 h d a b => exact reads_x3r (.bmin2 h) (Bool.and_elim_right hw) rfl fun _ _ => rfl
  | bmax2 h d a b => exact reads_x3r (.bmax2 h) (Bool.and_elim_right hw) rfl fun _ _ => rfl
  | ftwos h d a b => exact reads_x3r (.ftwos h) (Bool.and_elim_right (Bool.and_elim_left hw)) rfl fun _ _ => rfl
  | ftwop h d a b => exact reads_x3r (.ftwop h) (Bool.and_elim_right (Bool.and_elim_left hw)) rfl fun _ _ => rfl
  | frcp h d a => exact reads_x2 (.frcp h) (Bool.and_elim_right hw) (by decide) rfl fun _ _ => rfl
  | frsq h d a => exact reads_x2 (.frsq h) (Bool.and_elim_right hw) (by decide) rfl fun _ _ => rfl
  | fsqrt h d a => exact reads_x2 (.fsqrt h) (Bool.and_elim_right hw) (by decide) rfl fun _ _ => rfl
  | fexp2 h d a => exact reads_x2 (.fexp2 h) (Bool.and_elim_right hw) (by decide) rfl fun _ _ => rfl
  | flog2 h d a => exact reads_x2 (.flog2 h) (Bool.and_elim_right hw) (by decide) rfl fun _ _ => rfl
  | fsint h d a => exact reads_x2 (.fsint h) (Bool.and_elim_right hw) (by decide) rfl fun _ _ => rfl
  | fcost h d a => exact reads_x2 (.fcost h) (Bool.and_elim_right hw) (by decide) rfl fun _ _ => rfl
  | ftanh h d a => exact reads_x2 (.ftanh h) (Bool.and_elim_right hw) (by decide) rfl fun _ _ => rfl
  | rota h d a b => exact reads_x3r (.rota h) (Bool.and_elim_right hw) rfl fun _ _ => rfl
  | fdiv h r d a b => exact reads_x3r (.fdiv h r) (Bool.and_elim_right hw) rfl fun _ _ => by cases r <;> rfl
  -- cross-lane
  | shflIdx h d a b => exact reads_x3r (.shflIdx h) (Bool.and_elim_right (Bool.and_elim_left (Bool.and_elim_left hw))) rfl fun _ _ => rfl
  | shflUp h d a b => exact reads_x3r (.shflUp h) (Bool.and_elim_right (Bool.and_elim_left (Bool.and_elim_left hw))) rfl fun _ _ => rfl
  | shflDown h d a b => exact reads_x3r (.shflDown h) (Bool.and_elim_right (Bool.and_elim_left (Bool.and_elim_left hw))) rfl fun _ _ => rfl
  | shflXor h d a b => exact reads_x3r (.shflXor h) (Bool.and_elim_right (Bool.and_elim_left (Bool.and_elim_left hw))) rfl fun _ _ => rfl
  | pswp h n d a =>
    have h2 : wf2 u d a = true := Bool.and_elim_right (Bool.and_elim_left (Bool.and_elim_left hw))
    cases n with
    | plain => exact reads_x2 (.pswp h .plain) h2 (by decide) rfl fun _ _ => rfl
    | lo => exact reads_x2 (.pswp h .lo) h2 (by decide) rfl fun _ _ => rfl
    | hi => exact reads_x2 (.pswp h .hi) h2 (by decide) rfl fun _ _ => rfl
  | voteAny h cmw d a => exact reads_x2b (.voteAny h) cmw (Bool.and_elim_right (Bool.and_elim_left hw)) rfl fun _ => rfl
  | voteAll h cmw d a => exact reads_x2b (.voteAll h) cmw (Bool.and_elim_right (Bool.and_elim_left hw)) rfl fun _ => rfl
  | voteBallot h d a => exact reads_x2 (.voteBallot h) (Bool.and_elim_right (Bool.and_elim_left hw)) (by decide) rfl fun _ _ => rfl
  | reduxAddI32 h d a => exact reads_x2 (.reduxAddI32 h) (Bool.and_elim_right (Bool.and_elim_left hw)) (by decide) rfl fun _ _ => rfl
  | reduxAddF32 h d a => exact reads_x2 (.reduxAddF32 h) (Bool.and_elim_right (Bool.and_elim_left hw)) (by decide) rfl fun _ _ => rfl
  | reduxMin h d a => exact reads_x2 (.reduxMin h) (Bool.and_elim_right (Bool.and_elim_left hw)) (by decide) rfl fun _ _ => rfl
  | reduxMax h d a => exact reads_x2 (.reduxMax h) (Bool.and_elim_right (Bool.and_elim_left hw)) (by decide) rfl fun _ _ => rfl
  | reduxMinN h d a => exact reads_x2 (.reduxMinN h) (Bool.and_elim_right (Bool.and_elim_left hw)) (by decide) rfl fun _ _ => rfl
  | reduxMaxN h d a => exact reads_x2 (.reduxMaxN h) (Bool.and_elim_right (Bool.and_elim_left hw)) (by decide) rfl fun _ _ => rfl
  | reduxFmin h d a => exact reads_x2 (.reduxFmin h) (Bool.and_elim_right (Bool.and_elim_left hw)) (by decide) rfl fun _ _ => rfl
  | reduxFmax h d a => exact reads_x2 (.reduxFmax h) (Bool.and_elim_right (Bool.and_elim_left hw)) (by decide) rfl fun _ _ => rfl
  | reduxAnd h d a => exact reads_x2 (.reduxAnd h) (Bool.and_elim_right (Bool.and_elim_left hw)) (by decide) rfl fun _ _ => rfl
  | reduxOr h d a => exact reads_x2 (.reduxOr h) (Bool.and_elim_right (Bool.and_elim_left hw)) (by decide) rfl fun _ _ => rfl
  | reduxXor h d a => exact reads_x2 (.reduxXor h) (Bool.and_elim_right (Bool.and_elim_left hw)) (by decide) rfl fun _ _ => rfl
  | scan h ex o d a => exact reads_scan ex o hw
  | rdln h tile d => exact reads_rdln tile hw
  -- loads, stores, plates
  | ld h scl lim pred conv d a b c => exact reads_ld scl lim pred conv c hw
  | ldStrong h scl sc conv d a b => exact reads_ldStrong scl sc conv hw
  | ldk h scl mode conv d a b c => exact reads_ldk scl mode conv c hw
  | st h scl acc ns conv a b c => exact reads_st scl acc ns conv hw
  | stStrong h scl sc acc ns conv a b c => exact reads_stStrong' scl sc acc ns conv hw
  | stk h scl mode acc ns conv a b c => exact reads_stk scl mode acc ns conv hw
  | ldh h scl conv d a b => exact reads_ldh (.ldh h) scl conv hw rfl fun _ => rfl
  | ldhWf h scl conv d a b => exact reads_ldh (.ldhWf h) scl conv hw rfl fun _ => rfl
  | ldhWfe h scl conv d a b => exact reads_ldh (.ldhWfe h) scl conv hw rfl fun _ => rfl
  | sth h scl acc conv a b c => exact reads_sth (.sth h) scl acc conv hw rfl fun _ => rfl
  | sthSf h scl acc conv a b c => exact reads_sth (.sthSf h) scl acc conv hw rfl fun _ => rfl
  | sthWesf h scl acc conv a b c => exact reads_sth (.sthWesf h) scl acc conv hw rfl fun _ => rfl
  | smap h n a b c => exact reads_bits (.smap h · a b c) n 0 (by decide) rfl (by omega) (by omega) fun _ => rfl
  | sunmap h n => exact reads_bits (.sunmap h) n 0 (by decide) rfl (by omega) (by omega) fun _ => rfl
  | sflush h n => exact reads_bits (.sflush h) n 0 (by decide) rfl (by omega) (by omega) fun _ => rfl
  | tpl h a => exact reads_kA (.tpl h) (Bool.and_elim_right hw) rfl fun _ => rfl
  | acpt h d => exact reads_kD (.acpt h) (Bool.and_elim_right hw) rfl fun _ => rfl
  | redem h d => exact reads_kD (.redem h) (Bool.and_elim_right hw) rfl fun _ => rfl
  | pft h scl lim lvl line a b => exact reads_pft scl lim lvl line hw
  | gath h esz d a b c => exact reads_bits (.gath h · d a b c) esz 6 (by decide) rfl (by omega) (by omega) fun _ => rfl
  -- atomics and synchronisation
  | atAdd h sc scl ty d a b c => exact reads_at (.atAdd h) sc scl ty hw rfl fun _ => rfl
  | atMin h sc scl ty d a b c => exact reads_at (.atMin h) sc scl ty hw rfl fun _ => rfl
  | atMax h sc scl ty d a b c => exact reads_at (.atMax h) sc scl ty hw rfl fun _ => rfl
  | atAnd h sc scl ty d a b c => exact reads_at (.atAnd h) sc scl ty hw rfl fun _ => rfl
  | atOr h sc scl ty d a b c => exact reads_at (.atOr h) sc scl ty hw rfl fun _ => rfl
  | atXor h sc scl ty d a b c => exact reads_at (.atXor h) sc scl ty hw rfl fun _ => rfl
  | atExch h sc scl ty d a b c => exact reads_at (.atExch h) sc scl ty hw rfl fun _ => rfl
  | atCas h sc scl ty d a b c => exact reads_at (.atCas h) sc scl ty hw rfl fun _ => rfl
  | redAdd h sc scl ty a b c => exact reads_red (.redAdd h) sc scl ty hw rfl fun _ => rfl
  | redMin h sc scl ty a b c => exact reads_red (.redMin h) sc scl ty hw rfl fun _ => rfl
  | redMax h sc scl ty a b c => exact reads_red (.redMax h) sc scl ty hw rfl fun _ => rfl
  | redAnd h sc scl ty a b c => exact reads_red (.redAnd h) sc scl ty hw rfl fun _ => rfl
  | redOr h sc scl ty a b c => exact reads_red (.redOr h) sc scl ty hw rfl fun _ => rfl
  | redXor h sc scl ty a b c => exact reads_red (.redXor h) sc scl ty hw rfl fun _ => rfl
  | bind h d a b c => exact reads_bind d a b c
  | bindUn h a => exact reads_bindUn a
  | acq h tmo sc a b => exact reads_acq tmo sc a b
  | rel h sc a => exact reads_rel sc a
  | fence h sc => exact reads_fence sc
  -- tarnish
  | tld h scl conv d a b => exact reads_tld scl conv hw
  | tst h scl acc conv a b c => exact reads_tst scl acc conv hw
  | burn h scl a b => exact reads_tarn (.burn h) scl hw rfl fun _ => rfl
  | life h scl d a b => exact reads_life scl hw
  | tinit h scl a b => exact reads_tarn (.tinit h) scl hw rfl fun _ => rfl
  -- the bench side of the Anvil
  | ofill h rf ns sb conv d a b c => exact reads_ofill rf ns sb conv d hw
  | ofillAssay h d a c => exact reads_ofillAssay d a hw
  | awset h w a b => exact reads_bits (.awset h · a b) w 0 (by decide) rfl (by omega) (by omega) fun _ => rfl
  | accrd h d a b =>
    exact reads_k3 (.accrd h) (Bool.and_elim_right (Bool.and_elim_left (Bool.and_elim_left hw))) (Bool.and_elim_right (Bool.and_elim_left hw))
      (Bool.and_elim_right hw) rfl fun _ => rfl
  | accrdW h d a b =>
    exact reads_k3 (.accrdW h) (Bool.and_elim_right (Bool.and_elim_left (Bool.and_elim_left hw))) (Bool.and_elim_right (Bool.and_elim_left hw))
      (Bool.and_elim_right hw) rfl fun _ => rfl
  | accwr h a b c => exact reads_accwr hw
  | accrel h a => exact reads_kA (.accrel h) (Bool.and_elim_right hw) rfl fun _ => rfl
  -- models, KV caches, rings, fabric
  | lwait h tmo d a b => exact reads_lwait tmo hw
  | ldone h a b =>
    exact reads_kAB (.ldone h) (Bool.and_elim_left (Bool.and_elim_left (Bool.and_elim_left hw)))
      (Bool.and_elim_right (Bool.and_elim_left (Bool.and_elim_left hw))) rfl fun _ => rfl
  | lqry h d a b => exact reads_lqry hw
  | kvx h d a b c => exact reads_kvx a hw
  | larr h sc d a b c => exact reads_larr sc d a b c
  | xra h op tmo n1 d a b c => exact reads_xra op tmo n1 d a b c
  -- the control core and the array
  | oclm h d n => exact reads_onAcc hw rfl (reads_bits (.oclm h d) n 0 (by decide) rfl (by omega) (by omega) fun _ => rfl)
  | orel h a n => exact reads_onAcc hw rfl (reads_orel a n)
  | orelRe h a n => exact reads_onAcc hw rfl (reads_orelRe a n)
  | owait h a n => exact reads_onAcc hw rfl (reads_bits (.owait h a) n 0 (by decide) rfl (by omega) (by omega) fun _ => rfl)
  | mma h fmt mx d a b => exact reads_onAcc hw rfl (reads_mma fmt mx d a b)
  | mmas h pat fmt d a b c => exact reads_onAcc hw rfl (reads_mmas pat fmt d a b c)
  | mmah h pv cnt1 bit hr fmt fill mx d a b => exact reads_onAcc hw rfl (reads_mmah pv cnt1 bit hr fmt fill mx d a b)
  | assay h bit hr sink loc cnt1 d a b c => exact reads_onAcc hw rfl (reads_assay bit hr sink loc cnt1 d a b c)
  | hmopAnd h | hmopOr h | hmopAndn h | accz h | accsig h => exact reads_onAcc hw rfl (Reads.of (h := h) rfl rfl rfl rfl)
  | hmopSet h d lo n1 => exact reads_onAcc hw rfl (reads_hm (.hmopSet h d) lo n1 rfl fun _ => rfl)
  | hmopClear h d lo n1 => exact reads_onAcc hw rfl (reads_hm (.hmopClear h d) lo n1 rfl fun _ => rfl)
  | hmopCount h d a lo n1 => exact reads_onAcc hw rfl (reads_hm (.hmopCount h d a) lo n1 rfl fun _ => rfl)
  | _ => exact Reads.none rfl

/-! ### Ranges -/

/-- The fields of every instruction but its register numbers fit their places (R40). -/
theorem encoded_bounded (i : Instr) : Encoded.Statement i := by
  cases i with
  | nop => apply Encoded.nop
  | rep => apply Encoded.rep
  | bra => apply Encoded.bra
  | brc => apply Encoded.brc
  | jmpi => apply Encoded.jmpi
  | call => apply Encoded.call
  | ret => apply Encoded.ret
  | join => apply Encoded.join
  | exit => apply Encoded.exit
  | tail => apply Encoded.tail
  | yield => apply Encoded.yield
  | trap => apply Encoded.trap
  | tretReplay => apply Encoded.tretReplay
  | tretResume => apply Encoded.tretResume
  | waitw => apply Encoded.waitw
  | barArriveWait => apply Encoded.barArriveWait
  | barArrive => apply Encoded.barArrive
  | barWait => apply Encoded.barWait
  | rdsr => apply Encoded.rdsr
  | wrsr => apply Encoded.wrsr
  | ems => apply Encoded.ems
  | eml => apply Encoded.eml
  | ema => apply Encoded.ema
  | emn => apply Encoded.emn
  | emo => apply Encoded.emo
  | cms => apply Encoded.cms
  | cml => apply Encoded.cml
  | cmx => apply Encoded.cmx
  | part => apply Encoded.part
  | xiset => apply Encoded.xiset
  | lnch => apply Encoded.lnch
  | wcan => apply Encoded.wcan
  | movwWrite => apply Encoded.movwWrite
  | movwRead => apply Encoded.movwRead
  | iadd => apply Encoded.iadd
  | iaddc => apply Encoded.iaddc
  | isub => apply Encoded.isub
  | isubb => apply Encoded.isubb
  | imul => apply Encoded.imul
  | imulh => apply Encoded.imulh
  | imulhN => apply Encoded.imulhN
  | imad => apply Encoded.imad
  | imin => apply Encoded.imin
  | imax => apply Encoded.imax
  | iabs => apply Encoded.iabs
  | ineg => apply Encoded.ineg
  | idiv => apply Encoded.idiv
  | idivN => apply Encoded.idivN
  | irem => apply Encoded.irem
  | iremN => apply Encoded.iremN
  | and => apply Encoded.and
  | or => apply Encoded.or
  | xor => apply Encoded.xor
  | andn => apply Encoded.andn
  | not => apply Encoded.not
  | shl => apply Encoded.shl
  | shr => apply Encoded.shr
  | sar => apply Encoded.sar
  | rot => apply Encoded.rot
  | bfx => apply Encoded.bfx
  | bfi => apply Encoded.bfi
  | popc => apply Encoded.popc
  | clz => apply Encoded.clz
  | brev => apply Encoded.brev
  | sel => apply Encoded.sel
  | selZ => apply Encoded.selZ
  | iset => apply Encoded.iset
  | mov => apply Encoded.mov
  | movi => apply Encoded.movi
  | retag => apply Encoded.retag
  | cadd => apply Encoded.cadd
  | cmk => apply Encoded.cmk
  | clen => apply Encoded.clen
  | crst => apply Encoded.crst
  | fadd => apply Encoded.fadd
  | fsub => apply Encoded.fsub
  | fmul => apply Encoded.fmul
  | ffma => apply Encoded.ffma
  | fmin => apply Encoded.fmin
  | fmax => apply Encoded.fmax
  | fminm => apply Encoded.fminm
  | fmaxm => apply Encoded.fmaxm
  | fset => apply Encoded.fset
  | fclass => apply Encoded.fclass
  | frnd => apply Encoded.frnd
  | f2i => apply Encoded.f2i
  | i2f => apply Encoded.i2f
  | fpk => apply Encoded.fpk
  | fupk => apply Encoded.fupk
  | badd2 => apply Encoded.badd2
  | bmul2 => apply Encoded.bmul2
  | bfma2 => apply Encoded.bfma2
  | bmin2 => apply Encoded.bmin2
  | bmax2 => apply Encoded.bmax2
  | ftwos => apply Encoded.ftwos
  | ftwop => apply Encoded.ftwop
  | frcp => apply Encoded.frcp
  | frsq => apply Encoded.frsq
  | fsqrt => apply Encoded.fsqrt
  | fexp2 => apply Encoded.fexp2
  | flog2 => apply Encoded.flog2
  | fsint => apply Encoded.fsint
  | fcost => apply Encoded.fcost
  | ftanh => apply Encoded.ftanh
  | rota => apply Encoded.rota
  | fdiv => apply Encoded.fdiv
  | shflIdx => apply Encoded.shflIdx
  | shflUp => apply Encoded.shflUp
  | shflDown => apply Encoded.shflDown
  | shflXor => apply Encoded.shflXor
  | pswp => apply Encoded.pswp
  | voteAny => apply Encoded.voteAny
  | voteAll => apply Encoded.voteAll
  | voteBallot => apply Encoded.voteBallot
  | reduxAddI32 => apply Encoded.reduxAddI32
  | reduxAddF32 => apply Encoded.reduxAddF32
  | reduxMin => apply Encoded.reduxMin
  | reduxMax => apply Encoded.reduxMax
  | reduxMinN => apply Encoded.reduxMinN
  | reduxMaxN => apply Encoded.reduxMaxN
  | reduxFmin => apply Encoded.reduxFmin
  | reduxFmax => apply Encoded.reduxFmax
  | reduxAnd => apply Encoded.reduxAnd
  | reduxOr => apply Encoded.reduxOr
  | reduxXor => apply Encoded.reduxXor
  | scan => apply Encoded.scan
  | rdln => apply Encoded.rdln
  | ld => apply Encoded.ld
  | ldStrong => apply Encoded.ldStrong
  | ldk => apply Encoded.ldk
  | st => apply Encoded.st
  | stStrong => apply Encoded.stStrong
  | stk => apply Encoded.stk
  | ldh => apply Encoded.ldh
  | ldhWf => apply Encoded.ldhWf
  | ldhWfe => apply Encoded.ldhWfe
  | sth => apply Encoded.sth
  | sthSf => apply Encoded.sthSf
  | sthWesf => apply Encoded.sthWesf
  | smap => apply Encoded.smap
  | sunmap => apply Encoded.sunmap
  | sflush => apply Encoded.sflush
  | tpl => apply Encoded.tpl
  | tplT => apply Encoded.tplT
  | acpt => apply Encoded.acpt
  | redem => apply Encoded.redem
  | pft => apply Encoded.pft
  | gath => apply Encoded.gath
  | scatAddF32 => apply Encoded.scatAddF32
  | scatAddI32 => apply Encoded.scatAddI32
  | scatMin => apply Encoded.scatMin
  | scatMax => apply Encoded.scatMax
  | scatOr => apply Encoded.scatOr
  | tclr => apply Encoded.tclr
  | atAdd => apply Encoded.atAdd
  | atMin => apply Encoded.atMin
  | atMax => apply Encoded.atMax
  | atAnd => apply Encoded.atAnd
  | atOr => apply Encoded.atOr
  | atXor => apply Encoded.atXor
  | atExch => apply Encoded.atExch
  | atCas => apply Encoded.atCas
  | redAdd => apply Encoded.redAdd
  | redMin => apply Encoded.redMin
  | redMax => apply Encoded.redMax
  | redAnd => apply Encoded.redAnd
  | redOr => apply Encoded.redOr
  | redXor => apply Encoded.redXor
  | bind => apply Encoded.bind
  | bindUn => apply Encoded.bindUn
  | acq => apply Encoded.acq
  | rel => apply Encoded.rel
  | fence => apply Encoded.fence
  | publ => apply Encoded.publ
  | tld => apply Encoded.tld
  | tst => apply Encoded.tst
  | burn => apply Encoded.burn
  | life => apply Encoded.life
  | tinit => apply Encoded.tinit
  | ofill => apply Encoded.ofill
  | ofillAssay => apply Encoded.ofillAssay
  | awset => apply Encoded.awset
  | accrd => apply Encoded.accrd
  | accrdW => apply Encoded.accrdW
  | accwr => apply Encoded.accwr
  | accrel => apply Encoded.accrel
  | lwait => apply Encoded.lwait
  | ldone => apply Encoded.ldone
  | lqry => apply Encoded.lqry
  | kvx => apply Encoded.kvx
  | pfxh => apply Encoded.pfxh
  | pfxm => apply Encoded.pfxm
  | pfxpPin => apply Encoded.pfxpPin
  | pfxpUnpin => apply Encoded.pfxpUnpin
  | pfxpInsert => apply Encoded.pfxpInsert
  | wqpop => apply Encoded.wqpop
  | larr => apply Encoded.larr
  | rnext => apply Encoded.rnext
  | xra => apply Encoded.xra
  | xrc => apply Encoded.xrc
  | xrw => apply Encoded.xrw
  | xrf => apply Encoded.xrf
  | oclm => apply Encoded.oclm
  | orel => apply Encoded.orel
  | orelRe => apply Encoded.orelRe
  | owait => apply Encoded.owait
  | mma => apply Encoded.mma
  | mmas => apply Encoded.mmas
  | mmah => apply Encoded.mmah
  | assay => apply Encoded.assay
  | hmopAnd => apply Encoded.hmopAnd
  | hmopOr => apply Encoded.hmopOr
  | hmopAndn => apply Encoded.hmopAndn
  | hmopSet => apply Encoded.hmopSet
  | hmopClear => apply Encoded.hmopClear
  | hmopCount => apply Encoded.hmopCount
  | accz => apply Encoded.accz
  | accsig => apply Encoded.accsig
  | _ => exact Encoded.ofNone rfl

theorem decodeFields_eq {g : Guard} (hg : Guard.ofCode x.g = some g) (hp : parse u ⟨x.sw, g⟩ x = some i) (hw : wf u i = true)
    (hf : fieldsOf i = some x) : decodeFields u x = .ok i := by
  unfold decodeFields
  simp only [hg, hp, hw, hf, Bool.not_true, Bool.false_eq_true, if_false, if_true]

theorem decode_full {w : Nat} (h62 : w / 2 ^ 62 % 2 = 0) : decode u w = decodeFields u (Fields.ofWord w) := by
  unfold decode
  rw [if_neg (by omega)]

/-- A full word is decoded to the instruction that it is the word of. -/
theorem decode_pack (hw : wf u i = true) (hf : fieldsOf i = some x) (hx : x.fits = true) : decode u x.pack = .ok i := by
  have hb := encoded_bounded i x hf
  obtain ⟨g, hg, hp⟩ := reads_of_wf hw x hf
  rw [decode_full (pack_full hb hx).2, ofWord_pack hb hx]
  exact decodeFields_eq hg hp hw hf

/-! ### Pair words -/

variable {p q : Half}

theorem halfOp_lt (o : HalfOp) : o.code < 64 := by cases o <;> decide

/-- The operands of a well-formed half are of its unit and fit their fields; those of a NOP are none. -/
theorem half_args_ok (hp : p.ok u = true) : p.args.ok u = true := by
  unfold Half.ok at hp
  split at hp
  · rw [eq_of_beq hp]
    cases u <;> rfl
  · exact Bool.and_elim_left hp

/-- The bits of the second source (R47). -/
def srcBits : HalfSrc → Nat
  | .v n => n * 2 ^ 9
  | .k n => n * 2 ^ 9 + 2 ^ 8
  | .g n => n * 2 ^ 9
  | .imm v => 2 ^ 7 + v.toNat
/-- The second source that stands in the low bits of a half. -/
def srcOf (u : Core) (x : Nat) : HalfSrc :=
  if x / 2 ^ 7 % 2 = 1 then .imm (BitVec.ofNat 7 x)
  else match u with
    | .acc => .g (x / 2 ^ 9 % 256)
    | .bench => if x / 2 ^ 8 % 2 = 1 then .k (x / 2 ^ 9 % 256) else .v (x / 2 ^ 9 % 256)

theorem half_bits_eq (p : Half) : p.bits = p.op.code * 2 ^ 25 + p.args.d * 2 ^ 17 + srcBits p.args.src := by
  obtain ⟨op, core, d, src⟩ := p
  cases src <;> rfl
theorem half_ofBits_eq (u : Core) (x : Nat) : Half.ofBits u x = (HalfOp.ofCode (x / 2 ^ 25 % 64)).map fun op =>
    { op := op, args := { core := u == .acc, d := x / 2 ^ 17 % 256, src := srcOf u x } } := by
  cases u <;> rfl

theorem halfArgs_d_lt {y : HalfArgs} (hy : y.ok u = true) : y.core = (u == .acc) ∧ y.d < 256 := by
  simp only [HalfArgs.ok, Bool.and_eq_true, decide_eq_true_eq, beq_iff_eq] at hy
  obtain ⟨⟨hc, hd⟩, -⟩ := hy
  exact ⟨hc, by split at hd <;> omega⟩

theorem srcBits_lt {y : HalfArgs} (hy : y.ok u = true) : srcBits y.src < 2 ^ 17 := by
  obtain ⟨core, d, src⟩ := y
  have hs := Bool.and_elim_right hy
  cases src <;> simp only [Bool.and_eq_true, decide_eq_true_eq] at hs <;> simp only [srcBits] <;> omega

theorem srcOf_bits {y : HalfArgs} (hy : y.ok u = true) {n : Nat} (hn : n % 2 ^ 17 = srcBits y.src) : srcOf u n = y.src := by
  obtain ⟨core, d, src⟩ := y
  have hs := Bool.and_elim_right hy
  unfold srcOf
  cases src with
  | v r =>
    simp only [Bool.and_eq_true, beq_iff_eq, decide_eq_true_eq] at hs
    obtain ⟨rfl, hr⟩ := hs
    simp only [srcBits] at hn
    rw [if_neg (by omega)]
    dsimp only
    rw [if_neg (by omega), show n / 2 ^ 9 % 256 = r by omega]
  | k r =>
    simp only [Bool.and_eq_true, beq_iff_eq, decide_eq_true_eq] at hs
    obtain ⟨rfl, hr⟩ := hs
    simp only [srcBits] at hn
    rw [if_neg (by omega)]
    dsimp only
    rw [if_pos (by omega), show n / 2 ^ 9 % 256 = r by omega]
  | g r =>
    simp only [Bool.and_eq_true, beq_iff_eq, decide_eq_true_eq] at hs
    obtain ⟨rfl, hr⟩ := hs
    simp only [srcBits] at hn
    rw [if_neg (by omega)]
    dsimp only
    rw [show n / 2 ^ 9 % 256 = r by omega]
  | imm v =>
    simp only [srcBits] at hn
    rw [if_pos (by omega)]
    exact congrArg _ (BitVec.eq_of_toNat_eq (by simp; omega))

theorem half_bits_lt (hp : p.ok u = true) : p.bits < 2 ^ 31 := by
  have h1 := halfOp_lt p.op
  obtain ⟨-, h2⟩ := halfArgs_d_lt (half_args_ok hp)
  have h3 := srcBits_lt (half_args_ok hp)
  rw [half_bits_eq]
  omega

theorem half_ofBits_bits (hp : p.ok u = true) : Half.ofBits u p.bits = some p := by
  obtain ⟨op, core, d, src⟩ := p
  have h1 := halfOp_lt op
  obtain ⟨hc, hd⟩ := halfArgs_d_lt (half_args_ok hp)
  have hs := srcBits_lt (half_args_ok hp)
  dsimp only at hc hd hs
  rw [half_ofBits_eq, half_bits_eq]
  dsimp only
  rw [show (op.code * 2 ^ 25 + d * 2 ^ 17 + srcBits src) / 2 ^ 25 % 64 = op.code by omega,
    show (op.code * 2 ^ 25 + d * 2 ^ 17 + srcBits src) / 2 ^ 17 % 256 = d by omega,
    srcOf_bits (half_args_ok hp) (by dsimp only; omega), halfOp_ofCode, hc]
  rfl

theorem fieldsOf_mkPair (sw : Bool) (op : HalfOp) (h0 : HalfArgs) (h1 : Half) : fieldsOf (mkPair sw op h0 h1) = none := by
  cases op <;> rfl

theorem unPair_mkPair {sw : Bool} (hp : p.ok u = true) : unPair u (mkPair sw p.op p.args q) = some (sw, p, q) := by
  obtain ⟨op, args⟩ := p
  cases op with
  | nop => rw [show args = HalfArgs.none u from eq_of_beq hp]; rfl
  | _ => rfl

/-- A well-formed instruction without fields is a pair word. -/
theorem exists_mkPair (hw : wf u i = true) (hf : fieldsOf i = none) :
    ∃ (sw : Bool) (p q : Half), i = mkPair sw p.op p.args q ∧ pairOk u p.op p.args q = true := by
  have h : ((fieldsOf i).isNone && wf u i) = true := by rw [hf, hw]; rfl
  cases i with
  | pairNop sw h1 => exact ⟨sw, ⟨.nop, .none u⟩, h1, rfl, hw⟩
  | pairIadd sw h0 h1 => exact ⟨sw, ⟨.iadd, h0⟩, h1, rfl, hw⟩
  | pairIsub sw h0 h1 => exact ⟨sw, ⟨.isub, h0⟩, h1, rfl, hw⟩
  | pairImul sw h0 h1 => exact ⟨sw, ⟨.imul, h0⟩, h1, rfl, hw⟩
  | pairImin sw h0 h1 => exact ⟨sw, ⟨.imin, h0⟩, h1, rfl, hw⟩
  | pairImax sw h0 h1 => exact ⟨sw, ⟨.imax, h0⟩, h1, rfl, hw⟩
  | pairIminN sw h0 h1 => exact ⟨sw, ⟨.iminN, h0⟩, h1, rfl, hw⟩
  | pairImaxN sw h0 h1 => exact ⟨sw, ⟨.imaxN, h0⟩, h1, rfl, hw⟩
  | pairAnd sw h0 h1 => exact ⟨sw, ⟨.and, h0⟩, h1, rfl, hw⟩
  | pairOr sw h0 h1 => exact ⟨sw, ⟨.or, h0⟩, h1, rfl, hw⟩
  | pairXor sw h0 h1 => exact ⟨sw, ⟨.xor, h0⟩, h1, rfl, hw⟩
  | pairAndn sw h0 h1 => exact ⟨sw, ⟨.andn, h0⟩, h1, rfl, hw⟩
  | pairShl sw h0 h1 => exact ⟨sw, ⟨.shl, h0⟩, h1, rfl, hw⟩
  | pairShr sw h0 h1 => exact ⟨sw, ⟨.shr, h0⟩, h1, rfl, hw⟩
  | pairSar sw h0 h1 => exact ⟨sw, ⟨.sar, h0⟩, h1, rfl, hw⟩
  | pairRot sw h0 h1 => exact ⟨sw, ⟨.rot, h0⟩, h1, rfl, hw⟩
  | pairMov sw h0 h1 => exact ⟨sw, ⟨.mov, h0⟩, h1, rfl, hw⟩
  | pairFadd sw h0 h1 => exact ⟨sw, ⟨.fadd, h0⟩, h1, rfl, hw⟩
  | pairFsub sw h0 h1 => exact ⟨sw, ⟨.fsub, h0⟩, h1, rfl, hw⟩
  | pairFmul sw h0 h1 => exact ⟨sw, ⟨.fmul, h0⟩, h1, rfl, hw⟩
  | pairFmin sw h0 h1 => exact ⟨sw, ⟨.fmin, h0⟩, h1, rfl, hw⟩
  | pairFmax sw h0 h1 => exact ⟨sw, ⟨.fmax, h0⟩, h1, rfl, hw⟩
  | pairBadd2 sw h0 h1 => exact ⟨sw, ⟨.badd2, h0⟩, h1, rfl, hw⟩
  | pairBmul2 sw h0 h1 => exact ⟨sw, ⟨.bmul2, h0⟩, h1, rfl, hw⟩
  | pairBmin2 sw h0 h1 => exact ⟨sw, ⟨.bmin2, h0⟩, h1, rfl, hw⟩
  | pairBmax2 sw h0 h1 => exact ⟨sw, ⟨.bmax2, h0⟩, h1, rfl, hw⟩
  | xiset _ src => cases src <;> exact absurd h Bool.false_ne_true
  | iset _ _ d => cases d <;> exact absurd h Bool.false_ne_true
  | fset _ _ d => cases d <;> exact absurd h Bool.false_ne_true
  | pswp _ n => cases n <;> exact absurd h Bool.false_ne_true
  | _ => exact absurd h Bool.false_ne_true

/-- The word of a pair (R47). -/
def pairWord (sw : Bool) (p q : Half) : Nat := sw.toNat * 2 ^ 63 + 2 ^ 62 + p.bits * 2 ^ 31 + q.bits

theorem encode_mkPair {sw : Bool} (hp : p.ok u = true) : encode u (mkPair sw p.op p.args q) = pairWord sw p q := by
  simp only [encode, fieldsOf_mkPair, unPair_mkPair hp, pairWord]

theorem decode_pair {w : Nat} (h62 : w / 2 ^ 62 % 2 = 1) : decode u w = decodePair u w := by
  unfold decode
  rw [if_pos h62]

theorem decodePair_eq {w : Nat} {sw : Bool} (hs : (w / 2 ^ 63 % 2 == 1) = sw) (h0 : w / 2 ^ 31 % 2 ^ 31 = p.bits) (h1 : w % 2 ^ 31 = q.bits)
    (hw : wf u (mkPair sw p.op p.args q) = true) (hp : p.ok u = true) (hq : q.ok u = true) :
    decodePair u w = .ok (mkPair sw p.op p.args q) := by
  unfold decodePair
  rw [hs, h0, h1, half_ofBits_bits hp, half_ofBits_bits hq]
  simp [unPair_mkPair hp, hw]

theorem decode_pairWord {sw : Bool} (hw : wf u (mkPair sw p.op p.args q) = true) (hp : p.ok u = true) (hq : q.ok u = true) :
    decode u (pairWord sw p q) = .ok (mkPair sw p.op p.args q) := by
  have b1 := half_bits_lt hp
  have b2 := half_bits_lt hq
  have b3 := toNat_lt2 sw
  generalize hn : pairWord sw p q = n
  rw [pairWord] at hn
  have hs : n / 2 ^ 63 % 2 = sw.toNat := by omega
  exact (decode_pair (by omega)).trans
    (decodePair_eq (by rw [hs]; cases sw <;> rfl) (by omega) (by omega) hw hp hq)

theorem halves_ok {op : HalfOp} {h0 : HalfArgs} {h1 : Half} (h : pairOk u op h0 h1 = true) :
    Half.ok u ⟨op, h0⟩ = true ∧ h1.ok u = true := by
  simp only [pairOk, Bool.and_eq_true] at h
  exact h.1

/-- Every encodable instruction is decoded from its word. -/
theorem decode_encode (h : encodable u i = true) : decode u (encode u i) = .ok i := by
  obtain ⟨hw, hx⟩ := Bool.and_eq_true_iff.mp h
  cases hf : fieldsOf i with
  | some x =>
    rw [hf] at hx
    rw [encode, hf]
    exact decode_pack hw hf hx
  | none =>
    obtain ⟨sw, p, q, rfl, hpq⟩ := exists_mkPair hw hf
    obtain ⟨hp, hq⟩ := halves_ok hpq
    rw [encode_mkPair hp]
    exact decode_pairWord hw hp hq

/-! ### From a word to its instruction -/

theorem topBit {w : Nat} (hw : w < 2 ^ 64) : (w / 2 ^ 63 % 2 == 1).toNat = w / 2 ^ 63 := by
  obtain h | h : w / 2 ^ 63 = 0 ∨ w / 2 ^ 63 = 1 := by omega
  all_goals rw [h]; rfl
theorem pack_ofWord {w : Nat} (hw : w < 2 ^ 64) (h62 : w / 2 ^ 62 % 2 ≠ 1) : (Fields.ofWord w).pack = w := by
  simp only [Fields.pack, Fields.ofWord, topBit hw]
  omega
theorem fits_ofWord (w : Nat) : (Fields.ofWord w).fits = true := by
  simp [Fields.fits, Fields.ofWord, Nat.mod_lt]

/-- Fields that decode are those of the instruction, which is well formed. -/
theorem decodeFields_ok (h : decodeFields u x = .ok i) : wf u i = true ∧ fieldsOf i = some x := by
  unfold decodeFields at h
  repeat' split at h
  all_goals cases h
  simp_all

/-- A pair word that decodes is of two halves that read its bits. -/
theorem decodePair_ok {w : Nat} (h : decodePair u w = .ok i) :
    ∃ p q : Half, i = mkPair (w / 2 ^ 63 % 2 == 1) p.op p.args q ∧ p.bits = w / 2 ^ 31 % 2 ^ 31 ∧ q.bits = w % 2 ^ 31 ∧
      unPair u i = some (w / 2 ^ 63 % 2 == 1, p, q) ∧ wf u i = true := by
  unfold decodePair at h
  split at h
  · next p q hp hq =>
    refine ⟨p, q, ?_⟩
    split at h
    · cases h
    dsimp only at h
    split at h
    · cases h
    split at h
    · cases h
    cases h
    simp_all
  · cases h

/-- A word that decodes is the word of its instruction. -/
theorem encode_decode {w : Nat} (hw : w < 2 ^ 64) (h : decode u w = .ok i) : encodable u i = true ∧ encode u i = w := by
  by_cases h62 : w / 2 ^ 62 % 2 = 1
  · rw [decode_pair h62] at h
    obtain ⟨p, q, rfl, hp, hq, hu, hi⟩ := decodePair_ok h
    simp only [encodable, encode, fieldsOf_mkPair, hu, hi, hp, hq, topBit hw, Bool.and_self, true_and]
    omega
  · rw [decode_full (by omega)] at h
    obtain ⟨hi, hf⟩ := decodeFields_ok h
    simp only [encodable, encode, hf, hi, fits_ofWord, Bool.and_self, true_and]
    exact pack_ofWord hw h62

end Sys2Proof.Laws

open Sys2Proof.Laws

/-- Settles O1. -/
theorem encodeThenDecode : Obligations.EncodeThenDecode := fun _ _ h => decode_encode h

/-- Settles O2. -/
theorem decodeThenEncode : Obligations.DecodeThenEncode := fun _ _ _ hw h => encode_decode hw h
end

section
/-! SUPPORT. The words that the manual writes out. -/

open Sys2Proof.Machine

/-- Settles O3: each word is a closed number, so the decoder is run on it. -/
theorem decodesWrittenWords : Obligations.DecodesWrittenWords := by
  unfold Obligations.DecodesWrittenWords
  refine ⟨?_, ?_, ?_, ?_, ?_, ?_, ?_, ?_, ?_, ?_⟩ <;> decide
end

section
/-! SUPPORT. A placed word is not fetched in a module that has FAILED (R322). -/

namespace Sys2Proof.Machine

/-- In a module that has FAILED no warp may issue (R322). -/
theorem State.mayIssue_of_failed {s : State} (h : s.health = 2) (c k : Nat) : s.mayIssue c k = false := by
  simp [State.mayIssue, h]

/-- Placing a word mends nothing: the module's health is what it was. -/
theorem State.withFetchWord_health (s : State) (n w : Nat) : (s.withFetchWord n w).health = s.health := rfl

end Sys2Proof.Machine

open Sys2Proof.Machine

/-- Refutes O9: `withFetchWord` leaves the module's health as it was, and in a module that has FAILED (health 2, R322)
no warp may issue, so the placed word is not fetched. The state is that of reset with its health set to 2; the word is 0. -/
theorem not_placedWordIsFetched : ¬ Obligations.PlacedWordIsFetched := by
  unfold Obligations.PlacedWordIsFetched
  intro h
  obtain ⟨hmay, -, -⟩ := h { State.reset with health := 2 } 0 (by decide)
  rw [State.mayIssue_of_failed (State.withFetchWord_health ..)] at hmay
  exact Bool.false_ne_true hmay
end

section
/-! SUPPORT. The turn of a warp that is in the midst of a REP (R54, R55; log 9). -/

namespace Sys2Proof.Machine

/-- `turning` is the model's own state of a turn. -/
theorem State.tried_eq_turning (s : State) (c k : Nat) : s.tried c k = s.turning c k := rfl

/-- The model's ending of a turn, named by the statements. -/
theorem take_issue_of_go {s x : State} {c k : Nat} {i : Instr} (h : s.prepare c k = .go i x) :
    take (.issue c k) s = finished (exec i x) := by
  simp only [take, h]
  cases exec i x <;> rfl

/-- A warp that may issue and is in a REP has its next repeat as its turn. -/
theorem State.prepare_of_rep {s : State} {c k : Nat} {p : Rep} (hmay : s.mayIssue c k = true)
    (hrep : ((s.turning c k).warp c k).rep = some p) : s.prepare c k = (s.turning c k).prepRepeat c k p := by
  simp only [prepare, hmay, if_true, tried_eq_turning, hrep]

/-- The next repeat: its word is fetched, no record of a missing page is open, and the stepped fields decode. -/
theorem State.prepRepeat_of_word {s : State} {c k : Nat} {p : Rep} {n : Nat} {i : Instr}
    (hrec : s.recordOpen (s.warp c k).fetchRec = false) (hfetch : s.fetch c (s.warp c k) (p.pc + 8) = .word n)
    (hfull : n / 2 ^ 62 % 2 = 0)
    (hdec : decodeFields (s.warp c k).unit ((Fields.ofWord n).step p.sd p.sa p.sb p.sc p.next) = .ok i) :
    s.prepRepeat c k p = .go i (s.atWord (p.pc + 8)
      { cl := c, slot := k, run := p.threads, pc := p.pc, rep := some (p.next, p.cnt)
        word := ((Fields.ofWord n).step p.sd p.sa p.sb p.sc p.next).pack }) := by
  have hfull' : ¬ n / 2 ^ 62 % 2 = 1 := by omega
  simp only [prepRepeat, hrec, hfetch, hdec, if_neg hfull', Bool.false_eq_true, if_false]
  rfl

end Sys2Proof.Machine

open Sys2Proof.Machine

/-- Settles O5: the turn goes to the next repeat, which goes to the word with its fields stepped. -/
theorem stepRunsRepeat : Obligations.StepRunsRepeat := by
  unfold Obligations.StepRunsRepeat
  intro s c k r p n i hag a b hmay hrep hrec hfetch hfull hdec
  have hturn : s.turn = (.issue c k, a) := by simp only [State.turn, hag, a]
  have hgo : a.prepare c k = .go i (a.repeating c k p n) :=
    (State.prepare_of_rep hmay hrep).trans (State.prepRepeat_of_word hrec hfetch hfull hdec)
  rw [step, hturn]
  exact take_issue_of_go hgo
end

section
/-! SUPPORT. A REP word that no thread has a cause at, and at which none parks (R54, R55; log 9). -/

namespace Sys2Proof.Machine

/-- A guard that is EM reads no guess, so a thread with no due cause takes none in place of the word. -/
theorem Warp.firstCauses_em {w : Warp} {run : List Nat} {sw : Bool} (pc : BitVec 40)
    (h : ∀ t ∈ run, w.due { h := { sw := sw, g := .em } } t = none) :
    w.firstCauses run { h := { sw := sw, g := .em } } pc = [] := by
  rw [Warp.firstCauses, List.filterMap_eq_nil_iff]
  intro t ht
  simp [Warp.guardPlated, usesCm, h t ht]

/-- The repeat that a thread starts at, as a natural number. -/
theorem firstRepeat_toNat (repc : Word) (cnt : Nat) :
    (firstRepeat repc cnt).toNat = if repc = 0 then 0 else cnt + 1 - repc.toNat := by
  unfold firstRepeat
  split
  · rfl
  · omega

end Sys2Proof.Machine

open Sys2Proof.Machine

/-- Settles O22: of the threads of the run none has a cause and none parks, so that all of them begin the repeats. -/
theorem repWord : Obligations.RepWord := by
  unfold Obligations.RepWord
  intro s sw sd sa sb sc cnt hok hrun
  have hfirst : s.me.firstCauses s.cur.run { h := { sw := sw, g := .em } } s.cur.pc = [] :=
    Warp.firstCauses_em _ fun t ht => (hrun t ht).2.1
  have hpast : (s.cur.run.filter fun t => bitOf s.me.em t && decide ((s.me.thread t).repc.toNat > cnt.toNat + 1)) = [] := by
    rw [List.filter_eq_nil_iff]
    intro t ht
    simp [Nat.not_lt.mpr (hrun t ht).1]
  have hpark : (if sw then s.cur.run.filter (fun t => s.me.pending t || s.me.heldAtPort t || s.me.owed t) else []) = [] := by
    split
    · rw [List.filter_eq_nil_iff]
      intro t ht
      obtain ⟨h1, h2, h3⟩ := (hrun t ht).2.2 ‹_›
      simp [h1, h2, h3]
    · rfl
  show execRep sw sd sa sb sc cnt s = _
  unfold execRep
  simp only [hok, hfirst, List.map_nil, List.contains_nil, Bool.not_false, Bool.and_true, hpast, State.hitsAt_nil, List.append_nil,
    List.foldl_nil, State.take_nil, List.filter_true, hpark, State.modMe_modMe]
  unfold repBegun
  cases h : s.cur.run with
  | nil => simp
  | cons t r => simp [firstRepeat_toNat]
end

section
/-! SUPPORT. What the switch marker does to one thread (R52): the other threads of the warp that are seen again with it, and the causes
that they take, leave it as it is. -/

namespace Sys2Proof.Machine

/-! ### Records and parking leave every warp as it was -/

theorem State.warp_of_clusters {s s' : State} (h : s'.clusters = s.clusters) (c k : Nat) : s'.warp c k = s.warp c k := by
  simp only [State.warp, State.cluster, h]
theorem State.postWords_clusters (s : State) (ctx die : Nat) (d : Dword × Dword × Dword × Dword) :
    (s.postWords ctx die d).clusters = s.clusters := by
  unfold State.postWords
  dsimp only
  rw [apply_ite State.clusters]
  exact ite_id _
theorem State.warp_post (s : State) (ctx : Nat) (r : Record) (c k : Nat) : (s.post ctx r).warp c k = s.warp c k :=
  State.warp_of_clusters (s.postWords_clusters ..) c k
theorem State.warp_park (s : State) (c e k : Nat) : (s.park c e).warp c k = s.warp c k := by
  unfold State.park
  rw [State.warp_of_clusters (State.tell_clusters ..)]
  exact s.warp_modCluster c k rfl rfl

/-! ### Causes are taken by their own threads -/

theorem Warp.thread_modThread_ne (w : Warp) {t u : Nat} (h : t ≠ u) (f : Thread → Thread) : (w.modThread u f).thread t = w.thread t :=
  w.thread_setThread_ne u t _ h

/-- A fold that acts on other threads leaves a thread as it was. -/
theorem Warp.thread_foldl_modThread_ne {α : Type} (key : α → Nat) (f : α → Thread → Thread) (l : List α) {t : Nat}
    (h : ∀ x ∈ l, key x ≠ t) (w : Warp) : (l.foldl (fun y x => y.modThread (key x) (f x)) w).thread t = w.thread t := by
  induction l generalizing w with
  | nil => rfl
  | cons x r ih =>
    rw [List.foldl_cons, ih fun y hy => h y (List.mem_cons_of_mem _ hy)]
    exact w.thread_modThread_ne (h x List.mem_cons_self).symm _

/-- A warp whose threads have taken the hits of one cause. -/
def Warp.taking (w : Warp) (hits : List Hit) : Warp :=
  hits.foldl (fun x h => x.modThread h.t fun y => if w.handles h.t then y.enter w.tvec (maskOf (hits.map Hit.t)) h else y.stop h) w

/-- Taking one cause: the threads take it, a counter may rise, and the workgroup may park with a record. -/
theorem State.takeOne_cases (s : State) (c k : Nat) (cause : Byte) (hits : List Hit) : ∃ (u : Nat) (q : Ctr) (n : Nat),
    s.takeOne c k cause hits = (s.setWarp c k ((s.warp c k).taking hits)).count u q n ∨
    ∃ e ctx r, s.takeOne c k cause hits = (((s.setWarp c k ((s.warp c k).taking hits)).count u q n).park c e).post ctx r := by
  have hcount (x : State) (n : Nat) : ∃ (u : Nat) (q : Ctr) (m : Nat), (match plateCtr cause with
      | some ctr => x.count c ctr n
      | none => if cause = Cause.swap then x.count (128 + dieOf c) .swaps n else x) = x.count u q m := by
    split
    · exact ⟨_, _, _, rfl⟩
    · split
      · exact ⟨_, _, _, rfl⟩
      · exact ⟨0, .swaps, 0, rfl⟩
  obtain ⟨u, q, m, hm⟩ := hcount (s.setWarp c k ((s.warp c k).taking hits)) hits.length
  refine ⟨u, q, m, ?_⟩
  rw [← hm]
  unfold State.takeOne
  dsimp only
  split
  · exact .inl rfl
  · exact .inr ⟨_, _, _, rfl⟩

theorem State.takeOne_thread (s : State) (c k : Nat) (cause : Byte) {hits : List Hit} {t : Nat} (h : ∀ x ∈ hits, x.t ≠ t) :
    ((s.takeOne c k cause hits).warp c k).thread t = (s.warp c k).thread t := by
  have htaking : ((s.warp c k).taking hits).thread t = (s.warp c k).thread t := Warp.thread_foldl_modThread_ne Hit.t _ hits h _
  obtain ⟨u, q, n, e | ⟨_, _, _, e⟩⟩ := s.takeOne_cases c k cause hits
  · rw [e, State.warp_count, State.warp_setWarp, htaking]
  · rw [e, State.warp_post, State.warp_park, State.warp_count, State.warp_setWarp, htaking]

theorem State.postWords_cur (s : State) (ctx die : Nat) (d : Dword × Dword × Dword × Dword) : (s.postWords ctx die d).cur = s.cur := by
  unfold State.postWords
  dsimp only
  rw [apply_ite State.cur]
  exact ite_id _
theorem State.takeOne_cur (s : State) (c k : Nat) (cause : Byte) (hits : List Hit) : (s.takeOne c k cause hits).cur = s.cur := by
  obtain ⟨u, q, n, e | ⟨_, _, _, e⟩⟩ := s.takeOne_cases c k cause hits
  · rw [e, State.count_cur, State.setWarp_cur]
  · rw [e]
    refine (State.postWords_cur ..).trans ?_
    rw [State.park, State.tell_cur]
    exact State.count_cur ..
theorem State.take_cur (s : State) (c k : Nat) (hits : List Hit) : (s.take c k hits).cur = s.cur := by
  unfold State.take
  induction causesOf hits generalizing s with
  | nil => rfl
  | cons q r ih => exact (ih _).trans (s.takeOne_cur ..)
theorem State.wake_cur (s : State) (c k : Nat) : (s.wake c k).cur = s.cur := State.take_cur ..

theorem State.take_thread (s : State) (c k : Nat) {hits : List Hit} {t : Nat} (h : ∀ x ∈ hits, x.t ≠ t) :
    ((s.take c k hits).warp c k).thread t = (s.warp c k).thread t := by
  unfold State.take
  induction causesOf hits generalizing s with
  | nil => rfl
  | cons q r ih =>
    rw [List.foldl_cons, ih]
    exact s.takeOne_thread c k q fun x hx => h x (List.mem_of_mem_filter hx)

/-! ### Threads seen again -/

/-- One more thread seen again, with the causes that those before it take. -/
def recheckNext (a : Warp × List Hit) (t : Nat) : Warp × List Hit := ((a.1.recheck t).1, a.2 ++ (a.1.recheck t).2)

theorem State.wake_eq (s : State) (c k : Nat) :
    s.wake c k = (s.setWarp c k ((List.range 32).foldl recheckNext (s.warp c k, [])).1).take c k
      ((List.range 32).foldl recheckNext (s.warp c k, [])).2 := rfl

/-- A thread seen again changes nothing of its warp but itself, and takes no cause but its own. -/
theorem Warp.recheck_own (w : Warp) (u : Nat) :
    ((w.recheck u).1 = w ∨ ∃ x, (w.recheck u).1 = w.setThread u x) ∧ ∀ h ∈ (w.recheck u).2, h.t = u := by
  unfold Warp.recheck
  dsimp only
  split
  · split
    · exact ⟨.inl rfl, by simp⟩
    · exact ⟨.inr ⟨_, rfl⟩, by simp⟩
  · split
    · split
      · exact ⟨.inr ⟨_, rfl⟩, by simp⟩
      · split
        · exact ⟨.inr ⟨_, rfl⟩, by simp⟩
        · split <;> exact ⟨.inr ⟨_, rfl⟩, by simp⟩
    · exact ⟨.inl rfl, by simp⟩

/-- What stays of a thread while others are seen again: itself, what pends and is held of it, and that it takes no cause. -/
structure Unseen (t : Nat) (w : Warp) (a : Warp × List Hit) : Prop where
  thread : a.1.thread t = w.thread t
  pending : a.1.pending t = w.pending t
  held : a.1.heldAtPort t = w.heldAtPort t
  hits : ∀ h ∈ a.2, h.t ≠ t

theorem Unseen.next {t : Nat} {w : Warp} {a : Warp × List Hit} (ha : Unseen t w a) {u : Nat} (hu : u ≠ t) :
    Unseen t w (recheckNext a u) := by
  obtain ⟨hw, hown⟩ := a.1.recheck_own u
  have hhits : ∀ h ∈ (recheckNext a u).2, h.t ≠ t := fun h hh => (List.mem_append.mp hh).elim (ha.hits h) fun h' => hown h h' ▸ hu
  rcases hw with e | ⟨x, e⟩
  · exact ⟨(congrArg (Warp.thread · t) e).trans ha.thread, (congrArg (Warp.pending · t) e).trans ha.pending,
      (congrArg (Warp.heldAtPort · t) e).trans ha.held, hhits⟩
  · exact ⟨((congrArg (Warp.thread · t) e).trans (Warp.thread_setThread_ne _ _ _ _ hu.symm)).trans ha.thread,
      (congrArg (Warp.pending · t) e).trans ha.pending, (congrArg (Warp.heldAtPort · t) e).trans ha.held, hhits⟩

theorem Unseen.foldl {t : Nat} {w : Warp} {l : List Nat} (hl : t ∉ l) {a : Warp × List Hit} (ha : Unseen t w a) :
    Unseen t w (l.foldl recheckNext a) := by
  induction l generalizing a with
  | nil => exact ha
  | cons u r ih =>
    rw [List.mem_cons, not_or] at hl
    exact ih hl.2 (ha.next (Ne.symm hl.1))

/-- A parked thread that no fault holds at the port and that owes no load's cause. -/
theorem Warp.recheck_parked {w : Warp} {t : Nat} (hst : (w.thread t).st = .switch) (hport : w.heldAtPort t = false)
    (howed : ∀ d ∈ (w.thread t).deferred, d.reg = none) :
    ((w.recheck t).1.thread t).st = (if w.pending t then .switch else .ready) ∧ (w.recheck t).2 = [] := by
  have hnone : (w.thread t).deferred.find? (fun d => d.reg.isSome) = none := by
    rw [List.find?_eq_none]
    intro d hd
    simp [howed d hd]
  unfold Warp.recheck
  cases hp : w.pending t <;> simp [hst, hport, hnone]

/-- So its whole warp seen again leaves it. -/
theorem State.wake_parked {s : State} {c k t : Nat} (ht : t < 32) (hst : ((s.warp c k).thread t).st = .switch)
    (hport : (s.warp c k).heldAtPort t = false) (howed : ∀ d ∈ ((s.warp c k).thread t).deferred, d.reg = none) :
    (((s.wake c k).warp c k).thread t).st = if (s.warp c k).pending t then .switch else .ready := by
  obtain ⟨l, r, hlr⟩ := List.append_of_mem (List.mem_range.mpr ht)
  have hnodup : (l ++ t :: r).Nodup := hlr ▸ List.nodup_range
  have hl : t ∉ l := fun h => (List.nodup_append.mp hnodup).2.2 t h t List.mem_cons_self rfl
  have hr : t ∉ r := (List.nodup_cons.mp (List.nodup_append.mp hnodup).2.1).1
  have before : Unseen t (s.warp c k) (l.foldl recheckNext (s.warp c k, [])) := Unseen.foldl hl ⟨rfl, rfl, rfl, by simp⟩
  rw [State.wake_eq, hlr, List.foldl_append, List.foldl_cons]
  generalize l.foldl recheckNext (s.warp c k, []) = a at before
  obtain ⟨hseen, hquiet⟩ := Warp.recheck_parked (before.thread ▸ hst) (before.held ▸ hport) (before.thread ▸ howed)
  have after : Unseen t (a.1.recheck t).1 (r.foldl recheckNext (recheckNext a t)) :=
    Unseen.foldl hr ⟨rfl, rfl, rfl, by simpa [recheckNext, hquiet] using before.hits⟩
  rw [State.take_thread _ _ _ after.hits, State.warp_setWarp, after.thread, hseen, before.pending]

/-! ### The switch marker -/

/-- What the marker does to a thread, before it is seen again. -/
def Thread.marking (y : Thread) : Thread :=
  if y.st == .ready then { y with st := .switch, marked := true } else if y.st == .exited then y else { y with marked := true }

theorem Thread.marking_idem (y : Thread) : y.marking.marking = y.marking := by
  unfold Thread.marking
  cases h : y.st <;> simp [h]

/-- What the marker does to the threads `ts` of a warp. -/
def Warp.marking (w : Warp) (ts : List Nat) : Warp := ts.foldl (fun x t => x.modThread t Thread.marking) w

theorem State.mark_eq (s : State) (ts : List Nat) : s.mark ts = (s.modMe fun w => w.marking ts).wake s.cur.cl s.cur.slot := rfl

theorem Warp.thread_marking (ts : List Nat) {t : Nat} (w : Warp) :
    (w.marking ts).thread t = if t ∈ ts then (w.thread t).marking else w.thread t := by
  induction ts generalizing w with
  | nil => rfl
  | cons u r ih =>
    refine (ih (w.modThread u Thread.marking)).trans ?_
    by_cases hu : t = u
    · subst hu
      simp [Warp.modThread, Thread.marking_idem]
    · simp only [w.thread_modThread_ne hu, List.mem_cons, hu, false_or]

/-- The marker changes threads only. -/
theorem Warp.marking_results (ts : List Nat) (t : Nat) (w : Warp) :
    (w.marking ts).pending t = w.pending t ∧ (w.marking ts).heldAtPort t = w.heldAtPort t := by
  induction ts generalizing w with
  | nil => exact ⟨rfl, rfl⟩
  | cons u r ih => exact ih (w.modThread u Thread.marking)

end Sys2Proof.Machine

open Sys2Proof.Machine

/-- Settles O53: the marker parks the ready thread, and the warp seen again leaves it parked exactly where a bit of it pends. -/
theorem switchMarkerParks : Obligations.SwitchMarkerParks := by
  unfold Obligations.SwitchMarkerParks
  intro s ts t hmem ht hready hport howed
  have hthread : (s.me.marking ts).thread t = { s.me.thread t with st := .switch, marked := true } := by
    simp [Warp.thread_marking, hmem, Thread.marking, hready]
  obtain ⟨hpend, hheld⟩ := Warp.marking_results ts t s.me
  have hme : (s.modMe fun w => w.marking ts).warp s.cur.cl s.cur.slot = s.me.marking ts := s.me_modMe _
  rw [State.mark_eq, State.me, State.wake_cur, State.modMe_cur, ← hpend, ← hme]
  refine State.wake_parked ht ?_ ?_ ?_ <;> rw [hme]
  · rw [hthread]
  · rw [hheld, hport]
  · rw [hthread]
    exact howed
end

section
/-! SUPPORT. Loads at their issue (R94 to R104): a lane that meets no cause does what its claim says, and what that leaves unchanged. -/

namespace Sys2Proof.Machine

/-! ### Words whose lanes do what the claim says in the states that the word goes through -/

/-- As `perLane_pass`, where the lanes do what the claim says in the states that keep `P`, as those of the word do. -/
theorem WordClaim.perLane_pass_of (q : WordClaim) (f : State → Nat → LaneOut) (P : State → Prop)
    (hP : ∀ y t, P y → P (q.eff y t [t])) (hf : ∀ y t, P y → q.cause y t [t] = none → f y t = .ok (q.eff y t [t]))
    {s : State} {l : List Nat} (hs : P s) (h : q.pass s l = true) :
    perLane f s l = (l.foldl (fun y t => q.eff y t [t]) s, []) := by
  suffices H : ∀ (p : BitVec 40) (l : List Nat) (s : State), P s → q.pass s l = true →
      l.foldl (fun (a : State × List Hit) t => match f a.1 t with
        | .ok s' => (s', a.2)
        | .hit cause addr s' => (s', a.2 ++ [{ t := t, cause := cause, addr := addr, pc := p }])) (s, []) =
      (l.foldl (fun y t => q.eff y t [t]) s, []) from H s.cur.pc l s hs h
  intro p l
  induction l with
  | nil => intro s _ _; rfl
  | cons t r ih =>
    intro s hs h
    simp only [WordClaim.pass, Bool.and_eq_true, Option.isNone_iff_eq_none] at h
    simp only [List.foldl_cons, hf s t hs h.1]
    exact ih _ (hP s t hs) h.2

theorem WordClaim.lanes_ok_of (q : WordClaim) (f : State → Nat → List Nat → LaneOut) (P : State → Prop)
    (hP : ∀ y t ts, P y → P (q.eff y t ts)) (hf : ∀ y t ts, P y → q.cause y t ts = none → f y t ts = .ok (q.eff y t ts))
    {s : State} {l : List Nat} (hs : P s) (h : q.passes s l = true) : lanes q.x.once f s l = (q.perform s l, []) := by
  unfold lanes WordClaim.perform
  unfold WordClaim.passes at h
  split at h
  · rename_i ho
    rw [if_pos ho, if_pos ho]
    cases l with
    | nil => rfl
    | cons t r => simp [perRun, hf _ _ _ hs (Option.isNone_iff_eq_none.mp h)]
  · rename_i ho
    rw [if_neg ho, if_neg ho]
    exact q.perLane_pass_of _ P (fun y t => hP y t [t]) (fun y t hy hc => hf y t [t] hy hc) hs h

/-- What holds of the state in which a word's lanes begin, and is kept by each, holds after them. -/
theorem WordClaim.perform_keeps (q : WordClaim) (P : State → Prop) (hP : ∀ y t ts, P y → P (q.eff y t ts)) {s : State} (hs : P s)
    (ts : List Nat) : P (q.perform s ts) := by
  unfold WordClaim.perform
  split
  · cases ts with
    | nil => exact hs
    | cons t r => exact hP _ _ _ hs
  · induction ts generalizing s with
    | nil => exact hs
    | cons t r ih => exact ih (hP _ _ _ hs)

/-! ### The data of the registers -/

/-- `v` holds the data of `w` in every register, and its CM, CPM and ST. -/
structure Warp.SameData (v w : Warp) : Prop where
  cm : v.cm = w.cm
  cpm : v.cpm = w.cpm
  sr : v.sr = w.sr
  lanes : ∀ n t, (v.getV t n).data = (w.getV t n).data
  scalars : ∀ n, (v.getK n).data = (w.getK n).data

theorem Warp.SameData.of_regs {v w : Warp} (hv : v.v = w.v) (hk : v.k = w.k) (hu : v.unit = w.unit) (hcm : v.cm = w.cm)
    (hcpm : v.cpm = w.cpm) (hsr : v.sr = w.sr) : v.SameData w :=
  ⟨hcm, hcpm, hsr, fun _ _ => by simp only [Warp.getV, hv], fun _ => by simp only [Warp.getK, hk, hu]⟩
theorem Warp.SameData.refl (w : Warp) : w.SameData w := .of_regs rfl rfl rfl rfl rfl rfl
theorem Warp.SameData.trans {u v w : Warp} (h : u.SameData v) (k : v.SameData w) : u.SameData w :=
  ⟨h.cm.trans k.cm, h.cpm.trans k.cpm, h.sr.trans k.sr, fun n t => (h.lanes n t).trans (k.lanes n t),
    fun n => (h.scalars n).trans (k.scalars n)⟩

theorem Warp.untie_sameData (w : Warp) (k : Bool) (reg t : Nat) : (w.untie k reg t).SameData w := by
  obtain ⟨x, l, h⟩ := w.untie_frame k reg t
  rw [h]
  exact .of_regs rfl rfl rfl rfl rfl rfl

/-- A register whose data is put back with other bits. -/
theorem Warp.putV_sameData {w : Warp} {t n : Nat} {r : Reg} (h : r.data = (w.getV t n).data) : (w.putV t n r).SameData w := by
  refine ⟨rfl, rfl, rfl, fun m u => ?_, fun _ => rfl⟩
  unfold Warp.getV Warp.putV at *
  by_cases e : 32 * m + u = 32 * n + t
  · simp only [e, Tab.get_put_same, h]
  · simp only [Tab.get_put_other _ _ _ _ _ e]
theorem Warp.putK_sameData {w : Warp} {n : Nat} {r : Reg} (h : r.data = (w.getK n).data) : (w.putK n r).SameData w := by
  unfold Warp.putK
  split
  · exact .refl w
  · refine ⟨rfl, rfl, rfl, fun _ _ => rfl, fun m => ?_⟩
    unfold Warp.getK at *
    by_cases e : m = n
    · subst e
      cases hu : w.unit <;> simp_all
    · simp only [Tab.get_put_other _ _ _ _ _ e]

/-- A destination that pends keeps its data (R50). -/
theorem Warp.pendDst_sameData (w : Warp) (t : Nat) (d : Dst) : (w.pendDst t d).SameData w := by
  cases d with
  | v n =>
    have hu := w.untie_sameData false n t
    exact Warp.SameData.trans (v := w.untie false n t) (Warp.putV_sameData (by rw [hu.lanes])) hu
  | k n =>
    unfold Warp.pendDst
    dsimp only
    split
    · exact .refl w
    · have hu := w.untie_sameData true n 0
      exact Warp.SameData.trans (v := w.untie true n 0) (Warp.putK_sameData (by rw [hu.scalars])) hu
  | cm | h => exact .of_regs rfl rfl rfl rfl rfl rfl

/-! ### States that differ in no data -/

theorem State.me_count (s : State) (u : Nat) (c : Ctr) (n : Nat) : (s.count u c n).me = s.me := by
  simp only [State.me, State.count_cur, State.warp_count]

/-- `y` is in the same issue as `s`, with the same memory and the same register data. -/
structure State.SameData (y s : State) : Prop where
  cur : y.cur = s.cur
  mem : y.mem = s.mem
  me : y.me.SameData s.me

theorem State.SameData.refl (s : State) : s.SameData s := ⟨rfl, rfl, .refl _⟩
theorem State.SameData.trans {z y s : State} (h : z.SameData y) (k : y.SameData s) : z.SameData s :=
  ⟨h.cur.trans k.cur, h.mem.trans k.mem, h.me.trans k.me⟩
theorem State.modMe_sameData (s : State) {f : Warp → Warp} (h : ∀ w, (f w).SameData w) : (s.modMe f).SameData s :=
  ⟨rfl, rfl, by rw [State.me_modMe]; exact h _⟩
theorem State.numbered_sameData (s : State) : s.numbered.SameData s :=
  s.modMe_sameData fun _ => .of_regs rfl rfl rfl rfl rfl rfl
theorem State.pend_sameData (s : State) (t : Nat) (d : Dst) : (s.pend t d).SameData s := by
  unfold State.pend
  exact ⟨State.count_cur .., State.count_mem .., by rw [State.me_count, State.me_setMe]; exact s.me.pendDst_sameData t d⟩
theorem State.pendWide_sameData (s : State) (t : Nat) (d : Dst) (n : Nat) : (s.pendWide t d n).SameData s := by
  unfold State.pendWide
  induction List.range n generalizing s with
  | nil => exact .refl s
  | cons j r ih => exact (ih _).trans (s.pend_sameData t _)

/-- `v` differs from `w` in its threads and in when it last ran. -/
def Warp.OnlyThreads (v w : Warp) : Prop := ∃ (th : Tab Thread) (n : Nat), v = { w with threads := th, lastRun := n }
theorem Warp.OnlyThreads.foldl {α : Type} {g : Warp → α → Warp} (h : ∀ w x, (g w x).OnlyThreads w) (l : List α) (w : Warp) :
    (l.foldl g w).OnlyThreads w := by
  induction l generalizing w with
  | nil => exact ⟨w.threads, w.lastRun, rfl⟩
  | cons x r ih =>
    obtain ⟨th, n, e⟩ := ih (g w x)
    obtain ⟨th', n', e'⟩ := h w x
    exact ⟨th, n, by rw [List.foldl_cons, e, e']⟩
theorem Warp.aged_onlyThreads (w : Warp) (run : List Nat) : (w.aged run).OnlyThreads w := by
  refine Warp.OnlyThreads.foldl (fun y t => ?_) _ w
  split
  · exact ⟨_, y.lastRun, rfl⟩
  · exact ⟨y.threads, y.lastRun, rfl⟩
theorem State.me_issued (s : State) : s.issued.me.OnlyThreads s.me := by
  unfold State.issued
  split
  · exact ⟨s.me.threads, s.me.lastRun, rfl⟩
  · obtain ⟨th, n, e⟩ := s.me.aged_onlyThreads s.cur.run
    exact ⟨th, s.tick + 1, by rw [State.me_modMe, e]⟩
/-- A run that begins changes of its warp only the threads, and when it last ran. -/
theorem State.me_begun (s : State) (x : Shape) : (s.begun x).me.OnlyThreads s.me := by
  obtain ⟨th, n, e⟩ := s.me_issued
  have hadv : (s.begun x).me.OnlyThreads s.issued.me := by
    rw [State.begun, State.me_holdLane, State.advance, State.me_modMe]
    exact Warp.OnlyThreads.foldl (fun y t => ⟨_, y.lastRun, rfl⟩) _ _
  obtain ⟨th', n', e'⟩ := hadv
  exact ⟨th', n', by rw [e', e]⟩
theorem State.issued_cur (s : State) : s.issued.cur = s.cur := by
  unfold State.issued
  split <;> rfl
theorem State.issued_mem (s : State) : s.issued.mem = s.mem := by
  unfold State.issued
  split <;> rfl
theorem State.begun_sameData (s : State) (x : Shape) : (s.begun x).SameData s := by
  refine ⟨s.issued_cur, s.issued_mem, ?_⟩
  obtain ⟨th, n, e⟩ := s.me_begun x
  rw [e]
  exact .of_regs rfl rfl rfl rfl rfl rfl
theorem State.holdRepc_nil_sameData (s : State) : (s.holdRepc []).SameData s := by
  unfold State.holdRepc
  split
  · exact .refl s
  · exact s.modMe_sameData fun _ => .of_regs rfl rfl rfl rfl rfl rfl

/-! ### A load -/

theorem loadClaim_eff_sameData (s y : State) (l : LoadWord) (t : Nat) (ts : List Nat) : ((loadClaim s l).eff y t ts).SameData y := by
  refine State.SameData.trans (y := y.numbered.pendWide t (y.me.dst l.d) (if l.conv = 3 then 2 else 1)) ⟨rfl, rfl, ?_⟩
    ((y.numbered.pendWide_sameData t _ _).trans y.numbered_sameData)
  unfold loadClaim
  rw [State.me_modMe]
  exact .of_regs rfl rfl rfl rfl rfl rfl

/-- A lane's limit is what R102 says of its code. -/
theorem limitTicks_eq (l : LoadWord) (w : Warp) (t : Nat) : limitTicks l w t = l.limit w t := by
  unfold limitTicks LoadWord.limit LoadWord.limitReg
  by_cases h15 : l.lim = 15
  · cases hc : l.c <;> simp [h15]
  · simp [h15]

/-- A lane that meets no cause does what the claim says. -/
theorem LoadWord.lane_ok (s : State) (l : LoadWord) {y : State} {t : Nat} {ts : List Nat} (hy : y.cur = s.cur)
    (hc : (loadClaim s l).cause y t ts = none) : l.lane s.me.nextId y t ts = .ok ((loadClaim s l).eff y t ts) := by
  have hguess : ((l.guessReg.map fun n => (y.me.getK n).data).getD 0) = match l.guessReg with
      | some n => (y.me.getK n).data
      | none => 0 := by cases l.guessReg <;> rfl
  have htick (n : Nat) : y.tickOf (y.myCluster.cyc + n) = y.tick + y.myCluster.ticks n := by
    rw [State.tickOf, Nat.add_sub_cancel_left]
  unfold LoadWord.lane
  simp only [loadClaim] at hc
  simp only [hc, State.leaves, htick, hguess, ← limitTicks_eq, hy]
  rfl

/-- A load that nothing holds up issues as its claim says. -/
theorem loadWord_after {s : State} {l : LoadWord} (h : (loadClaim s l).Runs s) : loadWord s l = (loadClaim s l).after s := by
  have hgroup : (s.begun l.shape).me.nextId = s.me.nextId := by
    obtain ⟨th, n, e⟩ := s.me_begun l.shape
    rw [e]
  have hlanes : lanes l.k (l.lane (s.begun l.shape).me.nextId) (s.begun l.shape) (s.acting l.shape) =
      ((loadClaim s l).perform (s.begun l.shape) (s.acting l.shape), []) := by
    rw [hgroup]
    exact (loadClaim s l).lanes_ok_of _ (fun y => y.cur = s.cur)
      (fun y t ts hy => (loadClaim_eff_sameData s y l t ts).cur.trans hy) (fun y t ts hy hc => l.lane_ok s hy hc) s.issued_cur h.2
  rw [loadWord, issue_quiet (x := l.shape) _ h.1 (by rw [hlanes]), hlanes]
  rfl

/-- What a load leaves unchanged at its issue. -/
theorem loadClaim_frame {s : State} {l : LoadWord} (h : (loadClaim s l).Runs s) :
    ∃ y : State, loadWord s l = s.marked (loadClaim s l).x y ∧ y.SameData s := by
  refine ⟨((loadClaim s l).perform (s.begun (loadClaim s l).x) (s.acting (loadClaim s l).x)).holdRepc [], loadWord_after h, ?_⟩
  refine (State.holdRepc_nil_sameData _).trans ?_
  exact (loadClaim s l).perform_keeps (fun y => y.SameData s)
    (fun y t ts hy => (loadClaim_eff_sameData s y l t ts).trans hy) (s.begun_sameData _) _

end Sys2Proof.Machine

open Sys2Proof.Machine

/-- Settles O47: each of the four words that load is `loadWord`, whose lanes number, pend and record their access, and write no
data. -/
theorem loadFrame : Obligations.LoadFrame := by
  unfold Obligations.LoadFrame
  intro i s q hq hload hruns
  suffices H : ∃ l, q = loadClaim s l ∧ exec i s = .next (loadWord s l) by
    obtain ⟨l, rfl, hexec⟩ := H
    obtain ⟨y, hy, hsame⟩ := loadClaim_frame hruns
    exact ⟨y, hexec.trans (congrArg _ hy), hsame.mem, hsame.me.cm, hsame.me.cpm, hsame.me.sr, fun n t _ => hsame.me.lanes n t,
      hsame.me.scalars⟩
  cases i with
  | ld | ldStrong => exact ⟨_, (Option.some.inj hq).symm, rfl⟩
  | ldk h scl mode conv d a b c => cases mode <;> exact ⟨_, (Option.some.inj hq).symm, rfl⟩
  | st | stStrong | stk => cases hload
  | _ => cases hq
end

section
/-! SUPPORT. Pair words (R47 to R49): the values of R48, written in whole numbers and bits, are the model's, and a thread in which
neither half meets a cause does what the claim says. -/

namespace Sys2Proof.Machine

/-! ### Words by their bits -/

theorem getLsbD_maskOf (l : List Nat) (i : Nat) : (maskOf l).getLsbD i = decide (i < 32 ∧ i ∈ l) := by
  induction l with
  | nil => simp [maskOf]
  | cons t r ih =>
    rw [maskOf]
    by_cases hi : i < 32
    · by_cases ht : i = t
      · subst ht
        rw [← bitOf, bitOf_setBit_same _ _ _ hi]
        simp [hi]
      · rw [← bitOf, bitOf_setBit_other _ _ _ _ ht, bitOf, ih]
        simp [ht]
    · rw [BitVec.getLsbD_of_ge _ _ (Nat.not_lt.mp hi)]
      simp [hi]

/-- A word written by its bits has them. -/
theorem getLsbD_bitsWord (f : Nat → Bool) {i : Nat} (hi : i < 32) : (bitsWord f).getLsbD i = f i := by
  rw [bitsWord, getLsbD_maskOf]
  simp [hi]

/-- A word is the one written by its bits. -/
theorem bitsWord_of_bits {w : Word} {f : Nat → Bool} (h : ∀ i, i < 32 → w.getLsbD i = f i) : bitsWord f = w :=
  BitVec.eq_of_getLsbD_eq fun i hi => (getLsbD_bitsWord f hi).trans (h i hi).symm

/-! ### The integer results -/

theorem minS_eq_ofInt (x y : Word) : minS x y = BitVec.ofInt 32 (min x.toInt y.toInt) := by
  rw [min_def_lt, apply_ite (BitVec.ofInt 32), BitVec.ofInt_toInt, BitVec.ofInt_toInt]
  simp only [minS, BitVec.slt_eq_decide, decide_eq_true_eq]
theorem maxS_eq_ofInt (x y : Word) : maxS x y = BitVec.ofInt 32 (max x.toInt y.toInt) := by
  rw [max_def_lt, apply_ite (BitVec.ofInt 32), BitVec.ofInt_toInt, BitVec.ofInt_toInt]
  simp only [maxS, BitVec.slt_eq_decide, decide_eq_true_eq]
theorem minN_eq_ofNat (x y : Word) : minN x y = BitVec.ofNat 32 (min x.toNat y.toNat) := by
  rw [min_def_lt, apply_ite (BitVec.ofNat 32), BitVec.ofNat_toNat, BitVec.ofNat_toNat, BitVec.setWidth_eq, BitVec.setWidth_eq]
  simp only [minN, BitVec.ult_eq_decide, decide_eq_true_eq]
theorem maxN_eq_ofNat (x y : Word) : maxN x y = BitVec.ofNat 32 (max x.toNat y.toNat) := by
  rw [max_def_lt, apply_ite (BitVec.ofNat 32), BitVec.ofNat_toNat, BitVec.ofNat_toNat, BitVec.setWidth_eq, BitVec.setWidth_eq]
  simp only [maxN, BitVec.ult_eq_decide, decide_eq_true_eq]
theorem add_eq_ofInt (x y : Word) : x + y = BitVec.ofInt 32 (x.toInt + y.toInt) := by
  rw [BitVec.ofInt_add, BitVec.ofInt_toInt, BitVec.ofInt_toInt]
theorem sub_eq_ofInt (x y : Word) : x - y = BitVec.ofInt 32 (x.toInt - y.toInt) := by
  rw [Int.sub_eq_add_neg, BitVec.ofInt_add, BitVec.ofInt_neg, BitVec.ofInt_toInt, BitVec.ofInt_toInt, BitVec.sub_eq_add_neg]
theorem mul_eq_ofInt (x y : Word) : x * y = BitVec.ofInt 32 (x.toInt * y.toInt) := by
  rw [BitVec.ofInt_mul, BitVec.ofInt_toInt, BitVec.ofInt_toInt]

/-! ### The bit results -/

theorem bitsWord_and (x y : Word) : (bitsWord fun i => x.getLsbD i && y.getLsbD i) = x &&& y :=
  bitsWord_of_bits fun i _ => by simp
theorem bitsWord_or (x y : Word) : (bitsWord fun i => x.getLsbD i || y.getLsbD i) = x ||| y :=
  bitsWord_of_bits fun i _ => by simp
theorem bitsWord_xor (x y : Word) : (bitsWord fun i => x.getLsbD i != y.getLsbD i) = x ^^^ y :=
  bitsWord_of_bits fun i _ => by simp
theorem bitsWord_andn (x y : Word) : (bitsWord fun i => x.getLsbD i && !y.getLsbD i) = x &&& ~~~y :=
  bitsWord_of_bits fun i hi => by simp [hi]

theorem bitsWord_shl (x y : Word) : (bitsWord fun i => decide (y.toNat ≤ i) && x.getLsbD (i - y.toNat)) = shlW x y :=
  bitsWord_of_bits fun i hi => by
    unfold shlW
    split
    · have : ¬ y.toNat ≤ i := by omega
      simp [this]
    · rw [BitVec.getLsbD_shiftLeft]
      simp only [hi, decide_true, Bool.true_and, ← decide_not, Nat.not_lt]
theorem bitsWord_shr (x y : Word) : (bitsWord fun i => x.getLsbD (i + y.toNat)) = shrW x y :=
  bitsWord_of_bits fun i hi => by
    unfold shrW
    split
    · rw [x.getLsbD_of_ge _ (by omega)]
      simp
    · simp [Nat.add_comm]
theorem bitsWord_sar (x y : Word) : (bitsWord fun i => x.getLsbD (min 31 (i + y.toNat))) = sarW x y :=
  bitsWord_of_bits fun i hi => by
    unfold sarW
    rw [BitVec.getLsbD_sshiftRight]
    by_cases hin : min y.toNat 32 + i < 32
    · have h31 : min 31 (i + y.toNat) = min y.toNat 32 + i := by omega
      simp [hi, hin, h31]
    · have h31 : min 31 (i + y.toNat) = 31 := by omega
      rw [h31, if_neg hin, BitVec.msb_eq_getLsbD_last]
      simp [hi]
theorem bitsWord_rot (x y : Word) : (bitsWord fun i => x.getLsbD ((i + 32 - y.toNat % 32) % 32)) = rotW x y :=
  bitsWord_of_bits fun i hi => by
    unfold rotW
    rw [BitVec.getLsbD_rotateLeft]
    have hlt : y.toNat % 32 < 32 := Nat.mod_lt _ (by decide)
    rw [Nat.mod_eq_of_lt hlt]
    by_cases hi' : i < y.toNat % 32
    · have : (i + 32 - y.toNat % 32) % 32 = 32 - y.toNat % 32 + i := by omega
      rw [decide_eq_true hi', cond_true, this]
    · have : (i + 32 - y.toNat % 32) % 32 = i - y.toNat % 32 := by omega
      rw [decide_eq_false hi', cond_false, decide_eq_true hi, Bool.true_and, this]

/-! ### The halves -/

/-- The value of R48. -/
theorem halfSem_eq_halfOut (op : HalfOp) (x y : Word) : (halfSem op).f x y = halfOut op x y := by
  cases op with
  | iadd => exact congrArg (·, 0) (add_eq_ofInt x y)
  | isub => exact congrArg (·, 0) (sub_eq_ofInt x y)
  | imul => exact congrArg (·, 0) (mul_eq_ofInt x y)
  | imin => exact congrArg (·, 0) (minS_eq_ofInt x y)
  | imax => exact congrArg (·, 0) (maxS_eq_ofInt x y)
  | iminN => exact congrArg (·, 0) (minN_eq_ofNat x y)
  | imaxN => exact congrArg (·, 0) (maxN_eq_ofNat x y)
  | and => exact congrArg (·, 0) (bitsWord_and x y).symm
  | or => exact congrArg (·, 0) (bitsWord_or x y).symm
  | xor => exact congrArg (·, 0) (bitsWord_xor x y).symm
  | andn => exact congrArg (·, 0) (bitsWord_andn x y).symm
  | shl => exact congrArg (·, 0) (bitsWord_shl x y).symm
  | shr => exact congrArg (·, 0) (bitsWord_shr x y).symm
  | sar => exact congrArg (·, 0) (bitsWord_sar x y).symm
  | rot => exact congrArg (·, 0) (bitsWord_rot x y).symm
  | nop | mov | fadd | fsub | fmul | fmin | fmax | badd2 | bmul2 | bmin2 | bmax2 => rfl

theorem halfSem_float (op : HalfOp) : (halfSem op).float = halfClass op := by cases op <;> rfl
theorem halfSem_tag (op : HalfOp) : (halfSem op).tag = BitVec.ofNat 2 (halfClass op) := by cases op <;> rfl

/-- The bits of the upper half do not depend on what lies beyond the word. -/
theorem halves_upperHalf (f : Nat) :
    halves (upperHalf (BitVec.ofNat 32 f)) (upperHalf (BitVec.ofNat 32 f)) = halves (f / 2 ^ 16) (f / 2 ^ 16) := by
  have h : upperHalf (BitVec.ofNat 32 f) % 2 ^ 16 = f / 2 ^ 16 % 2 ^ 16 := by
    rw [upperHalf, BitVec.toNat_ofNat]
    omega
  rw [halves, halves, h]

/-- imm7 as the class of the half takes it (R48). -/
theorem halfVal_eq_halfSecond (op : HalfOp) (w : Warp) (t : Nat) (x : HalfArgs) :
    halfVal (halfSem op).float w t x = halfSecond op w t x := by
  rw [halfSem_float]
  unfold halfVal halfSecond
  cases x.src with
  | v | k | g => rfl
  | imm i =>
    have hclass : halfClass op = 0 ∨ halfClass op = 1 ∨ halfClass op = 2 := by cases op <;> simp [halfClass]
    rcases hclass with h | h | h <;> simp only [h]
    · rfl
    · rfl
    · exact halves_upperHalf _

theorem halfResult_eq_halfWrite (w : Warp) (t : Nat) (h : Half) : halfResult w t h = halfWrite w t h := by
  obtain ⟨op, x⟩ := h
  have hval := halfVal_eq_halfSecond op w t x
  have hout := halfSem_eq_halfOut op
  have htag := halfSem_tag op
  cases op with
  | nop => rfl
  | mov => simp only [halfResult, halfWrite, hval, hout]; rfl
  | _ => simp only [halfResult, halfWrite, halfTag, hval, hout, htag]; rfl

/-! ### The word -/

/-- The causes of the two halves, H0's first. -/
theorem firstOf_pair (a b : Option (Byte × Dword)) : firstOf [a, b] = a.or b := by cases a <;> cases b <;> rfl

/-- A thread in which neither half meets a cause. -/
theorem pairLane_ok {sw : Bool} {h0 h1 : Half} {y : State} {t : Nat} {ts : List Nat}
    (hc : (pairClaimOf sw h0 h1).cause y t ts = none) : pairLane h0 h1 y t = .ok ((pairClaimOf sw h0 h1).eff y t ts) := by
  have hsrc : (checkSrcs y.me t (halfSrcs h0)).or (checkSrcs y.me t (halfSrcs h1)) = none := by
    rw [← firstOf_pair]
    exact Option.map_eq_none_iff.mp hc
  unfold pairLane
  simp only [hsrc, halfResult_eq_halfWrite]
  rfl

theorem pairOf_after {sw : Bool} {h0 h1 : Half} {s : State} (h : (pairClaimOf sw h0 h1).Runs s) :
    pairOf s sw h0 h1 = (pairClaimOf sw h0 h1).after s :=
  (pairClaimOf sw h0 h1).sound (fun y t _ => pairLane h0 h1 y t) (fun _ _ _ hc => pairLane_ok hc) h

end Sys2Proof.Machine

open Sys2Proof.Machine

/-- Settles O17: each of the 26 words is the pair of its two halves, in every thread of which both halves write what they formed
before either wrote. -/
theorem pairWords : Obligations.PairWords := by
  unfold Obligations.PairWords
  intro i s q hq hruns
  suffices H : ∃ sw h0 h1, q = pairClaimOf sw h0 h1 ∧ exec i s = .next (pairOf s sw h0 h1) by
    obtain ⟨sw, h0, h1, rfl, hexec⟩ := H
    exact hexec.trans (congrArg _ (pairOf_after hruns))
  cases i with
  | pairNop | pairIadd | pairIsub | pairImul | pairImin | pairImax | pairIminN | pairImaxN | pairAnd | pairOr | pairXor | pairAndn
  | pairShl | pairShr | pairSar | pairRot | pairMov | pairFadd | pairFsub | pairFmul | pairFmin | pairFmax | pairBadd2 | pairBmul2
  | pairBmin2 | pairBmax2 => exact ⟨_, _, _, (Option.some.inj hq).symm, rfl⟩
  | _ => cases hq
end
